-- ==== Sys2Proof/Word.lean ====
section
/-! DEFINITION. The word types of the DK3140 and nothing else: the spec's data word, its wrapping counters and its index types. -/

namespace Sys2Proof

/-- One 32-bit data word; also one sample, I in bits 15..0 and Q in bits 31..16 (00_scope.md, Samples and stream blocks). -/
abbrev Word := BitVec 32

/-- A 16-bit counter or sequence number that wraps from 65,535 to 0 (00_scope.md, The distribution timebase). -/
abbrev Seq16 := BitVec 16

/-- Lane links L0 to L15. -/
abbrev LinkIx := Fin 16
/-- Services S0 to S23. -/
abbrev ServiceIx := Fin 24
/-- Zones Z0 to Z7. -/
abbrev ZoneIx := Fin 8
/-- Simulcast groups G0 to G3. -/
abbrev GroupIx := Fin 4
/-- Contact inputs CI0 to CI3. -/
abbrev InputIx := Fin 4
/-- Request tags 0 to 3 (R19). -/
abbrev Tag := Fin 4
/-- Break-in sources: 0 to 3 are CI0 to CI3, 4 to 7 are CS0 to CS3 (R122). -/
abbrev SourceIx := Fin 8

end Sys2Proof
end

