-- ==== Sys2Proof/Config.lean ====
section
/-! DEFINITION. What the spec fixes as numbers, and the one value it leaves open: where the fields of a posted word stand in it. -/

namespace Sys2Proof.Config

/-- Samples of a block, per lane (00_scope.md). -/
def blockSamples : Nat := 1600
/-- Steps of a block period (00_scope.md). -/
def blockSteps : Nat := 128000
/-- The last step of an echo window (R31, R42). -/
def lastEchoStep : Nat := 65535
/-- Samples of history a delay line keeps before the present block (R58). -/
def delayHistory : Nat := 205
/-- The largest compensation (R53). -/
def maxK : Nat := 16383
/-- Entries of the posting queue (R159). -/
def postingEntries : Nat := 64
/-- Notices of the internal queue (R173). -/
def noticeEntries : Nat := 16
/-- Requests of a pending queue (R20). -/
def pendingEntries : Nat := 8
/-- Blocks from the sending of a request to its deadline (R21). -/
def deadlineBlocks : Nat := 40
/-- Superframes from staging to switch (R89). -/
def switchLead : Nat := 3
/-- Lanes of a link (00_scope.md). -/
def lanes : Nat := 32
/-- Words of the status page (R177: 64 postings of 8 words). -/
def pagePostings : Nat := 64
/-- The byte address space (R64): 2^30 bytes. -/
def addressSpace : Nat := 1073741824
/-- Bytes of the control window (R64). -/
def windowBytes : Nat := 65536

/-- FREE VALUE (log 8): the bits of a posted word of which 10.5 gives the fields and their order but not their bit positions.
The first argument numbers the kind of word (10.5's tables in order), the second lists the field values in the order 10.5 names them. -/
opaque packFields : Nat → List Int → BitVec 32

end Sys2Proof.Config
end

