-- ==== Sys2Proof/Syntax.lean ====
section
/-! DEFINITION. The commands of the DK3140: one constructor of `Instr` per row of spec/opcode_table.json, with the operands its rule names. -/

namespace Sys2Proof

/-- The alarm wires of an RU, in the order of R1. -/
inductive Wire where
  | power | heat | feeder | door
deriving DecidableEq, Repr

/-- The telemetry items of a QUERY, in the order of R23. -/
inductive Item where
  | temp | outPower | feederRl | supply
deriving DecidableEq, Repr

/-- The streams of a service (R63): the normal stream and the break-in streams A and B. -/
inductive StreamName where
  | normal | a | b
deriving DecidableEq, Repr

/-- The marker number of a MARK or an ECHO: 0..3, or TRACK (1.3, Messages). -/
inductive MarkNumber where
  | run (m : Fin 4)
  | track
deriving DecidableEq, Repr

/-- The status of a REPLY (1.3, Messages). -/
inductive ReplyStatus where
  | accept | reject | data
deriving DecidableEq, Repr

/-- A control message from an RU to the part (1.3, Messages); `unknown` is a kind the part does not know (R17). -/
inductive RxMsg where
  | hello (identity : BitVec 64) (firmware : BitVec 16)
  | echo (runId : BitVec 8) (mark : MarkNumber) (turn latency : BitVec 12)
  | reply (tag : Tag) (status : ReplyStatus) (data : BitVec 32)
  | alarmOn (wire : Wire)
  | alarmOff (wire : Wire)
  | unknown
deriving DecidableEq, Repr

/-- An uplink lane frame as it arrives (R17, R30, R138): the block number it answers, whether its frame check failed, the step of
the present block period at which it arrives, its lane samples (entry `32 × sample + lane` holds a sample; an entry not listed is a
zero sample), and its control messages in frame order. -/
structure UplinkFrame where
  number : Seq16
  errored : Bool
  arrivalStep : Nat
  samples : List (Nat × Word)
  messages : List RxMsg
deriving DecidableEq, Repr

/-- One word of a host write: the data and the four byte enables, enable i for bits 8i+7..8i (chapter 9, introduction). -/
structure BusWord where
  data : Word
  enables : BitVec 4
deriving DecidableEq, Repr

/-- The units that hand postings to the memory path (9.4), in the rank of R159. -/
inductive Producer where
  | orderUnit | noticeUnit | statusPoster | combiner
deriving DecidableEq, Repr

/-- The commands. Word addresses are byte addresses divided by 4: "An access starts on a word boundary" (chapter 9), so the 30-bit byte
address is `4 × addr`. Order rows carry the object index and host tag of word 0 and the parameter words 10.5 gives the order. -/
inductive Instr where
  | blockBoundary (levels : BitVec 4)
  | superframeBoundary
  | resetAssert
  | resetRelease (straps : BitVec 14)
  | lockGained (l : LinkIx)
  | lockLost (l : LinkIx)
  | uplinkFrameArrival (l : LinkIx) (frame : UplinkFrame)
  | attach (l : LinkIx)
  | settlePeriodEnd (l : LinkIx)
  | debounceEnd (l : LinkIx)
  | helloWaitExpiry (l : LinkIx)
  | quiescingEnd (l : LinkIx)
  | requestDeadlineExpiry (l : LinkIx)
  | echoWindowClose (l : LinkIx)
  | trackWindowClose (l : LinkIx)
  | trackingMark (l : LinkIx)
  | holdExpiry (g : GroupIx)
  | registeredChange (i : InputIx)
  | planSwitch (z : ZoneIx)
  | joinSwitchSuperframe
  | setService (index : BitVec 8) (tag : BitVec 16) (w1 w2 w3 w4 w5 w6 : Word)
  | enableService (index : BitVec 8) (tag : BitVec 16)
  | disableService (index : BitVec 8) (tag : BitVec 16)
  | clearService (index : BitVec 8) (tag : BitVec 16)
  | setLink (index : BitVec 8) (tag : BitVec 16) (w1 w2 w3 w4 : Word)
  | linkListen (index : BitVec 8) (tag : BitVec 16)
  | linkRange (index : BitVec 8) (tag : BitVec 16)
  | linkActivate (index : BitVec 8) (tag : BitVec 16)
  | linkQuiesce (index : BitVec 8) (tag : BitVec 16)
  | linkAbort (index : BitVec 8) (tag : BitVec 16)
  | linkDark (index : BitVec 8) (tag : BitVec 16)
  | linkQuery (index : BitVec 8) (tag : BitVec 16) (w1 : Word)
  | setGroup (index : BitVec 8) (tag : BitVec 16) (w1 : Word)
  | setZone (index : BitVec 8) (tag : BitVec 16) (w1 : Word)
  | zoneIncident (index : BitVec 8) (tag : BitVec 16) (w1 w2 : Word)
  | setLine (index : BitVec 8) (tag : BitVec 16) (w1 w2 : Word)
  | lineAck (index : BitVec 8) (tag : BitVec 16)
  | breakinStart (index : BitVec 8) (tag : BitVec 16) (w1 : Word)
  | breakinStop (index : BitVec 8) (tag : BitVec 16)
  | setNotices (index : BitVec 8) (tag : BitVec 16) (w1 w2 : Word)
  | unknownOrder (code : BitVec 8) (index : BitVec 8) (tag : BitVec 16)
  | orderSlotWrite (slot : Fin 32) (word : Fin 8) (words : List BusWord)
  | orderProducerIndexWrite (word : BusWord)
  | noticeConsumerIndexWrite (word : BusWord)
  | flushWordRead
  | commitWordWrite (addr : BitVec 28) (words : List BusWord)
  | streamSampleWrite (addr : BitVec 28) (words : List BusWord)
  | ownedAreaWrite (addr : BitVec 28) (words : List BusWord)
  | hostWrite (addr : BitVec 28) (words : List BusWord)
  | heldAccessRelease
  | memoryPortCompletion
  | postingEnqueue (p : Producer)
  | noticeHandover
  | noticesLost
  | hostRead (addr : BitVec 28) (count : Nat)
deriving DecidableEq, Repr

end Sys2Proof
end

