-- ==== Sys2Proof/WellFormed.lean ====
section
/-! DEFINITION. Which commands can exist: the shape of a bus access (chapter 9, introduction) and of an uplink frame (chapter 1). -/

namespace Sys2Proof

/-- "accesses of 1 to 8 words" (chapter 9, introduction). -/
def accessLengthOk (n : Nat) : Bool := 1 ≤ n && n ≤ 8

/-- A list of samples in its one form: indices strictly rising, below `bound`, no zero sample listed. -/
def samplesOk (bound : Nat) : List (Nat × Word) → Bool
  | [] => true
  | [(k, v)] => k < bound && v != 0
  | (k, v) :: (k', v') :: rest => k < k' && v != 0 && samplesOk bound ((k', v') :: rest)

/-- An uplink frame: up to 8 messages (1.3), 32 lanes of 1,600 samples, arriving at a step of a block period. -/
def frameOk (f : UplinkFrame) : Bool :=
  f.messages.length ≤ 8 && f.arrivalStep < 128000 && samplesOk 51200 f.samples

/-- The codes R172 refuses as unknown: 0 and everything above 20. -/
def unknownCodeOk (code : BitVec 8) : Bool := code == 0 || code.toNat > 20

/-- Well-formed commands. -/
def WellFormed : Instr → Bool
  | .uplinkFrameArrival _ f => frameOk f
  | .unknownOrder code _ _ => unknownCodeOk code
  | .orderSlotWrite _ _ ws => accessLengthOk ws.length
  | .commitWordWrite _ ws => accessLengthOk ws.length
  | .streamSampleWrite _ ws => accessLengthOk ws.length
  | .ownedAreaWrite _ ws => accessLengthOk ws.length
  | .hostWrite _ ws => accessLengthOk ws.length
  | .hostRead _ n => accessLengthOk n
  | .blockBoundary _ => true
  | .superframeBoundary => true
  | .resetAssert => true
  | .resetRelease _ => true
  | .lockGained _ => true
  | .lockLost _ => true
  | .attach _ => true
  | .settlePeriodEnd _ => true
  | .debounceEnd _ => true
  | .helloWaitExpiry _ => true
  | .quiescingEnd _ => true
  | .requestDeadlineExpiry _ => true
  | .echoWindowClose _ => true
  | .trackWindowClose _ => true
  | .trackingMark _ => true
  | .holdExpiry _ => true
  | .registeredChange _ => true
  | .planSwitch _ => true
  | .joinSwitchSuperframe => true
  | .setService .. => true
  | .enableService .. => true
  | .disableService .. => true
  | .clearService .. => true
  | .setLink .. => true
  | .linkListen .. => true
  | .linkRange .. => true
  | .linkActivate .. => true
  | .linkQuiesce .. => true
  | .linkAbort .. => true
  | .linkDark .. => true
  | .linkQuery .. => true
  | .setGroup .. => true
  | .setZone .. => true
  | .zoneIncident .. => true
  | .setLine .. => true
  | .lineAck .. => true
  | .breakinStart .. => true
  | .breakinStop .. => true
  | .setNotices .. => true
  | .orderProducerIndexWrite _ => true
  | .noticeConsumerIndexWrite _ => true
  | .flushWordRead => true
  | .heldAccessRelease => true
  | .memoryPortCompletion => true
  | .postingEnqueue _ => true
  | .noticeHandover => true
  | .noticesLost => true

end Sys2Proof
end

