-- ==== Sys2Proof/Machine/State.lean ====
section
/-! DEFINITION. The state of the DK3140 as plain data, the reasons a step can stop, and the state after reset. -/

namespace Sys2Proof.Machine

open Sys2Proof

/-! ## Samples -/

/-- A store of samples: (index, sample) pairs with strictly rising indices and no zero sample; an index not listed holds a zero
sample (R58, R71 and R137 say these stores hold zeros before anything is entered). -/
abbrev Samples := List (Nat × Word)

/-- One value for each of a service's streams. -/
structure PerStream (α : Type) where
  normal : α
  a : α
  b : α
deriving DecidableEq, Repr

/-! ## Links (chapters 1, 2, 3, 5, 8) -/

/-- The link states, in the order of R1. -/
inductive LinkState where
  | dark | listen | attach | standby | joining | active | quiescing | fault
deriving DecidableEq, Repr

/-- The phases of LISTEN (R5). -/
inductive ListenPhase where
  | settle | detect
deriving DecidableEq, Repr

/-- The phases of ATTACH (R6). -/
inductive AttachPhase where
  | debounce | helloWait
deriving DecidableEq, Repr

/-- The causes of FAULT (R13). -/
inductive FaultCause where
  | noHello | lockLost | errors | ruRestart | planFail | rangeLost
deriving DecidableEq, Repr

/-- The causes of a LINK_STATE notice (R16). -/
inductive LinkCause where
  | order | hello | quiesced | planAccepted | planNotAccepted
  | fault (c : FaultCause)
deriving DecidableEq, Repr

/-- An RU's identity and firmware revision (R1). -/
structure RuIdentity where
  identity : BitVec 64
  firmware : BitVec 16
deriving DecidableEq, Repr

/-- The kinds of service, in the order of R63. -/
inductive Kind where
  | broadcast | mobile | rescue
deriving DecidableEq, Repr

/-- One entry of a PLAN message (1.3, Messages). -/
structure PlanItem where
  first : Nat
  width : Nat
  kind : Kind
  radioTag : BitVec 32
deriving DecidableEq, Repr

/-- A non-posted request (R19). `serial` names a PLAN request, so that an exchange can tell its current one (R91, R92). -/
inductive Request where
  | plan (serial : Nat) (m : Seq16) (entries : List PlanItem)
  | query (item : Item) (orderTag : BitVec 16)
deriving DecidableEq, Repr

/-- A request holding a tag: the block whose frame carried it, absent while it is not yet sent (R21). -/
structure Outstanding where
  request : Request
  sentIn : Option Seq16
deriving DecidableEq, Repr

/-- The content of a SETUP (R24). -/
structure Setup where
  zone : ZoneIx
  group : GroupIx
  power : Nat
deriving DecidableEq, Repr

/-- A control message from the part to an RU (1.3, Messages). -/
inductive DownMsg where
  | mark (runId : BitVec 8) (number : MarkNumber)
  | setup (content : Setup)
  | request (tag : Tag) (r : Request)
deriving DecidableEq, Repr

/-- The downlink frame under way on a link (R3): its messages in order, whether its lanes are those of the lane assembler (ACTIVE) or
zeros, and the K its lanes are delayed by (R59). -/
structure Frame where
  messages : List DownMsg
  carriesLanes : Bool
  k : Nat
deriving DecidableEq, Repr

/-- The link manager's part of a link record (R1), with the receiver's lock (R4), the frame under way (R3) and the model's own notes
of what is owed at the present boundary (log 2). -/
structure Manager where
  state : LinkState
  laser : Bool
  phaseCount : Nat
  listenPhase : Option ListenPhase
  attachPhase : Option AttachPhase
  identity : Option RuIdentity
  erroredRun : Nat
  wires : Vector Bool 4
  txQueue : List DownMsg
  outstanding : Vector (Option Outstanding) 4
  pendingQueue : List Request
  erroredFrames : Nat
  unexpected : Nat
  unsupported : Nat
  violations : Nat
  lock : Bool
  frame : Option Frame
  /-- Messages that stood in the transmit queue just before the present boundary and leave in its frame (R18). -/
  leaving : List DownMsg
  /-- A MARK placed for the frame of the present boundary before that frame was started (R18, R41). -/
  markNext : Option DownMsg
  /-- The present boundary found frame lock held in the detection phase (R5). -/
  attachDue : Bool
  /-- The present boundary found a QUIESCING link with nothing outstanding or pending (R10). -/
  quiesceDue : Bool
deriving DecidableEq, Repr

/-- The settings of a link (R1). -/
structure Settings where
  zone : ZoneIx
  group : GroupIx
  power : Nat
  asymmetry : Int
  cable : Int
  jitter : Nat
  gateHold : Nat
  gain : Nat
deriving DecidableEq, Repr

/-- How a ranging run was started (R28). -/
inductive RunCause where
  | order | tracking
deriving DecidableEq, Repr

/-- The outcomes of a ranging run, in the order of R40. -/
inductive RunOutcome where
  | ok | timeout | jitter | aborted
deriving DecidableEq, Repr

/-- A ranging run (R27). -/
structure RangingRun where
  runId : BitVec 8
  cause : RunCause
  firstBlock : Seq16
  marksSent : Nat
  roundTrips : Vector (Option Nat) 4
  turn3 : Option Nat
  latency3 : Option Nat
  asymmetry : Int
  jitter : Nat
deriving DecidableEq, Repr

/-- A tracking marker (R42). -/
structure TrackMarker where
  runId : BitVec 8
  block : Seq16
  isOpen : Bool
deriving DecidableEq, Repr

/-- The ranging unit's part of a link record (R27). -/
structure Ranging where
  runCounter : BitVec 8
  run : Option RangingRun
  valid : Bool
  delay : Nat
  turn : Nat
  latency : Nat
  path : Nat
  suspect : Bool
  failures : Nat
  trackCount : Nat
  marker : Option TrackMarker
  outliers : Nat
  missingEchoes : Nat
  /-- The count of the present superframe boundary, still to be taken, passes the link over: it entered ACTIVE there (R41), or its tracking
  mark has taken that count already (log 2). -/
  skipCount : Bool
deriving DecidableEq, Repr

/-- The alignment fields of a link record (R45). -/
structure Align where
  k : Nat
  kStar : Nat
  slewing : Bool
  outOfReach : Bool
deriving DecidableEq, Repr

/-- The purposes of a plan exchange (R91). -/
inductive Purpose where
  | switch | join
deriving DecidableEq, Repr

/-- The standing of a plan exchange (R91). -/
inductive Standing where
  | waiting | accepted | failed
deriving DecidableEq, Repr

/-- A plan exchange (R91). -/
structure Exchange where
  purpose : Purpose
  target : BitVec 8
  m : Seq16
  current : Option Nat
  standing : Standing
  attempts : Nat
deriving DecidableEq, Repr

/-- A link's downlink delay line (R58): the undelayed samples of the present block (index `32 × sample + lane`), and the last 205
samples of the block before it, indexed as they stood in that block. -/
structure DelayLine where
  now : Samples
  before : Samples
deriving DecidableEq, Repr

/-- One received uplink block of the received history (R137): whether a frame has been taken for it, and whether it is valid. -/
structure RxBlock where
  samples : Samples
  taken : Bool
  valid : Bool
deriving DecidableEq, Repr

/-- The received history of an ACTIVE link during period p: blocks p-2, p-1 and p (R137). -/
structure RxHistory where
  oldest : RxBlock
  middle : RxBlock
  newest : RxBlock
deriving DecidableEq, Repr

/-- A gate record (R143). -/
structure Gate where
  energy : Nat
  floor : Nat
  isOpen : Bool
  closeCount : Nat
deriving DecidableEq, Repr

/-- A link record (R1, R27, R45, R91) with its delay line (R58), received history and gate records (R137). -/
structure Link where
  mgr : Manager
  settings : Settings
  rng : Ranging
  align : Align
  exchange : Option Exchange
  planSerial : Nat
  line : DelayLine
  rx : Option RxHistory
  gates : Vector (Option Gate) 24
deriving DecidableEq, Repr

/-! ## Groups (chapter 3) -/

/-- A running hold (R45, R50). -/
structure Hold where
  candidate : Nat
  count : Nat
deriving DecidableEq, Repr

/-- A group record (R45). The member set is computed from the link states (R47; log 22). -/
structure Group where
  guard : Nat
  slew : Nat
  target : Option Nat
  hold : Option Hold
  /-- The hold's count of the present superframe boundary has been taken already, within HOLD_EXPIRY (R51; log 2). -/
  counted : Bool
deriving DecidableEq, Repr

/-! ## Services (chapters 4 and 8) -/

/-- The states of a service, in the order of R63. -/
inductive ServiceState where
  | free | defined | enabled
deriving DecidableEq, Repr

/-- A stream area or uplink ring: base byte address and block count (R63). -/
structure Area where
  base : Nat
  blocks : Nat
deriving DecidableEq, Repr

/-- The six stream counters, in the order of R63. -/
structure Counters where
  underrun : Nat
  stale : Nat
  early : Nat
  misplaced : Nat
  duplicate : Nat
  lateWrite : Nat
deriving DecidableEq, Repr

/-- A block slot of the staging store (R70, R71); word n of `words` is sample word n. -/
structure Slot where
  seq : Seq16
  committed : Bool
  words : Samples
deriving DecidableEq, Repr

/-- A stream record (R70): the launch slot, the open slots for b+1 and b+2, and the break-in and reporting fields. -/
structure StreamRec where
  launch : Option Slot
  open1 : Slot
  open2 : Slot
  starved : Bool
  underrunRun : Nat
  increments : Counters
  starvedSet : Bool
  starvedCleared : Bool
deriving DecidableEq, Repr

/-- What a STREAM notice says of one stream (R80). -/
structure StreamReport where
  increments : Counters
  totals : Counters
  starved : Bool
  starvedSet : Bool
  starvedCleared : Bool
deriving DecidableEq, Repr

/-- The superframe sums of a service's uplink (R137, R151). -/
structure UplinkSums where
  appended : Nat
  dropped : Nat
  clips : Nat
  partials : Nat
  disabled : Bool
deriving DecidableEq, Repr

/-- A service record (R63), its stream records (R70), its disabled report (R80) and its uplink accounts (R137). -/
structure Service where
  state : ServiceState
  kind : Kind
  width : Nat
  cls : Nat
  incidentOnly : Bool
  mask : BitVec 8
  radioTag : BitVec 32
  bypass : Bool
  areas : PerStream (Option Area)
  ring : Option Area
  totals : PerStream Counters
  streams : PerStream (Option StreamRec)
  report : Option (PerStream (Option StreamReport))
  lastAppended : Option Seq16
  droppedBefore : Nat
  sums : UplinkSums
deriving DecidableEq, Repr

/-! ## Zones, contact inputs and break-in (chapters 5, 6, 7) -/

/-- A plan entry (R83). -/
structure Entry where
  service : ServiceIx
  first : Nat
  width : Nat
deriving DecidableEq, Repr

/-- A staged plan (R83): `n` is its switch superframe. -/
structure StagedPlan where
  planId : BitVec 8
  entries : List Entry
  shed : List ServiceIx
  n : Seq16
deriving DecidableEq, Repr

/-- A zone record: the plan fields (R83), the incident fields (R104), the break-in owner and the selection records (R122).
`fadeFrom` is the stream the present block of a service is crossfaded from, where it is (R133; log 20). -/
structure Zone where
  planId : BitVec 8
  entries : List Entry
  shed : List ServiceIx
  staged : Option StagedPlan
  deferred : Bool
  hostFlag : Bool
  incident : Bool
  crossfade : Bool
  owner : Option SourceIx
  selection : Vector (Option StreamName) 24
  fadeFrom : Vector (Option StreamName) 24
deriving DecidableEq, Repr

/-- The modes of a contact input, in the order of R111. -/
inductive LineMode where
  | off | edge | level
deriving DecidableEq, Repr

/-- The announcement channels, in the order of R111. -/
inductive Channel where
  | a | b
deriving DecidableEq, Repr

/-- A contact input record (R111), with the model's notes of a registered change owed at, or already taken at, the present
boundary (R112; log 2). -/
structure ContactInput where
  mode : LineMode
  mask : BitVec 8
  priority : Nat
  channel : Channel
  incidentFlag : Bool
  latch : Bool
  acked : Bool
  level : Bool
  stability : Nat
  changeDue : Bool
  changeTaken : Bool
deriving DecidableEq, Repr

/-- The active part of a break-in source (R122). -/
structure ActivePart where
  mask : BitVec 8
  priority : Nat
  channel : Channel
  stamp : BitVec 32
deriving DecidableEq, Repr

/-- The break-in arbiter (R122); the owners and selection records stand in the zone records. -/
structure Arbiter where
  parts : Vector (Option ActivePart) 8
  counter : BitVec 32
  list : List SourceIx
deriving DecidableEq, Repr

/-! ## Uplink combiner (chapter 8) -/

/-- A block record (R137): the plan in force in each zone, the K applied on each link, the incident state supplied for each zone, the
zone of each link that launched the block in ACTIVE, and the services ENABLED at the boundary that began it. -/
structure BlockRecord where
  plans : Vector (List Entry) 8
  applied : Vector Nat 16
  incident : Vector Bool 8
  launched : Vector (Option ZoneIx) 16
  enabled : Vector Bool 24
deriving DecidableEq, Repr

/-- The header of a combined block (R147). -/
structure UplinkHeader where
  seq : Seq16
  expected : Nat
  missing : Nat
  opened : Nat
  clips : Nat
  droppedBefore : Nat
  empty : Bool
  isPartial : Bool
deriving DecidableEq, Repr

/-- A combined block on the work list (R137): word n of `words` is combined sample word n; `handed` postings are already enqueued. -/
structure WorkBlock where
  service : ServiceIx
  header : UplinkHeader
  words : Samples
  handed : Nat
deriving DecidableEq, Repr

/-- The combiner's block records (of blocks p-1 and p during period p) and work list (R137). -/
structure Combiner where
  prev : Option BlockRecord
  now : Option BlockRecord
  workList : List WorkBlock
deriving DecidableEq, Repr

/-! ## Notices (chapter 10) -/

/-- The causes of an ALIGN notice (R52). -/
inductive AlignCause where
  | joined (l : LinkIx)
  | left (l : LinkIx)
  | path (l : LinkIx) (p : Nat)
  | setGroup
  | holdExpired
deriving DecidableEq, Repr

/-- The outcomes of a query, in the order of R23. -/
inductive QueryOutcome where
  | data | rejected | timeout | aborted | linkDown
deriving DecidableEq, Repr

/-- The causes of an INCIDENT notice (R109). -/
inductive IncidentCause where
  | order
  | line (i : InputIx) (latchSet : Bool)
deriving DecidableEq, Repr

/-- The causes of a LINE_EVENT (R118). -/
inductive LineCause where
  | asserted | released | setLine
deriving DecidableEq, Repr

/-- The effects of a LINE_EVENT (R118). -/
inductive LineEffect where
  | latched | cleared | reported
deriving DecidableEq, Repr

/-- The causes of a BREAKIN_OWNER notice (R129). -/
inductive OwnerCause where
  | start | stop
  | lineSet (i : InputIx)
  | lineCleared (i : InputIx)
deriving DecidableEq, Repr

/-- The notices, each with what its rule says it carries (10.5, Notice record, gives the words). -/
inductive Notice where
  | linkState (l : LinkIx) (old new : LinkState) (cause : LinkCause) (cleared : Vector Bool 4) (identity : Option RuIdentity)
  | rangeResult (l : LinkIx) (runId : BitVec 8) (cause : RunCause) (outcome : RunOutcome) (state : LinkState)
      (roundTrips : Vector (Option Nat) 4) (spread : Option Nat) (turn latency delay path : Option Nat) (suspect valid : Bool)
      (failures : Nat) (failingMark : Option Nat)
  | align (g : GroupIx) (cause : AlignCause) (before after : Option Nat) (hold : Option Hold) (flags : List (LinkIx × Bool))
  | alarm (l : LinkIx) (wire : Wire) (on : Bool)
  | queryDone (l : LinkIx) (item : Item) (outcome : QueryOutcome) (orderTag : BitVec 16) (data : BitVec 32)
  | planSwitched (z : ZoneIx) (planId : BitVec 8) (entries : List Entry) (shed : List ServiceIx) (toJoining : List LinkIx)
  | stream (v : ServiceIx) (disabled : Bool) (reports : PerStream (Option StreamReport))
  | uplink (v : ServiceIx) (sums : UplinkSums)
  | ownedWrite (page ring : Nat) (uplinks : List (ServiceIx × Nat)) (first : Option Nat)
  | incident (z : ZoneIx) (before after hostFlag : Bool) (inputs : List InputIx) (cause : IncidentCause)
  | lineEvent (i : InputIx) (mode : LineMode) (cause : LineCause) (effect : LineEffect) (level latch acked : Bool) (block : Seq16)
  | breakinOwner (z : ZoneIx) (old new : Option SourceIx) (part : Option ActivePart) (cause : OwnerCause)
  | noticesLost (counts : Vector Nat 13)
deriving DecidableEq, Repr

/-- The hold state of the notice unit (R173). -/
inductive HoldState where
  | normal | hold
deriving DecidableEq, Repr

/-- The notice unit (R173): `handing` is the notice being handed over with the number of its next record (R174), `nirq` the pin. -/
structure NoticeUnit where
  queue : List Notice
  written : Seq16
  posted : Seq16
  consumed : Seq16
  holdState : HoldState
  holdAt : Nat
  resumeAt : Nat
  irqEnable : Bool
  lost : Vector Nat 13
  rejected : Nat
  handing : Option (Notice × Nat)
  nirq : Bool
deriving DecidableEq, Repr

/-! ## Memory path (chapter 9) -/

/-- A word of a posting: bits the spec gives in full, or the field values of a word whose bit places it does not give (log 8): the
number of the word's kind and its fields in the order of 10.5. -/
inductive PostWord where
  | bits (w : Word)
  | fields (kind : Nat) (values : List Int)
deriving DecidableEq, Repr

/-- An entry of the posting queue (9.4): its producer, byte address and 1 to 8 words. -/
structure Posting where
  producer : Producer
  addr : Nat
  words : List PostWord
deriving DecidableEq, Repr

/-- The places of R154. -/
inductive Place where
  | orderRing | producerIndex | consumerIndex | flushWord | statusPage | noticeRing | windowRest
  | stream (v : ServiceIx) (n : StreamName)
  | ring (v : ServiceIx)
  | elsewhere
deriving DecidableEq, Repr

/-- The standing of a host access (R153): HELD carries its release mark as a position in the posting queue, 0 the head. -/
inductive AccessStanding where
  | waiting
  | held (mark : Nat)
  | inMemory
deriving DecidableEq, Repr

/-- One word of a host access with its classification (R155); for a read the data and enables are 0 (log 33, log 52). -/
structure AccessWord where
  addr : BitVec 28
  place : Place
  data : Word
  enables : BitVec 4
deriving DecidableEq, Repr

/-- A host access that has arrived and not yet completed (R153, R155, R165). -/
structure HostAccess where
  isWrite : Bool
  passThrough : Bool
  words : List AccessWord
  standing : AccessStanding
deriving DecidableEq, Repr

/-- The memory port (R153): IDLE, or BUSY with the host access, with the head posting, or with a posting that RESET found under way
after emptying its queue (R165). -/
inductive Port where
  | idle | host | posting
  | orphan (p : Posting)
deriving DecidableEq, Repr

/-- The memory path (R153). -/
structure MemPath where
  inReset : Bool
  windowBase : Nat
  access : Option HostAccess
  queue : List Posting
  port : Port
  pressure : Bool
  ownedPage : Nat
  ownedRing : Nat
  ownedUplink : Vector Nat 24
  firstOwned : Option Nat
  pressureEntries : Nat
  largest : Nat
deriving DecidableEq, Repr

/-- The order unit (R168); `result` is a result posting waiting for a free entry (R159). The frozen slots are the pending slots and
are computed (log 22). -/
structure OrderUnit where
  shadow : Vector (Vector Word 7) 32
  consumer : Fin 32
  producer : Fin 32
  executing : Option (Fin 32)
  rejected : Nat
  result : Option Posting
deriving DecidableEq, Repr

/-- A status page being posted (R177): its 512 words, the postings already handed over, and the channel of each break-in stream that
a zone selects, which R136 supplies to the page and 10.5 gives no word (log 44). -/
structure Page where
  words : List PostWord
  handed : Nat
  breakIns : Vector (List (ServiceIx × Channel)) 8
deriving DecidableEq, Repr

/-- The status poster (R177). -/
structure Poster where
  pagesCut : Seq16
  page : Option Page
deriving DecidableEq, Repr

/-- The distribution timebase (00_scope.md), with the model's notes of boundary work still to be taken (log 2). -/
structure Timebase where
  block : Seq16
  superframe : Seq16
  index : Nat
  blockOwed : Bool
  superframeOwed : Bool
deriving DecidableEq, Repr

/-- The whole part, and the commands waiting for it, first in, first out. -/
structure State where
  time : Timebase
  links : Vector Link 16
  groups : Vector Group 4
  services : Vector Service 24
  zones : Vector Zone 8
  inputs : Vector ContactInput 4
  arbiter : Arbiter
  combiner : Combiner
  path : MemPath
  orders : OrderUnit
  notices : NoticeUnit
  poster : Poster
  pending : List Instr
deriving DecidableEq, Repr

/-! ## Reasons a step can stop -/

/-- The faults of the machine: none. Nothing in the spec stops the part (a link's FAULT, R13, is a state of the link). -/
inductive Fault where
deriving DecidableEq, Repr

/-- The refusals of the model. -/
inductive Refusal where
  /-- Raised by an arm of `exec` that has no meaning yet. Safe: the model stops. -/
  | notModelled (mnemonic : String)
  /-- Raised by a host access of 0 or more than 8 words, which no bus access is (chapter 9, introduction). Safe: the model stops. -/
  | malformedAccess
  /-- Raised by an uplink frame of more than 8 messages, an arrival step outside a block, or a sample outside the 32 lanes, which no
  frame is (1.3, 8.2). Safe: the model stops. -/
  | malformedFrame
deriving DecidableEq, Repr

/-! ## Reset (each record's rule gives the values) -/

/-- R1: the link manager's fields after reset. -/
def Manager.atReset : Manager :=
  { state := .dark, laser := false, phaseCount := 0, listenPhase := none, attachPhase := none, identity := none, erroredRun := 0,
    wires := Vector.replicate 4 false, txQueue := [], outstanding := Vector.replicate 4 none, pendingQueue := [],
    erroredFrames := 0, unexpected := 0, unsupported := 0, violations := 0, lock := false, frame := none, leaving := [],
    markNext := none, attachDue := false, quiesceDue := false }

/-- R1: the settings after reset. -/
def Settings.atReset : Settings :=
  { zone := 0, group := 0, power := 0, asymmetry := 0, cable := 0, jitter := 4, gateHold := 50, gain := 16384 }

/-- R27: the ranging fields after reset. -/
def Ranging.atReset : Ranging :=
  { runCounter := 0, run := none, valid := false, delay := 0, turn := 0, latency := 0, path := 0, suspect := false, failures := 0,
    trackCount := 0, marker := none, outliers := 0, missingEchoes := 0, skipCount := false }

/-- R1, R45: the alignment fields after reset. -/
def Align.atReset : Align := { k := 0, kStar := 0, slewing := false, outOfReach := false }

/-- R1, R58, R91, R137: a link record after reset. -/
def Link.atReset : Link :=
  { mgr := .atReset, settings := .atReset, rng := .atReset, align := .atReset, exchange := none, planSerial := 0,
    line := { now := [], before := [] }, rx := none, gates := Vector.replicate 24 none }

/-- R45: a group record after reset. -/
def Group.atReset : Group := { guard := 0, slew := 8, target := none, hold := none, counted := false }

/-- Six counters at 0. -/
def Counters.zero : Counters := { underrun := 0, stale := 0, early := 0, misplaced := 0, duplicate := 0, lateWrite := 0 }

/-- R137: superframe sums at 0. -/
def UplinkSums.zero : UplinkSums := { appended := 0, dropped := 0, clips := 0, partials := 0, disabled := false }

/-- R63, R70, R80, R137: a service record after reset. -/
def Service.atReset : Service :=
  { state := .free, kind := .broadcast, width := 1, cls := 0, incidentOnly := false, mask := 0, radioTag := 0, bypass := false,
    areas := ⟨none, none, none⟩, ring := none, totals := ⟨.zero, .zero, .zero⟩, streams := ⟨none, none, none⟩, report := none,
    lastAppended := none, droppedBefore := 0, sums := .zero }

/-- R83, R104, R122: a zone record after reset. -/
def Zone.atReset : Zone :=
  { planId := 0, entries := [], shed := [], staged := none, deferred := false, hostFlag := false, incident := false,
    crossfade := true, owner := none, selection := Vector.replicate 24 none, fadeFrom := Vector.replicate 24 none }

/-- R111: a contact input record after reset. -/
def ContactInput.atReset : ContactInput :=
  { mode := .off, mask := 0, priority := 0, channel := .a, incidentFlag := false, latch := false, acked := false, level := false,
    stability := 0, changeDue := false, changeTaken := false }

/-- R122: the arbiter after reset. -/
def Arbiter.atReset : Arbiter := { parts := Vector.replicate 8 none, counter := 0, list := [] }

/-- R153: the memory path at the release of RESET, with the straps read as `straps`. -/
def MemPath.atRelease (straps : BitVec 14) : MemPath :=
  { inReset := false, windowBase := straps.toNat * 65536, access := none, queue := [], port := .idle, pressure := false,
    ownedPage := 0, ownedRing := 0, ownedUplink := Vector.replicate 24 0, firstOwned := none, pressureEntries := 0, largest := 0 }

/-- R168: the order unit after reset. -/
def OrderUnit.atReset : OrderUnit :=
  { shadow := Vector.replicate 32 (Vector.replicate 7 0), consumer := 0, producer := 0, executing := none, rejected := 0,
    result := none }

/-- R173, R176: the notice unit after reset. -/
def NoticeUnit.atReset : NoticeUnit :=
  { queue := [], written := 0, posted := 0, consumed := 0, holdState := .normal, holdAt := 8, resumeAt := 24, irqEnable := true,
    lost := Vector.replicate 13 0, rejected := 0, handing := none, nirq := false }

/-- R177: the status poster after reset. -/
def Poster.atReset : Poster := { pagesCut := 0, page := none }

/-- 00_scope.md: the timebase at the release of RESET, which "begins block 0 and superframe 0 and is not itself a block boundary". -/
def Timebase.atReset : Timebase := { block := 0, superframe := 0, index := 0, blockOwed := false, superframeOwed := false }

/-- The part at the release of RESET with the straps read as `straps` (R166), and no command waiting. -/
def State.atRelease (straps : BitVec 14) : State :=
  { time := .atReset, links := Vector.replicate 16 .atReset, groups := Vector.replicate 4 .atReset,
    services := Vector.replicate 24 .atReset, zones := Vector.replicate 8 .atReset, inputs := Vector.replicate 4 .atReset,
    arbiter := .atReset, combiner := { prev := none, now := none, workList := [] }, path := .atRelease straps,
    orders := .atReset, notices := .atReset, poster := .atReset, pending := [] }

/-- The part right after reset. DESIGN CHOICE (log 12): the straps, inputs of the board, are all low, so the control window is at 0. -/
def State.reset : State := State.atRelease 0

end Sys2Proof.Machine
end

