-- ==== Sys2Proof/Machine/Ops.lean ====
section
/-! DEFINITION. The operations every unit uses: tables, saturating counts, samples, generating a notice, the posting queue and the
memory port's arbitration. -/

namespace Sys2Proof.Machine

open Sys2Proof

/-! ## Indices and numbers -/

/-- L0 to L15 in ascending index. -/
def allLinks : List LinkIx := [0, 1, 2, 3, 4, 5, 6, 7, 8, 9, 10, 11, 12, 13, 14, 15]
/-- S0 to S23 in ascending index. -/
def allServices : List ServiceIx :=
  [0, 1, 2, 3, 4, 5, 6, 7, 8, 9, 10, 11, 12, 13, 14, 15, 16, 17, 18, 19, 20, 21, 22, 23]
/-- Z0 to Z7 in ascending index. -/
def allZones : List ZoneIx := [0, 1, 2, 3, 4, 5, 6, 7]
/-- G0 to G3 in ascending index. -/
def allGroups : List GroupIx := [0, 1, 2, 3]
/-- CI0 to CI3 in ascending index. -/
def allInputs : List InputIx := [0, 1, 2, 3]
/-- Tags 0 to 3 in ascending order. -/
def allTags : List Tag := [0, 1, 2, 3]
/-- The streams of a service in the order NORMAL, A, B. -/
def allStreams : List StreamName := [.normal, .a, .b]

/-- A count that "goes up by 1 at each event its rule names and stays at 65,535 once it reaches that value" (R1, R63, R137, R153). -/
def bump16 (n : Nat) : Nat := if n < 65535 then n + 1 else n

/-- The same count taking several events at once. -/
def bumpBy16 (n d : Nat) : Nat := if n + d < 65535 then n + d else max n 65535

/-- R172: a value outside its range takes the nearest end. -/
def clampNat (lo hi n : Nat) : Nat := if n < lo then lo else if n > hi then hi else n

/-- R172: "a signed value clamps toward its own side". -/
def clampInt (lo hi n : Int) : Int := if n < lo then lo else if n > hi then hi else n

/-- Whether bit i of a zone mask is set (10.5: bit i for index i). -/
def hasZone (mask : BitVec 8) (z : ZoneIx) : Bool := mask.getLsbD z.val

/-- The zones of a mask in ascending index. -/
def zonesOf (mask : BitVec 8) : List ZoneIx := allZones.filter (hasZone mask)

/-! ## Per-stream records -/

/-- The record of stream n. -/
def PerStream.get {α : Type} (p : PerStream α) (n : StreamName) : α :=
  match n with
  | .normal => p.normal
  | .a => p.a
  | .b => p.b

/-- The records with that of stream n replaced. -/
def PerStream.set {α : Type} (p : PerStream α) (n : StreamName) (x : α) : PerStream α :=
  match n with
  | .normal => { p with normal := x }
  | .a => { p with a := x }
  | .b => { p with b := x }

/-- The break-in stream of an announcement channel (R131). -/
def Channel.stream : Channel → StreamName
  | .a => .a
  | .b => .b

/-- A wire's place in the order of R1. -/
def wireIx : Wire → Fin 4
  | .power => 0
  | .heat => 1
  | .feeder => 2
  | .door => 3

/-! ## Samples -/

/-- The sample at index n; an index not listed holds zero. -/
def sampleAt : Samples → Nat → Word
  | [], _ => 0
  | (k, v) :: rest, n => if n = k then v else sampleAt rest n

/-- The samples with index n set to v, kept in the one form: rising indices, no zero listed. -/
def setSample : Samples → Nat → Word → Samples
  | [], n, v => if v = 0 then [] else [(n, v)]
  | (k, w) :: rest, n, v =>
    if n < k then (if v = 0 then (k, w) :: rest else (n, v) :: (k, w) :: rest)
    else if n = k then (if v = 0 then rest else (n, v) :: rest)
    else (k, w) :: setSample rest n v

/-- Every listed index is at least `lo`, the indices rise strictly, and no listed sample is zero. -/
def samplesFrom : Nat → Samples → Bool
  | _, [] => true
  | lo, (k, v) :: rest => decide (lo ≤ k) && v != 0 && samplesFrom (k + 1) rest

/-- The one form of a sample store. -/
def samplesWf (x : Samples) : Bool := samplesFrom 0 x

/-- The samples f gives at the listed indices, zero everywhere else. -/
def buildSamples (indices : List Nat) (f : Nat → Word) : Samples :=
  indices.foldl (fun acc k => setSample acc k (f k)) []

/-- I of a sample, two's complement (00_scope.md, Samples and stream blocks). -/
def sampleI (w : Word) : Int := (w.extractLsb' 0 16).toInt

/-- Q of a sample, two's complement. -/
def sampleQ (w : Word) : Int := (w.extractLsb' 16 16).toInt

/-- The sample with components i and q. -/
def packSample (i q : Int) : Word := BitVec.ofInt 16 q ++ BitVec.ofInt 16 i

/-- A computation made "separately for I and for Q" on two samples (R59, R133). -/
def onComponents (f : Int → Int → Int) (x y : Word) : Word :=
  packSample (f (sampleI x) (sampleI y)) (f (sampleQ x) (sampleQ y))

/-- The word `old` with the bytes `enables` selects taken from `data` (R73, R169). -/
def mergeBytes (old data : Word) (enables : BitVec 4) : Word :=
  let byte (i : Nat) : BitVec 8 := if enables.getLsbD i then data.extractLsb' (8 * i) 8 else old.extractLsb' (8 * i) 8
  byte 3 ++ byte 2 ++ byte 1 ++ byte 0

/-! ## Tables -/

/-- The record of link l. -/
def State.link (s : State) (l : LinkIx) : Link := s.links[l]
/-- The record of group g. -/
def State.group (s : State) (g : GroupIx) : Group := s.groups[g]
/-- The record of service v. -/
def State.service (s : State) (v : ServiceIx) : Service := s.services[v]
/-- The record of zone z. -/
def State.zone (s : State) (z : ZoneIx) : Zone := s.zones[z]
/-- The record of contact input i. -/
def State.input (s : State) (i : InputIx) : ContactInput := s.inputs[i]

/-- The state with link l's record changed by f. -/
def State.modLink (s : State) (l : LinkIx) (f : Link → Link) : State := { s with links := s.links.set l (f s.links[l]) }
/-- The state with group g's record changed by f. -/
def State.modGroup (s : State) (g : GroupIx) (f : Group → Group) : State := { s with groups := s.groups.set g (f s.groups[g]) }
/-- The state with service v's record changed by f. -/
def State.modService (s : State) (v : ServiceIx) (f : Service → Service) : State :=
  { s with services := s.services.set v (f s.services[v]) }
/-- The state with zone z's record changed by f. -/
def State.modZone (s : State) (z : ZoneIx) (f : Zone → Zone) : State := { s with zones := s.zones.set z (f s.zones[z]) }
/-- The state with contact input i's record changed by f. -/
def State.modInput (s : State) (i : InputIx) (f : ContactInput → ContactInput) : State :=
  { s with inputs := s.inputs.set i (f s.inputs[i]) }

/-- The state with link l's manager fields changed by f. -/
def State.modMgr (s : State) (l : LinkIx) (f : Manager → Manager) : State := s.modLink l (fun x => { x with mgr := f x.mgr })
/-- The state with link l's settings changed by f. -/
def State.modSettings (s : State) (l : LinkIx) (f : Settings → Settings) : State :=
  s.modLink l (fun x => { x with settings := f x.settings })
/-- The state with link l's ranging fields changed by f. -/
def State.modRng (s : State) (l : LinkIx) (f : Ranging → Ranging) : State := s.modLink l (fun x => { x with rng := f x.rng })
/-- The state with link l's alignment fields changed by f. -/
def State.modAlign (s : State) (l : LinkIx) (f : Align → Align) : State := s.modLink l (fun x => { x with align := f x.align })
/-- The state with link l's plan exchange set. -/
def State.setExchange (s : State) (l : LinkIx) (e : Option Exchange) : State := s.modLink l (fun x => { x with exchange := e })
/-- The state with the memory path changed by f. -/
def State.modPath (s : State) (f : MemPath → MemPath) : State := { s with path := f s.path }
/-- The state with the order unit changed by f. -/
def State.modOrders (s : State) (f : OrderUnit → OrderUnit) : State := { s with orders := f s.orders }
/-- The state with the notice unit changed by f. -/
def State.modNotices (s : State) (f : NoticeUnit → NoticeUnit) : State := { s with notices := f s.notices }
/-- The state with the timebase changed by f. -/
def State.modTime (s : State) (f : Timebase → Timebase) : State := { s with time := f s.time }

/-- f taken for each link in ascending index. -/
def State.forLinks (s : State) (f : State → LinkIx → State) : State := allLinks.foldl f s
/-- f taken for each service in ascending index. -/
def State.forServices (s : State) (f : State → ServiceIx → State) : State := allServices.foldl f s
/-- f taken for each zone in ascending index. -/
def State.forZones (s : State) (f : State → ZoneIx → State) : State := allZones.foldl f s
/-- f taken for each group in ascending index. -/
def State.forGroups (s : State) (f : State → GroupIx → State) : State := allGroups.foldl f s
/-- f taken for each contact input in ascending index. -/
def State.forInputs (s : State) (f : State → InputIx → State) : State := allInputs.foldl f s

/-- The part does nothing while RESET is asserted but pass host accesses through (R165; log 13): `t` when it runs, `s` otherwise. -/
def State.running (s t : State) : Host.Outcome State Fault Refusal := .next (if s.path.inReset then s else t)

/-! ## Notices -/

/-- The code of a notice's kind (10.5, Notice record). -/
def Notice.kindCode : Notice → Nat
  | .linkState .. => 1
  | .rangeResult .. => 2
  | .align .. => 3
  | .alarm .. => 4
  | .queryDone .. => 5
  | .planSwitched .. => 6
  | .stream .. => 7
  | .uplink .. => 8
  | .ownedWrite .. => 9
  | .incident .. => 10
  | .lineEvent .. => 11
  | .breakinOwner .. => 12
  | .noticesLost .. => 13

/-- Whether a notice is a LINK_STATE whose new state is FAULT (R173). -/
def Notice.intoFault : Notice → Bool
  | .linkState _ _ new _ _ _ => new == .fault
  | _ => false

/-- R173: the urgent kinds are LINK_STATE into FAULT, BREAKIN_OWNER, LINE_EVENT, INCIDENT and NOTICES_LOST. -/
def Notice.urgent : Notice → Bool
  | .linkState _ _ new _ _ _ => new == .fault
  | .breakinOwner .. => true
  | .lineEvent .. => true
  | .incident .. => true
  | .noticesLost .. => true
  | _ => false

/-- The place of a notice's kind among the thirteen lost counts: in kind-code order, LINK_STATE into FAULT last (R173, R174, 10.5). -/
def Notice.lostIx (n : Notice) : Fin 13 :=
  if n.intoFault then 12
  else match n with
    | .linkState .. => 0
    | .rangeResult .. => 1
    | .align .. => 2
    | .alarm .. => 3
    | .queryDone .. => 4
    | .planSwitched .. => 5
    | .stream .. => 6
    | .uplink .. => 7
    | .ownedWrite .. => 8
    | .incident .. => 9
    | .lineEvent .. => 10
    | .breakinOwner .. => 11
    | .noticesLost .. => 12

/-- The notice unit with the lost count of n's kind one higher (R173, R174). -/
def NoticeUnit.lose (u : NoticeUnit) (n : Notice) : NoticeUnit :=
  { u with lost := u.lost.set n.lostIx (bump16 u.lost[n.lostIx]) }

/-- R173: a generated notice joins the tail of the internal queue, or is lost if the queue already holds 16. -/
def NoticeUnit.generate (u : NoticeUnit) (n : Notice) : NoticeUnit :=
  if u.queue.length < 16 then { u with queue := u.queue ++ [n] } else u.lose n

/-- A block generates a notice (R173). -/
def State.notify (s : State) (n : Notice) : State := s.modNotices (fun u => u.generate n)

/-! ## The posting queue and the memory port -/

/-- R160: the host access is a candidate while it is WAITING. -/
def MemPath.hostWaiting (m : MemPath) : Bool :=
  match m.access with
  | some a => a.standing == .waiting
  | none => false

/-- R155: a granted host access is IN_MEMORY. -/
def MemPath.grantHost (m : MemPath) : MemPath :=
  { m with port := .host, access := m.access.map (fun a => { a with standing := .inMemory }) }

/-- R160: an IDLE memory port with a candidate is granted at once; with both candidates, pressure mode decides. -/
def MemPath.arbitrate (m : MemPath) : MemPath :=
  if m.port = .idle then
    if m.hostWaiting && (m.queue.isEmpty || !m.pressure) then m.grantHost
    else if m.queue.isEmpty then m
    else { m with port := .posting }
  else m

/-- R159, R161: a posting joins the tail; the count reaching 48 with pressure OFF turns pressure ON; the largest occupancy follows. -/
def MemPath.push (m : MemPath) (p : Posting) : MemPath :=
  let turnsOn := !m.pressure && m.queue.length + 1 == 48
  { m with
    queue := m.queue ++ [p]
    pressure := m.pressure || turnsOn
    pressureEntries := if turnsOn then bump16 m.pressureEntries else m.pressureEntries
    largest := max m.largest (m.queue.length + 1) }

/-- R159: whether the queue holds fewer than 64 entries. -/
def MemPath.hasRoom (m : MemPath) : Bool := decide (m.queue.length < 64)

/-- R160: the arbitration an event leaves to be made, once its other effects have been taken (log 11). -/
def State.arbitrated (s : State) : State := s.modPath MemPath.arbitrate

/-- R171: the order unit hands its result posting over, or waits with it while the queue is full. -/
def State.handResult (s : State) (p : Posting) : State :=
  if s.path.hasRoom then s.modPath (fun m => m.push p)
  else s.modOrders (fun u => { u with result := some p })

end Sys2Proof.Machine
end

