-- ==== Sys2Proof/Machine/Operands.lean ====
section
/-! DEFINITION. Every operand form of the commands: the fields of an order's words (10.5), the result word, the places of a host
access (R154) and the layout of stream areas (R64). -/

namespace Sys2Proof.Machine

open Sys2Proof

/-! ## Orders -/

/-- An order as its slot holds it (10.5, Order slot): word 0's fields and the six parameter words. -/
structure Order where
  code : BitVec 8
  index : BitVec 8
  tag : BitVec 16
  p1 : Word
  p2 : Word
  p3 : Word
  p4 : Word
  p5 : Word
  p6 : Word
deriving DecidableEq, Repr

/-- R171: word 0 holds the code in bits 7..0, the object index in 15..8 and the host's tag in 31..16. -/
def orderOfWords (ws : Vector Word 7) : Order :=
  { code := ws[0].extractLsb' 0 8, index := ws[0].extractLsb' 8 8, tag := ws[0].extractLsb' 16 16,
    p1 := ws[1], p2 := ws[2], p3 := ws[3], p4 := ws[4], p5 := ws[5], p6 := ws[6] }

/-- Words 0 to 6 of the slot that holds an order. -/
def wordsOfOrder (o : Order) : Vector Word 7 :=
  #v[o.tag ++ o.index ++ o.code, o.p1, o.p2, o.p3, o.p4, o.p5, o.p6]

/-- Bits lo+len-1..lo of a word, unsigned. -/
def fieldAt (w : Word) (lo len : Nat) : Nat := (w.extractLsb' lo len).toNat

/-- Bits lo+15..lo of a word in two's complement. -/
def signedAt (w : Word) (lo : Nat) : Int := (w.extractLsb' lo 16).toInt

/-- The object an order names, if its index is below n (R172). -/
def indexBelow (n : Nat) (x : Nat) : Option (Fin n) := if h : x < n then some ⟨x, h⟩ else none

/-- 10.5: an area word has bit 31 set when the area is present, bits 29..5 of the base in bits 29..5, the block count in bits 4..0. -/
def areaOf (w : Word) : Option Area :=
  if w.getLsbD 31 then some { base := (w &&& 0x3FFFFFE0#32).toNat, blocks := fieldAt w 0 5 } else none

/-- The reason codes of a refusal (10.5). -/
inductive Reason where
  | badIndex | badValue | wrongState | busy | overlap | noStaging | noUplinkCapacity | queueFull | active | unknownOrder
deriving DecidableEq, Repr

/-- The notes of a DONE with note (10.5). -/
inductive Note where
  | notLatched | alreadyAcked | notActive
deriving DecidableEq, Repr

/-- The ways an order completes (R172). -/
inductive OrderResult where
  | done
  | clamped
  | note (n : Note)
  | refused (r : Reason)
deriving DecidableEq, Repr

/-- 10.5: the reason codes. -/
def Reason.code : Reason → BitVec 8
  | .badIndex => 1
  | .badValue => 2
  | .wrongState => 3
  | .busy => 4
  | .overlap => 5
  | .noStaging => 6
  | .noUplinkCapacity => 7
  | .queueFull => 8
  | .active => 9
  | .unknownOrder => 10

/-- 10.5: the note codes. -/
def Note.code : Note → BitVec 8
  | .notLatched => 1
  | .alreadyAcked => 2
  | .notActive => 3

/-- The result field of a result word (10.5): 1 DONE, 2 DONE-CLAMPED, 3 DONE with note, 4 REFUSED. -/
def OrderResult.resultBits : OrderResult → BitVec 8
  | .done => 1
  | .clamped => 2
  | .note _ => 3
  | .refused _ => 4

/-- The code field of a result word (10.5, R172). -/
def OrderResult.codeBits : OrderResult → BitVec 8
  | .done => 0
  | .clamped => 0
  | .note n => n.code
  | .refused r => r.code

/-- 10.5, word 7: bits 3..0 result, 15..8 code, 31..16 the tag echoed. -/
def resultWord (r : OrderResult) (tag : BitVec 16) : Word := tag ++ r.codeBits ++ r.resultBits

/-- DONE, or DONE-CLAMPED when a value was clamped (R172). -/
def doneOr (wasClamped : Bool) : OrderResult := if wasClamped then .clamped else .done

/-! ## Stream areas and uplink rings -/

/-- R64: bytes of a block of width w. -/
def blockBytes (w : Nat) : Nat := 32 + 6400 * w

/-- R64: bytes of an area of a service of width w. -/
def areaBytes (a : Area) (w : Nat) : Nat := a.blocks * blockBytes w

/-- Whether a byte address lies in an area of width w. -/
def inArea (a : Area) (w addr : Nat) : Bool := decide (a.base ≤ addr) && decide (addr < a.base + areaBytes a w)

/-- R64: two byte ranges (start, length) overlap if they have a byte in common. -/
def rangesOverlap (x y : Nat × Nat) : Bool := decide (x.1 < y.1 + y.2) && decide (y.1 < x.1 + x.2)

/-- The byte ranges of the areas a service reserves (R63, R65): its stream areas and its uplink ring. -/
def Service.ranges (v : Service) : List (Nat × Nat) :=
  ([v.areas.normal, v.areas.a, v.areas.b, v.ring].filterMap id).map (fun a => (a.base, areaBytes a v.width))

/-- The stream of service v whose area holds the byte address, if v is ENABLED (R69, R154). -/
def Service.streamAt (v : Service) (addr : Nat) : Option StreamName :=
  if v.state = .enabled then
    allStreams.find? (fun n => match v.areas.get n with
      | some a => inArea a v.width addr
      | none => false)
  else none

/-- Whether the byte address lies in the uplink ring of v, if v is ENABLED (R69, R154). -/
def Service.ringAt (v : Service) (addr : Nat) : Bool :=
  v.state == .enabled && (match v.ring with
    | some a => inArea a v.width addr
    | none => false)

/-- R154: the places of the control window, by offset. -/
def windowPlace (off : Nat) : Place :=
  if off < 0x400 then .orderRing
  else if off < 0x404 then .producerIndex
  else if off < 0x408 then .consumerIndex
  else if off < 0x40C then .flushWord
  else if 0x1000 ≤ off ∧ off < 0x1800 then .statusPage
  else if 0x2000 ≤ off ∧ off < 0x2800 then .noticeRing
  else .windowRest

/-- The place in a service's areas that holds a byte address, in service order (R154; no two places overlap, R65). -/
def areaPlace (services : Vector Service 24) (addr : Nat) : Place :=
  (allServices.findSome? (fun v =>
    match services[v].streamAt addr with
    | some n => some (Place.stream v n)
    | none => if services[v].ringAt addr then some (Place.ring v) else none)).getD .elsewhere

/-- R154: the place of a word, by its byte address. -/
def State.placeOf (s : State) (wordAddr : BitVec 28) : Place :=
  let addr := 4 * wordAddr.toNat
  if s.path.windowBase ≤ addr ∧ addr < s.path.windowBase + 65536 then windowPlace (addr - s.path.windowBase)
  else areaPlace s.services addr

/-- R154: the places whose writes are withheld. -/
def Place.owned : Place → Bool
  | .statusPage => true
  | .noticeRing => true
  | .ring _ => true
  | _ => false

/-- The word addresses of an access: consecutive, continuing from 0 past the end of the address space (chapter 9, introduction). -/
def accessAddrs : BitVec 28 → Nat → List (BitVec 28)
  | _, 0 => []
  | a, n + 1 => a :: accessAddrs (a + 1) n

/-- The words of a host write, each with its own place (R154, R155). -/
def State.writeWords (s : State) : BitVec 28 → List BusWord → List AccessWord
  | _, [] => []
  | a, w :: rest => { addr := a, place := s.placeOf a, data := w.data, enables := w.enables } :: State.writeWords s (a + 1) rest

/-- The words of a host read (R154, R155). That a read carries no byte enables, its words standing with enables 0, is the model's: chapter 9
gives each word of an access four and no rule says what a read's are (DESIGN CHOICE, log 52). -/
def State.readWords (s : State) (a : BitVec 28) (n : Nat) : List AccessWord :=
  (accessAddrs a n).map (fun x => { addr := x, place := s.placeOf x, data := 0, enables := 0 })

/-- The word address of an offset in the control window. -/
def State.windowWord (s : State) (off : Nat) : BitVec 28 := BitVec.ofNat 28 ((s.path.windowBase + off) / 4)

end Sys2Proof.Machine
end

