-- ==== Sys2Proof/Machine/Flags.lean ====
section
/-! DEFINITION. The values the part derives from its records: the period, the plan in force, membership, incident state, effective
class, free space, NIRQ. -/

namespace Sys2Proof.Machine

open Sys2Proof

/-- The block period the stream unit and the combiner are in: the block counter's value, or the one before while the work of the
boundary that began it is still to be taken (4.2: "during period b"; R76, R138, R140). -/
def State.period (s : State) : Seq16 := if s.time.blockOwed then s.time.block - 1 else s.time.block

/-- R83: the plan in force for the block that began last: the staged plan if its switch superframe has begun, else the current plan. -/
def State.planInForce (s : State) (z : ZoneIx) : List Entry :=
  match (s.zone z).staged with
  | some p => if p.n = s.time.superframe then p.entries else (s.zone z).entries
  | none => (s.zone z).entries

/-- The entry a plan holds for a service, if any (R87: at most one). -/
def entryFor (plan : List Entry) (v : ServiceIx) : Option Entry := plan.find? (fun e => e.service == v)

/-- R83: the carried set of a plan. -/
def carriedOf (plan : List Entry) : List ServiceIx := plan.map (fun e => e.service)

/-- R47: a link is a member of its group exactly while it is in ACTIVE. -/
def State.isMember (s : State) (g : GroupIx) (l : LinkIx) : Bool :=
  (s.link l).mgr.state == .active && (s.link l).settings.group == g

/-- R45: the member set of a group, by link index. -/
def State.members (s : State) (g : GroupIx) : List LinkIx := allLinks.filter (s.isMember g)

/-- R18, 1.2: the states in which the control channel is open. -/
def LinkState.controlOpen : LinkState → Bool
  | .standby => true
  | .joining => true
  | .active => true
  | .quiescing => true
  | _ => false

/-- R105: whether contact input i holds zone z in incident. -/
def ContactInput.holdsIncident (c : ContactInput) (z : ZoneIx) : Bool := c.latch && c.incidentFlag && hasZone c.mask z

/-- R105, R109: the contact inputs that hold zone z in incident, in ascending index. -/
def State.incidentInputs (s : State) (z : ZoneIx) : List InputIx := allInputs.filter (fun i => (s.input i).holdsIncident z)

/-- R105: the derived incident state of zone z, worked out from its terms. -/
def State.incidentOf (s : State) (z : ZoneIx) : Bool := (s.zone z).hostFlag || !(s.incidentInputs z).isEmpty

/-- R85: the channel of a zone's break-in owner. -/
def State.ownerChannel (s : State) (z : ZoneIx) : Option Channel :=
  match (s.zone z).owner with
  | some x => (s.arbiter.parts[x]).map (fun p => p.channel)
  | none => none

/-- R84: whether zone z demands service v. -/
def State.demands (s : State) (z : ZoneIx) (v : ServiceIx) : Bool :=
  (s.service v).state == .enabled && hasZone (s.service v).mask z && (!(s.service v).incidentOnly || (s.zone z).incident)

/-- R85: the effective class of service v in zone z. -/
def State.effectiveClass (s : State) (z : ZoneIx) (v : ServiceIx) : Nat :=
  match s.ownerChannel z with
  | some c => if (s.service v).kind = .broadcast ∧ ((s.service v).areas.get c.stream).isSome then 7 else (s.service v).cls
  | none => (s.service v).cls

/-- R173: the free space of the notice ring. -/
def NoticeUnit.free (u : NoticeUnit) : Nat := 64 - (u.written - u.consumed).toNat

/-- R175: NOTICES_LOST is owed while the unit is in NORMAL and any lost count is above 0. -/
def NoticeUnit.owed (u : NoticeUnit) : Bool := u.holdState == .normal && u.lost.toList.any (fun n => n != 0)

/-- R176: NIRQ is asserted while NP differs from NC and the interrupt enable is ON. -/
def NoticeUnit.refreshIrq (u : NoticeUnit) : NoticeUnit := { u with nirq := u.posted != u.consumed && u.irqEnable }

/-- R174: in NORMAL, free space at or below the hold threshold puts the unit into HOLD. -/
def NoticeUnit.enterHold (u : NoticeUnit) : NoticeUnit :=
  if u.holdState = .normal ∧ u.free ≤ u.holdAt then { u with holdState := .hold } else u

/-- R175: in HOLD, free space at or above the resume threshold puts the unit into NORMAL. -/
def NoticeUnit.leaveHold (u : NoticeUnit) : NoticeUnit :=
  if u.holdState = .hold ∧ u.resumeAt ≤ u.free then { u with holdState := .normal } else u

/-- The number of pending orders (R168, R170). -/
def OrderUnit.pendingCount (u : OrderUnit) : Nat := (u.producer - u.consumer).val

/-- R168: the frozen slots are the pending slots. -/
def OrderUnit.frozen (u : OrderUnit) (slot : Fin 32) : Bool := decide ((slot - u.consumer).val < u.pendingCount)

/-- Whether link l has a ranging run in progress. -/
def State.hasRun (s : State) (l : LinkIx) : Bool := (s.link l).rng.run.isSome

end Sys2Proof.Machine
end

