-- ==== Sys2Proof/Machine/Alignment.lean ====
section
/-! DEFINITION. The alignment unit (chapter 3): re-evaluation of a group, K* and K, joining and leaving, hold expiry, the slew step. -/

namespace Sys2Proof.Machine

open Sys2Proof

/-- R49 step 2: the largest path among links. -/
def State.longestPath (s : State) (ls : List LinkIx) : Option Nat :=
  ls.foldl (fun acc l => match acc with
    | none => some (s.link l).rng.path
    | some p => some (max p (s.link l).rng.path)) none

/-- R49 steps 1 to 4 and R50: the group after a re-evaluation that finds `longest` the largest path of its members. -/
def Group.reEvaluated (g : Group) (longest : Option Nat) : Group :=
  match longest with
  | none => { g with target := none, hold := none }
  | some p =>
    match g.target with
    | none => { g with target := some (p + g.guard), hold := none }
    | some t =>
      if t ≤ p + g.guard then { g with target := some (p + g.guard), hold := none }
      else { g with hold := some { candidate := p + g.guard, count := match g.hold with
        | none => 0
        | some h => h.count } }

/-- R53, R55: the alignment fields of a member with path p when its group's target is t. -/
def Align.towards (a : Align) (t p : Nat) : Align :=
  { a with
    kStar := if t - p ≤ 16383 then t - p else 16383
    outOfReach := decide (¬ t - p ≤ 16383)
    slewing := a.k != (if t - p ≤ 16383 then t - p else 16383) }

/-- R49 step 5, R53: K* of every member against the target that stands. -/
def State.computeKStar (s : State) (g : GroupIx) : State :=
  match (s.group g).target with
  | none => s
  | some t => (s.members g).foldl (fun s l => s.modAlign l (fun a => a.towards t (s.link l).rng.path)) s

/-- The members whose OUT_OF_REACH flag differs between two states, with its new value (R52). -/
def flagChanges (before after : State) (ls : List LinkIx) : List (LinkIx × Bool) :=
  (ls.filter (fun l => (before.link l).align.outOfReach != (after.link l).align.outOfReach)).map
    (fun l => (l, (after.link l).align.outOfReach))

/-- R52: whether an event that took group `x` to group `y` and changed `flags` posts an ALIGN. -/
def alignPosts (x y : Group) (flags : List (LinkIx × Bool)) : Bool :=
  x.target != y.target || x.hold.isSome != y.hold.isSome || !flags.isEmpty

/-- R49, R52: a re-evaluation of group g. `cleared` lists flags the same event changed already (R48, R47). -/
def State.reEvaluate (s : State) (g : GroupIx) (cause : AlignCause) (cleared : List (LinkIx × Bool)) : State :=
  let x := s.group g
  let y := x.reEvaluated (s.longestPath (s.members g))
  let t := (s.modGroup g (fun _ => y)).computeKStar g
  let flags := cleared ++ flagChanges s t (s.members g)
  if alignPosts x y flags then t.notify (.align g cause x.target y.target y.hold flags) else t

/-- R47, R54: link l, now in ACTIVE, joins its group; it takes K at K* at once. -/
def State.joinGroup (s : State) (l : LinkIx) : State :=
  (s.reEvaluate (s.link l).settings.group (.joined l) []).modAlign l (fun a => { a with k := a.kStar, slewing := false })

/-- R47, R48: link l, no longer in ACTIVE, leaves its group without a teardown: K is frozen. -/
def State.leaveGroup (s : State) (l : LinkIx) : State :=
  let flag := (s.link l).align.outOfReach
  (s.modAlign l (fun a => { a with kStar := a.k, slewing := false, outOfReach := false })).reEvaluate
    (s.link l).settings.group (.left l) (if flag then [(l, false)] else [])

/-- R15 step 3, R47: the alignment work of a teardown of link l, which was a member of its group or not. -/
def State.leaveGroupDown (s : State) (l : LinkIx) (wasMember : Bool) : State :=
  let flag := (s.link l).align.outOfReach
  let t := s.modAlign l (fun _ => .atReset)
  if wasMember then t.reEvaluate (s.link l).settings.group (.left l) (if flag then [(l, false)] else []) else t

/-- R34, R61: the ranging unit reports a new path of link l, which re-evaluates the group if l is a member. -/
def State.reportPath (s : State) (l : LinkIx) : State :=
  if (s.link l).mgr.state = .active then
    s.reEvaluate (s.link l).settings.group (.path l (s.link l).rng.path) []
  else s

/-- R51: the hold of group g counts one superframe boundary, unless HOLD_EXPIRY has taken that count there already (log 2). -/
def Group.countHold (g : Group) : Group :=
  if g.counted then { g with counted := false }
  else { g with hold := g.hold.map (fun h => { h with count := if h.count < 100 then h.count + 1 else h.count }) }

/-- R51: whether group g's hold expires at the present boundary. -/
def Group.holdExpires (g : Group) : Bool :=
  match g.hold with
  | some h => decide (100 ≤ h.count)
  | none => false

/-- R51: the expiry of group g's hold: T takes the candidate, K* is recomputed, ALIGN is posted. -/
def State.expireHold (s : State) (g : GroupIx) : State :=
  match (s.group g).hold with
  | none => s
  | some h =>
    let x := s.group g
    let y : Group := { x with target := some h.candidate, hold := none }
    let t := (s.modGroup g (fun _ => y)).computeKStar g
    t.notify (.align g .holdExpired x.target y.target y.hold (flagChanges s t (s.members g)))

/-- R51: whether the count that group g's hold owes the present superframe boundary would be its hundredth. -/
def State.lastCountDue (s : State) (g : GroupIx) : Bool :=
  s.time.superframeOwed && !(s.group g).counted &&
    (match (s.group g).hold with
     | some h => h.count == 99
     | none => false)

/-- R51: group g's hold makes its hundredth count, ahead of the boundary's other work, and expires. -/
def State.countAndExpire (s : State) (g : GroupIx) : State := (s.modGroup g (fun x => { x with counted := true })).expireHold g

/-- R51, HOLD_EXPIRY where the hold has reached 100. -/
def State.holdExpiryIfDue (s : State) (g : GroupIx) : State := if (s.group g).holdExpires then s.expireHold g else s

/-- R55: one slew step of at most `slew` steps toward K*. -/
def Align.slewStep (a : Align) (slew : Nat) : Align :=
  let k := if a.k < a.kStar then (if a.kStar - a.k ≤ slew then a.kStar else a.k + slew)
    else (if a.k - a.kStar ≤ slew then a.kStar else a.k - slew)
  { a with k := k, slewing := k != a.kStar }

/-- R55: the slew step of a block boundary, for every member. -/
def State.slewAll (s : State) : State :=
  s.forLinks (fun s l =>
    if (s.link l).mgr.state = .active then
      s.modAlign l (fun a => a.slewStep (s.group (s.link l).settings.group).slew)
    else s)

/-- SET_GROUP (R46): guard and slew are clamped and stored, and the group re-evaluated. -/
def orderSetGroup (o : Order) (s : State) : State × OrderResult :=
  match indexBelow 4 o.index.toNat with
  | none => (s, .refused .badIndex)
  | some g =>
    let guard := fieldAt o.p1 0 16
    let slew := fieldAt o.p1 16 16
    let guardC := clampNat 0 255 guard
    let slewC := clampNat 1 80 slew
    ((s.modGroup g (fun x => { x with guard := guardC, slew := slewC })).reEvaluate g .setGroup [],
      doneOr (guardC != guard || slewC != slew))

end Sys2Proof.Machine
end

