-- ==== Sys2Proof/Machine/ControlChannel.lean ====
section
/-! DEFINITION. The control channel of a link (1.3): tags, the transmit and pending queues, SETUP, and the completion of requests. -/

namespace Sys2Proof.Machine

open Sys2Proof

/-- R19: the lowest free tag. -/
def Manager.freeTag (m : Manager) : Option Tag := allTags.find? (fun t => m.outstanding[t].isNone)

/-- R19: request r takes tag t and enters the transmit queue behind every message already in it. -/
def Manager.giveTag (m : Manager) (t : Tag) (r : Request) : Manager :=
  { m with outstanding := m.outstanding.set t (some { request := r, sentIn := none }), txQueue := m.txQueue ++ [.request t r] }

/-- Whether a request is a PLAN. -/
def Request.isPlan : Request → Bool
  | .plan .. => true
  | .query .. => false

/-- R19, R21: freed tags go to the pending requests, lowest tag first, in pending-queue order. -/
def Manager.giveFreedTags (m : Manager) : Manager :=
  allTags.foldl (fun m t =>
    if m.outstanding[t].isNone then
      match m.pendingQueue with
      | [] => m
      | r :: rest => { m with pendingQueue := rest }.giveTag t r
    else m) m

/-- R20: the pending queue with PLAN r added: in place of a waiting PLAN, else at the head, dropping the tail of a full queue. -/
def placePlan (q : List Request) (r : Request) : List Request :=
  if q.any Request.isPlan then q.map (fun x => if x.isPlan then r else x)
  else r :: (if q.length < 8 then q else q.dropLast)

/-- R20: the request a PLAN arriving at the full queue q removes. -/
def planDrops (q : List Request) : Option Request :=
  if q.any Request.isPlan then none else if q.length < 8 then none else q.getLast?

/-- The QUERY_DONE of a query request (R23); a PLAN posts none. -/
def State.queryDone (s : State) (l : LinkIx) (r : Request) (outcome : QueryOutcome) (data : BitVec 32) : State :=
  match r with
  | .query item orderTag => s.notify (.queryDone l item outcome orderTag data)
  | .plan .. => s

/-- R19, R20, R23: a request is issued on link l: it takes the lowest free tag, or waits in the pending queue. -/
def State.issueRequest (s : State) (l : LinkIx) (r : Request) : State :=
  match (s.link l).mgr.freeTag with
  | some t => s.modMgr l (fun m => m.giveTag t r)
  | none =>
    if r.isPlan then
      let q := (s.link l).mgr.pendingQueue
      let t := s.modMgr l (fun m => { m with pendingQueue := placePlan m.pendingQueue r })
      match planDrops q with
      | some x => t.queryDone l x .aborted 0
      | none => t
    else s.modMgr l (fun m => { m with pendingQueue := m.pendingQueue ++ [r] })

/-- Whether a message is a SETUP. -/
def DownMsg.isSetup : DownMsg → Bool
  | .setup _ => true
  | _ => false

/-- R24: the SETUP of a link's settings as they stand. -/
def Settings.toSetup (x : Settings) : Setup := { zone := x.zone, group := x.group, power := x.power }

/-- R24: a SETUP enters the transmit queue, or takes the place of one already waiting there. -/
def placeSetup (q : List DownMsg) (x : Setup) : List DownMsg :=
  if q.any DownMsg.isSetup then q.map (fun m => if m.isSetup then .setup x else m) else q ++ [.setup x]

/-- R24: the link manager issues a SETUP on link l. -/
def State.issueSetup (s : State) (l : LinkIx) : State :=
  s.modMgr l (fun m => { m with txQueue := placeSetup m.txQueue (s.link l).settings.toSetup })

/-- Tag t of link l becomes free (R19, R21, R22). -/
def State.freeTag (s : State) (l : LinkIx) (t : Tag) : State :=
  s.modMgr l (fun m => { m with outstanding := m.outstanding.set t none })

/-- R15 step 1: every outstanding request in ascending tag order, then every pending entry from head to tail, completes LINK_DOWN;
the transmit queue is emptied. -/
def State.completeAllDown (s : State) (l : LinkIx) : State :=
  let held := allTags.filterMap (fun t => ((s.link l).mgr.outstanding[t]).map (fun o => o.request))
  let t := (held ++ (s.link l).mgr.pendingQueue).foldl (fun s r => s.queryDone l r .linkDown 0) s
  t.modMgr l (fun m => { m with outstanding := Vector.replicate 4 none, pendingQueue := [], txQueue := [], leaving := [],
                                markNext := none })

/-- R10: every entry of the pending queue is removed; queries complete ABORTED in queue order. -/
def State.abortPending (s : State) (l : LinkIx) : State :=
  let t := (s.link l).mgr.pendingQueue.foldl (fun s r => s.queryDone l r .aborted 0) s
  t.modMgr l (fun m => { m with pendingQueue := [] })

/-- R21: whether a request sent in block `sent` has reached its deadline by block `now`. -/
def deadlineReached (now sent : Seq16) : Bool := decide (40 ≤ (now - sent).toNat)

/-- R21: the tags of link l whose deadline has been reached, in ascending order. -/
def State.expiredTags (s : State) (l : LinkIx) : List Tag :=
  allTags.filter (fun t => match (s.link l).mgr.outstanding[t] with
    | some o => (match o.sentIn with
      | some b => deadlineReached s.time.block b
      | none => false)
    | none => false)

end Sys2Proof.Machine
end

