-- ==== Sys2Proof/Machine/Uplink.lean ====
section
/-! DEFINITION. The uplink combiner (chapter 8): reception, delay, gates, the sum, the work list and its postings. -/

namespace Sys2Proof.Machine

open Sys2Proof

/-! ## Reception (8.2) -/

/-- A received block opened "with zeros, not yet taken" (R137). -/
def RxBlock.fresh : RxBlock := { samples := [], taken := false, valid := false }

/-- R60, R139: a received block from before the link's entry to ACTIVE: its samples are zero, whatever frame arrives for it later. -/
def RxBlock.beforeEntry : RxBlock := { samples := [], taken := true, valid := false }

/-- R60, R137: the received history a link begins with on entry to ACTIVE. `owed` says that the block work of the boundary it enters at
is still to be taken, so that the newest block is still the one that ends there. -/
def RxHistory.entered (owed : Bool) : RxHistory :=
  { oldest := .beforeEntry, middle := .beforeEntry, newest := if owed then .beforeEntry else .fresh }

/-- R137: at a block boundary the oldest block is discarded and the block that begins there is opened. -/
def RxHistory.advance (h : RxHistory) : RxHistory := { oldest := h.middle, middle := h.newest, newest := .fresh }

/-- R138: a frame taken for a block: an errored frame poisons it, an unerrored one fills it and makes it valid; a block already taken
keeps what it has. -/
def RxBlock.take (b : RxBlock) (f : UplinkFrame) : RxBlock :=
  if b.taken then b
  else if f.errored then { samples := [], taken := true, valid := false }
  else { samples := f.samples, taken := true, valid := true }

/-- R138: a frame numbered p or p-1 during period p is taken for its block; any other number changes nothing. -/
def RxHistory.take (h : RxHistory) (p : Seq16) (f : UplinkFrame) : RxHistory :=
  if f.number = p then { h with newest := h.newest.take f }
  else if f.number = p - 1 then { h with middle := h.middle.take f }
  else h

/-- R138: the combiner takes a frame of a link in ACTIVE. -/
def State.takeSamples (s : State) (l : LinkIx) (f : UplinkFrame) : State :=
  if (s.link l).mgr.state = .active then
    s.modLink l (fun x => { x with rx := x.rx.map (fun h => h.take s.period f) })
  else s

/-! ## Delay (3.4, R59, R60, R139) -/

/-- R59: the interpolation between two neighbouring samples at r eightieths of a sample. -/
def interpolate (r : Nat) (newer older : Int) : Int := ((80 - (r : Int)) * newer + (r : Int) * older + 40) / 80

/-- Sample `pos` of a lane counted from the start of a block, negative positions reaching into the block before it. -/
def laneSample (before now : Samples) (lane : Nat) (pos : Int) : Word :=
  if 0 ≤ pos then sampleAt now (32 * pos.toNat + lane) else sampleAt before (32 * (pos + 1600).toNat + lane)

/-- R59, R139: sample j of a lane of a block delayed by k steps. -/
def delayedSample (before now : Samples) (k lane j : Nat) : Word :=
  onComponents (interpolate (k % 80))
    (laneSample before now lane ((j : Int) - (k / 80 : Nat)))
    (laneSample before now lane ((j : Int) - (k / 80 : Nat) - 1))

/-- The (sample, lane) places of a delayed block that a listed sample at `pos` of `lane` can reach, as indices of the service's
lanes `first ≤ lane < first + w`, coded `w × sample + lane - first`. -/
def reachedBy (q first w : Nat) (pos : Int) (lane : Nat) : List Nat :=
  if first ≤ lane ∧ lane < first + w then
    ([pos + q, pos + q + 1].filter (fun j => decide (0 ≤ j) && decide (j < 1600))).map (fun j => w * j.toNat + (lane - first))
  else []

/-- R139: a link's delayed block as the w lanes from `first`, word n holding lane n mod w, sample n div w (R64). -/
def delayedBlock (before now : Samples) (k first w : Nat) : Samples :=
  let q := k / 80
  let places := (before.map (fun e => reachedBy q first w ((e.1 / 32 : Nat) - 1600) (e.1 % 32))).flatten ++
    (now.map (fun e => reachedBy q first w (e.1 / 32 : Nat) (e.1 % 32))).flatten
  buildSamples places (fun n => delayedSample before now k (first + n % w) (n / w))

/-! ## Gates (8.4) -/

/-- R143: a gate record as created. -/
def Gate.fresh : Gate := { energy := 0, floor := 4294967295, isOpen := false, closeCount := 0 }

/-- R144: the mean power of a block of w lanes. -/
def blockEnergy (block : Samples) (w : Nat) : Nat :=
  (block.foldl (fun acc e => acc + ((sampleI e.2) ^ 2 + (sampleQ e.2) ^ 2).toNat) 0) / (1600 * w)

/-- R145 step 1: the floor falls to a lower energy. -/
def Gate.floorFall (g : Gate) (e : Nat) : Gate := { g with energy := e, floor := if e < g.floor then e else g.floor }

/-- R145 step 2: the gate decision with hold h. -/
def Gate.decision (g : Gate) (e h : Nat) : Gate :=
  if g.isOpen then
    if e ≤ 2 * g.floor then
      if h ≤ g.closeCount + 1 then { g with isOpen := false, closeCount := 0 }
      else { g with closeCount := g.closeCount + 1 }
    else { g with closeCount := 0 }
  else if e > 4 * g.floor then { g with isOpen := true, closeCount := 0 }
  else g

/-- R145 step 3: the floor of a closed gate creeps up. -/
def Gate.floorRise (g : Gate) (e : Nat) : Gate :=
  if !g.isOpen && g.floor ≤ e then { g with floor := min e (g.floor + g.floor / 256 + 1) } else g

/-- R145: the update of a present contributor's gate record by energy e with gate hold h. -/
def Gate.update (g : Gate) (e h : Nat) : Gate := ((g.floorFall e).decision e h).floorRise e

/-- R143: the gate records of link l for the ring services of a plan: those that exist are kept, the others created. -/
def State.createGates (s : State) (l : LinkIx) (plan : List Entry) : State :=
  (carriedOf plan).foldl (fun s v =>
    if (s.service v).ring.isSome then
      s.modLink l (fun x => { x with gates := x.gates.set v (some ((x.gates[v]).getD Gate.fresh)) })
    else s) s

/-- R137, R143: link l enters ACTIVE: its received history begins and its gate records are created. -/
def State.openUplink (s : State) (l : LinkIx) : State :=
  (s.modLink l (fun x => { x with rx := some (.entered s.time.blockOwed), gates := Vector.replicate 24 none })).createGates l
    (s.planInForce (s.link l).settings.zone)

/-- R137, R143: link l leaves ACTIVE: its received history and gate records are discarded. -/
def State.closeUplink (s : State) (l : LinkIx) : State :=
  s.modLink l (fun x => { x with rx := none, gates := Vector.replicate 24 none })

/-- R143: after block k is combined, the records of services in neither the plan of block k+1 nor that of the block that begins now are
discarded. -/
def State.pruneGates (s : State) (next : BlockRecord) : State :=
  s.forLinks (fun s l =>
    let z := (s.link l).settings.zone
    s.modLink l (fun x => { x with gates := Vector.ofFn (fun v : Fin 24 =>
      if (entryFor next.plans[z] v).isSome || (entryFor (s.planInForce z) v).isSome then x.gates[v] else none) }))

/-! ## Combining (8.3, 8.5) -/

/-- R141: the expected contributors of block k of service v, with each link's first lane, in ascending link index. -/
def expectedOf (r : BlockRecord) (v : ServiceIx) : List (LinkIx × Nat) :=
  allLinks.filterMap (fun l =>
    match r.launched[l] with
    | some z => (entryFor r.plans[z] v).map (fun e => (l, e.first))
    | none => none)

/-- R142: whether an expected contributor is present at the combine point. -/
def State.isPresent (s : State) (v : ServiceIx) (l : LinkIx) : Bool :=
  (s.link l).mgr.state == .active && ((s.link l).gates[v]).isSome && !(s.link l).mgr.wires[wireIx .feeder] &&
    (match (s.link l).rx with
     | some h => h.middle.valid
     | none => false)

/-- R139: the delayed block k of link l for w lanes from `first`. -/
def State.contribution (s : State) (r : BlockRecord) (l : LinkIx) (first w : Nat) : Samples :=
  match (s.link l).rx with
  | some h => delayedBlock h.oldest.samples h.middle.samples r.applied[l] first w
  | none => []

/-- R144, R145: the gate record of (l, v) updated by the energy of the link's delayed block. -/
def State.updateGate (s : State) (v : ServiceIx) (l : LinkIx) (energy : Nat) : State :=
  s.modLink l (fun x => { x with gates := x.gates.set v ((x.gates[v]).map (fun g => g.update energy x.settings.gateHold)) })

/-- R146: whether the gate of (l, v) is forced for block k. -/
def State.forced (s : State) (r : BlockRecord) (v : ServiceIx) (l : LinkIx) : Bool :=
  (s.service v).bypass || ((s.service v).kind == .rescue && r.incident[(s.link l).settings.zone])

/-- R146: whether a present contributor is counted open. -/
def State.countedOpen (s : State) (r : BlockRecord) (v : ServiceIx) (l : LinkIx) : Bool :=
  s.forced r v l || (match (s.link l).gates[v] with
    | some g => g.isOpen
    | none => false)

/-- R147: the sum of one component over the open contributors (gain, component), before the clamp. -/
def gainSum (xs : List (Nat × Int)) : Int := (xs.foldl (fun acc x => acc + (x.1 : Int) * x.2) 0 + 8192) / 16384

/-- R147: the clamp to a signed 16-bit component. -/
def saturate (y : Int) : Int := clampInt (-32768) 32767 y

/-- R147: the combined sample n of the open contributors (gain, delayed block). -/
def combinedSample (xs : List (Nat × Samples)) (n : Nat) : Word :=
  packSample (saturate (gainSum (xs.map (fun x => (x.1, sampleI (sampleAt x.2 n))))))
    (saturate (gainSum (xs.map (fun x => (x.1, sampleQ (sampleAt x.2 n))))))

/-- R147: the components of combined sample n that the clamp changes. -/
def clipsAt (xs : List (Nat × Samples)) (n : Nat) : Nat :=
  let i := gainSum (xs.map (fun x => (x.1, sampleI (sampleAt x.2 n))))
  let q := gainSum (xs.map (fun x => (x.1, sampleQ (sampleAt x.2 n))))
  (if saturate i = i then 0 else 1) + (if saturate q = q then 0 else 1)

/-- The indices at which some contributor holds a sample, each once. -/
def heldIndices (xs : List (Nat × Samples)) : List Nat :=
  (buildSamples ((xs.map (fun x => x.2.map (fun e => e.1))).flatten) (fun _ => 1)).map (fun e => e.1)

/-- What combining block k of a service comes to: its header fields and samples (R147). -/
def State.combined (s : State) (r : BlockRecord) (v : ServiceIx) (k : Seq16) (expected present : List (LinkIx × Nat)) : WorkBlock :=
  let opened := present.filter (fun c => s.countedOpen r v c.1)
  let xs := opened.map (fun c => ((s.link c.1).settings.gain, s.contribution r c.1 c.2 (s.service v).width))
  let held := heldIndices xs
  { service := v
    header := { seq := k, expected := expected.length, missing := expected.length - present.length, opened := opened.length,
                clips := (held.map (clipsAt xs)).sum, droppedBefore := (s.service v).droppedBefore,
                empty := expected.isEmpty, isPartial := expected.length != present.length }
    words := buildSamples held (combinedSample xs)
    handed := 0 }

/-- R149: block k of service v joins the work list. -/
def State.appendBlock (s : State) (b : WorkBlock) : State :=
  let t : State := { s with combiner := { s.combiner with workList := s.combiner.workList ++ [b] } }
  t.modService b.service (fun x => { x with
    droppedBefore := 0
    lastAppended := some b.header.seq
    sums := { x.sums with
      appended := bump16 x.sums.appended
      clips := bumpBy16 x.sums.clips b.header.clips
      partials := if b.header.isPartial then bump16 x.sums.partials else x.sums.partials } })

/-- R149: block k of service v is dropped. -/
def State.dropBlock (s : State) (v : ServiceIx) : State :=
  s.modService v (fun x => { x with droppedBefore := bump16 x.droppedBefore, sums := { x.sums with dropped := bump16 x.sums.dropped } })

/-- R140 to R149: service v's share of the combine point of block k, whose block record is r. -/
def State.combineService (s : State) (r : BlockRecord) (k : Seq16) (v : ServiceIx) : State :=
  if r.enabled[v] && (s.service v).state == .enabled && (s.service v).ring.isSome then
    let expected := expectedOf r v
    let present := expected.filter (fun c => s.isPresent v c.1)
    let t := present.foldl (fun s c =>
      s.updateGate v c.1 (blockEnergy (s.contribution r c.1 c.2 (s.service v).width) (s.service v).width)) s
    if t.combiner.workList.any (fun b => b.service == v) then t.dropBlock v
    else t.appendBlock (t.combined r v k expected present)
  else s

/-- R140, R143: the combine point taken at the boundary that begins block b: block b-2 is combined and stale gate records discarded. -/
def State.combinePoint (s : State) : State :=
  let t := match s.combiner.prev with
    | some r => s.forServices (fun s v => s.combineService r (s.time.block - 2) v)
    | none => s
  match s.combiner.now with
  | some n => t.pruneGates n
  | none => t

/-- R137: the received histories move on by one block. -/
def State.advanceHistories (s : State) : State :=
  s.forLinks (fun s l => s.modLink l (fun x => { x with rx := x.rx.map RxHistory.advance }))

/-- R137: the record of the block that begins at the present boundary, once slew, launch and selection have been taken. -/
def State.newRecord (s : State) : BlockRecord :=
  { plans := Vector.ofFn (fun z : Fin 8 => s.planInForce z)
    applied := Vector.ofFn (fun l : Fin 16 => (s.link l).align.k)
    incident := Vector.ofFn (fun z : Fin 8 => (s.zone z).incident)
    launched := Vector.ofFn (fun l : Fin 16 => if (s.link l).mgr.state = .active then some (s.link l).settings.zone else none)
    enabled := Vector.ofFn (fun v : Fin 24 => (s.service v).state == .enabled) }

/-- R137: the block records after the record of the block that begins now is made. -/
def State.pushRecord (s : State) : State :=
  { s with combiner := { s.combiner with prev := s.combiner.now, now := some s.newRecord } }

/-! ## Posting (8.6) -/

/-- 10.5, Uplink block header: the eight words. -/
def UplinkHeader.words (h : UplinkHeader) : List PostWord :=
  [.bits ((BitVec.ofNat 14 0 ++ BitVec.ofBool h.isPartial ++ BitVec.ofBool h.empty) ++ h.seq),
   .bits (BitVec.ofNat 8 0 ++ BitVec.ofNat 8 h.opened ++ BitVec.ofNat 8 h.missing ++ BitVec.ofNat 8 h.expected),
   .bits (BitVec.ofNat 32 (h.clips % 65536)), .bits (BitVec.ofNat 32 (h.droppedBefore % 65536)),
   .bits 0, .bits 0, .bits 0, .bits 0]

/-- R148: the byte address of block k in a ring of a service of width w. -/
def ringBlockAddr (ring : Area) (w : Nat) (k : Seq16) : Nat := ring.base + (k.toNat % ring.blocks) * blockBytes w

/-- R148: posting i of a combined block: 200 × w postings of sample words, then the header. -/
def WorkBlock.posting (b : WorkBlock) (ring : Area) (w i : Nat) : Posting :=
  let at0 := ringBlockAddr ring w b.header.seq
  if i < 200 * w then
    { producer := .combiner, addr := at0 + 32 + 32 * i,
      words := [0, 1, 2, 3, 4, 5, 6, 7].map (fun j => PostWord.bits (sampleAt b.words (8 * i + j))) }
  else { producer := .combiner, addr := at0, words := b.header.words }

/-- R149: the posting the combiner hands over next, if it has one. -/
def State.combinerPosting (s : State) : Option Posting :=
  match s.combiner.workList with
  | [] => none
  | b :: _ => (s.service b.service).ring.map (fun ring => b.posting ring (s.service b.service).width b.handed)

/-- R149: the work list once the next posting of its oldest block has been enqueued; a block leaves when its header has. -/
def State.combinerHanded (s : State) : State :=
  match s.combiner.workList with
  | [] => s
  | b :: rest =>
    { s with combiner := { s.combiner with workList :=
      if b.handed < 200 * (s.service b.service).width then { b with handed := b.handed + 1 } :: rest else rest } }

/-- R150: a block begun before a disable of service v and not yet combined is not combined (log 38). -/
def BlockRecord.withdraw (r : BlockRecord) (v : ServiceIx) : BlockRecord := { r with enabled := r.enabled.set v false }

/-- R150: the combiner once service v is disabled: its block leaves the work list, and its blocks already begun are not combined. -/
def Combiner.disable (c : Combiner) (v : ServiceIx) : Combiner :=
  { prev := c.prev.map (fun r => r.withdraw v), now := c.now.map (fun r => r.withdraw v),
    workList := c.workList.filter (fun b => b.service != v) }

/-- R150: DISABLE_SERVICE at the combiner: besides, dropped-before is set to 0 and the superframe sums are marked disabled. -/
def State.disableUplink (s : State) (v : ServiceIx) : State :=
  let t : State := { s with combiner := s.combiner.disable v }
  t.modService v (fun x => { x with droppedBefore := 0, sums := { x.sums with disabled := true } })

/-- R151: service v's UPLINK notice, if it owes one, and its sums cleared. -/
def State.reportUplink (s : State) (v : ServiceIx) : State :=
  let sums := (s.service v).sums
  let t := if sums.dropped ≠ 0 ∨ sums.clips ≠ 0 ∨ sums.disabled then s.notify (.uplink v sums) else s
  t.modService v (fun x => { x with sums := .zero })

end Sys2Proof.Machine
end

