-- ==== Sys2Proof/Machine/Streams.lean ====
section
/-! DEFINITION. The stream unit (chapter 4): staging slots, capture and commit, launch, STARVED, and the STREAM reports. The orders
that create and discard the records are in Services.lean. -/

namespace Sys2Proof.Machine

open Sys2Proof

/-- The six stream counters by name (R63). -/
inductive CounterName where
  | underrun | stale | early | misplaced | duplicate | lateWrite
deriving DecidableEq, Repr

/-- One counter one higher, held at 65,535 (R63). -/
def Counters.bump (c : Counters) (n : CounterName) : Counters :=
  match n with
  | .underrun => { c with underrun := bump16 c.underrun }
  | .stale => { c with stale := bump16 c.stale }
  | .early => { c with early := bump16 c.early }
  | .misplaced => { c with misplaced := bump16 c.misplaced }
  | .duplicate => { c with duplicate := bump16 c.duplicate }
  | .lateWrite => { c with lateWrite := bump16 c.lateWrite }

/-- The counter of a name. -/
def Counters.get (c : Counters) (n : CounterName) : Nat :=
  match n with
  | .underrun => c.underrun
  | .stale => c.stale
  | .early => c.early
  | .misplaced => c.misplaced
  | .duplicate => c.duplicate
  | .lateWrite => c.lateWrite

/-- R80: the increments of a stream added to those of a disabled report. That a sum above 65,535, the end of R70's range, is held there is
the model's: R80 says only 'added' (DESIGN CHOICE, log 51). -/
def Counters.add (c d : Counters) : Counters :=
  { underrun := bumpBy16 c.underrun d.underrun, stale := bumpBy16 c.stale d.stale, early := bumpBy16 c.early d.early,
    misplaced := bumpBy16 c.misplaced d.misplaced, duplicate := bumpBy16 c.duplicate d.duplicate,
    lateWrite := bumpBy16 c.lateWrite d.lateWrite }

/-- R71: a slot opened for a sequence. -/
def Slot.opened (seq : Seq16) : Slot := { seq := seq, committed := false, words := [] }

/-- R70: a stream record created during period b. DESIGN CHOICE (log 43): that STARVED is set at the creation is recorded as no change
of it. -/
def StreamRec.created (b : Seq16) (n : StreamName) : StreamRec :=
  { launch := none, open1 := .opened (b + 1), open2 := .opened (b + 2), starved := n != .normal, underrunRun := 0,
    increments := .zero, starvedSet := false, starvedCleared := false }

/-- A counter of stream n of a service goes up by 1, in its totals and in its superframe increments; one held at 65,535 goes up no
more, and neither does what it has gone up by (R63, R70, R74). -/
def Service.count (v : Service) (n : StreamName) (c : CounterName) : Service :=
  if (v.totals.get n).get c < 65535 then
    { v with
      totals := v.totals.set n ((v.totals.get n).bump c)
      streams := v.streams.set n ((v.streams.get n).map (fun r => { r with increments := r.increments.bump c })) }
  else v

/-! ## Capture and commit (4.3) -/

/-- R70: the index of a sequence in an area of `blocks` blocks. -/
def sequenceIndex (seq : Seq16) (blocks : Nat) : Nat := seq.toNat % blocks

/-- R73: a slot with a word write captured. -/
def Slot.capture (x : Slot) (n : Nat) (w : BusWord) : Slot :=
  { x with words := setSample x.words n (mergeBytes (sampleAt x.words n) w.data w.enables) }

/-- R73, R75: a sample word write at block index i of stream n, which has `blocks` blocks. -/
def Service.takeSample (v : Service) (n : StreamName) (blocks i word : Nat) (w : BusWord) : Service :=
  match v.streams.get n with
  | none => v
  | some r =>
    let at1 := sequenceIndex r.open1.seq blocks == i
    let at2 := sequenceIndex r.open2.seq blocks == i
    if at1 && !r.open1.committed then { v with streams := v.streams.set n (some { r with open1 := r.open1.capture word w }) }
    else if at2 && !r.open2.committed then { v with streams := v.streams.set n (some { r with open2 := r.open2.capture word w }) }
    else if at1 || at2 then v.count n .lateWrite
    else v

/-- R74: a commit word write of sequence seq at block index i of stream n, taken during period b. -/
def Service.takeCommit (v : Service) (n : StreamName) (b : Seq16) (blocks i : Nat) (seq : Seq16) : Service :=
  match v.streams.get n with
  | none => v
  | some r =>
    let d := (seq - b).toNat
    if d = 1 ∨ d = 2 then
      let x := if d = 1 then r.open1 else r.open2
      if x.committed then v.count n .duplicate
      else if i = sequenceIndex seq blocks then
        let y := { x with committed := true }
        { v with streams := v.streams.set n (some (if d = 1 then { r with open1 := y } else { r with open2 := y })) }
      else v.count n .misplaced
    else if d = 0 ∨ 32768 ≤ d then v.count n .stale
    else v.count n .early

/-- R72: one word of a host write to the stream area of stream n, at a byte address in it. -/
def Service.takeWord (v : Service) (n : StreamName) (b : Seq16) (addr : Nat) (w : BusWord) : Service :=
  match v.areas.get n with
  | none => v
  | some a =>
    let off := addr - a.base
    let i := off / blockBytes v.width
    let pos := (off % blockBytes v.width) / 4
    if pos = 0 then
      if w.enables.getLsbD 0 && w.enables.getLsbD 1 then v.takeCommit n b a.blocks i (w.data.extractLsb' 0 16) else v
    else if pos < 8 then v
    else v.takeSample n a.blocks i (pos - 8) w

/-! ## Launch (4.4) -/

/-- R77: the record once block b has been launched from its first open slot. -/
def StreamRec.advance (r : StreamRec) (b : Seq16) : StreamRec :=
  { r with
    launch := some (if r.open1.committed then r.open1 else { r.open1 with words := [] })
    open1 := r.open2
    open2 := .opened (b + 2) }

/-- R77, R78: the launch of block b of stream n. -/
def Service.launchStream (v : Service) (b : Seq16) (n : StreamName) : Service :=
  match v.streams.get n with
  | none => v
  | some r =>
    let x := r.advance b
    if n = .normal then
      let y := { v with streams := v.streams.set n (some x) }
      if r.open1.committed then y else y.count n .underrun
    else if r.open1.committed then
      { v with streams := v.streams.set n (some { x with
        starved := false, underrunRun := 0, starvedCleared := x.starvedCleared || r.starved }) }
    else if r.starved then { v with streams := v.streams.set n (some x) }
    else
      let full := decide (3 ≤ r.underrunRun + 1)
      ({ v with streams := v.streams.set n (some { x with
        starved := full, underrunRun := if full then 0 else r.underrunRun + 1, starvedSet := x.starvedSet || full }) }).count n .underrun

/-- R77: the launch of block b of every stream of an ENABLED service. -/
def Service.launchAll (v : Service) (b : Seq16) : Service :=
  if v.state = .enabled then allStreams.foldl (fun v n => v.launchStream b n) v else v

/-- R77: the launch of the block that begins at the present boundary. -/
def State.launchStreams (s : State) : State := s.forServices (fun s v => s.modService v (fun x => x.launchAll s.time.block))

/-- R79: whether stream n launched the present block committed. -/
def Service.launchedCommitted (v : Service) (n : StreamName) : Bool :=
  match v.streams.get n with
  | some r => (match r.launch with
    | some x => x.committed
    | none => false)
  | none => false

/-- R79: the sample words of the block stream n launched last. -/
def Service.launchedWords (v : Service) (n : StreamName) : Samples :=
  match v.streams.get n with
  | some r => (match r.launch with
    | some x => x.words
    | none => [])
  | none => []

/-! ## Reports (R80) -/

/-- What a STREAM notice says of a stream with a record. -/
def StreamRec.toReport (r : StreamRec) (totals : Counters) : StreamReport :=
  { increments := r.increments, totals := totals, starved := r.starved, starvedSet := r.starvedSet,
    starvedCleared := r.starvedCleared }

/-- The report of each stream of a service that has a record. -/
def Service.reports (v : Service) : PerStream (Option StreamReport) :=
  { normal := v.streams.normal.map (fun r => r.toReport v.totals.normal)
    a := v.streams.a.map (fun r => r.toReport v.totals.a)
    b := v.streams.b.map (fun r => r.toReport v.totals.b) }

/-- Whether a stream record has something to report (R80). -/
def StreamRec.hasNews (r : StreamRec) : Bool := r.increments != .zero || r.starvedSet || r.starvedCleared

/-- A stream record once reported. -/
def StreamRec.reported (r : StreamRec) : StreamRec := { r with increments := .zero, starvedSet := false, starvedCleared := false }

/-- R80: a second disable before the report adds to it: increments and changes are added, totals and STARVED replaced. -/
def mergeReport (old new : Option StreamReport) : Option StreamReport :=
  match old, new with
  | none, x => x
  | x, none => x
  | some o, some n => some { n with increments := o.increments.add n.increments, starvedSet := o.starvedSet || n.starvedSet,
                                    starvedCleared := o.starvedCleared || n.starvedCleared }

/-- R80: the disabled report a DISABLE_SERVICE leaves. -/
def Service.disabledReport (v : Service) : PerStream (Option StreamReport) :=
  match v.report with
  | none => v.reports
  | some o => { normal := mergeReport o.normal v.reports.normal, a := mergeReport o.a v.reports.a, b := mergeReport o.b v.reports.b }

/-- R80: service v's STREAM notices of a superframe boundary: first the DISABLED one, then that of its stream records. -/
def State.reportStreams (s : State) (v : ServiceIx) : State :=
  let t := match (s.service v).report with
    | some r => (s.notify (.stream v true r)).modService v (fun x => { x with report := none })
    | none => s
  let x := t.service v
  if x.state = .enabled ∧ allStreams.any (fun n => match x.streams.get n with
      | some r => r.hasNews
      | none => false) then
    (t.notify (.stream v false x.reports)).modService v (fun x => { x with streams :=
      { normal := x.streams.normal.map StreamRec.reported, a := x.streams.a.map StreamRec.reported,
        b := x.streams.b.map StreamRec.reported } })
  else t

end Sys2Proof.Machine
end

