-- ==== Sys2Proof/Machine/Lanes.lean ====
section
/-! DEFINITION. Stream selection (7.3), lane assembly (4.5), the downlink delay lines (3.4) and the frames of the links (R3, R18). -/

namespace Sys2Proof.Machine

open Sys2Proof

/-! ## Selection -/

/-- R131: the stream selected for service v in zone z, whose plan in force is `plan`. -/
def State.selects (s : State) (z : ZoneIx) (plan : List Entry) (v : ServiceIx) : Option StreamName :=
  let x := s.service v
  if (entryFor plan v).isNone || x.state != .enabled then none
  else match s.ownerChannel z with
    | some c => (match x.kind, x.streams.get c.stream with
      | .broadcast, some r => if r.starved then some .normal else some c.stream
      | _, _ => some .normal)
    | none => some .normal

/-- R133: the stream the present block is crossfaded from, where the selection changes from `old` to `new`. -/
def Service.fades (v : Service) (crossfade : Bool) (old new : Option StreamName) : Option StreamName :=
  match old, new with
  | some o, some n => if o ≠ n ∧ crossfade ∧ v.launchedCommitted o ∧ v.launchedCommitted n then some o else none
  | _, _ => none

/-- R131, R133: the selection of the present boundary in zone z. -/
def State.selectZone (s : State) (z : ZoneIx) : State :=
  let plan := s.planInForce z
  s.modZone z (fun x => { x with
    selection := Vector.ofFn (fun v : Fin 24 => s.selects z plan v)
    fadeFrom := Vector.ofFn (fun v : Fin 24 => (s.service v).fades x.crossfade x.selection[v] (s.selects z plan v)) })

/-- R131: the selection of the present boundary in every zone. -/
def State.selectAll (s : State) : State := s.forZones State.selectZone

/-! ## Lane assembly -/

/-- R133: the crossfade of one component at sample j. -/
def crossfade (j : Nat) (old new : Int) : Int := (old * (1600 - (j : Int)) + new * (j : Int) + 800) / 1600

/-- R81, R133: sample word n of the stream a zone's lanes of service v carry, for width w. -/
def Service.laneWord (v : Service) (selected fadeFrom : Option StreamName) (w n : Nat) : Word :=
  match selected with
  | none => 0
  | some new => (match fadeFrom with
    | none => sampleAt (v.launchedWords new) n
    | some old => onComponents (crossfade (n / w)) (sampleAt (v.launchedWords old) n) (sampleAt (v.launchedWords new) n))

/-- The sample words at which a service's selected (and faded) stream launched a sample. -/
def Service.laneIndices (v : Service) (selected fadeFrom : Option StreamName) : List Nat :=
  let of (n : Option StreamName) : List Nat := match n with
    | some n => (v.launchedWords n).map (fun e => e.1)
    | none => []
  of selected ++ of fadeFrom

/-- R81: the 32 undelayed lanes of the present block for zone z: sample j of lane f+i at index `32 × j + f + i`. -/
def State.zoneLanes (s : State) (z : ZoneIx) : Samples :=
  (s.planInForce z).foldl (fun acc e =>
    let v := s.service e.service
    let sel := (s.zone z).selection[e.service]
    let fade := (s.zone z).fadeFrom[e.service]
    (v.laneIndices sel fade).foldl (fun acc n =>
      setSample acc (32 * (n / e.width) + e.first + n % e.width) (v.laneWord sel fade e.width n)) acc) []

/-- R58, R81: the undelayed lanes link l enters for the present block: its zone's in ACTIVE, zeros otherwise. -/
def State.enteredLanes (s : State) (l : LinkIx) : Samples :=
  if (s.link l).mgr.state = .active then s.zoneLanes (s.link l).settings.zone else []

/-- R58: the delay line moves on by a block, keeping the last 205 samples, and enters the new block's lanes. -/
def DelayLine.enter (d : DelayLine) (lanes : Samples) : DelayLine :=
  { now := lanes, before := d.now.filter (fun e => decide (1600 - 205 ≤ e.1 / 32)) }

/-- R59: output sample j of a lane of the frame under way on a link: the delayed sample in ACTIVE, zero otherwise, none where no frame
is sent (R3). -/
def Link.downlinkSample (x : Link) (lane j : Nat) : Option Word :=
  x.mgr.frame.map (fun f => if f.carriesLanes then delayedSample x.line.before x.line.now f.k lane j else 0)

/-! ## Frames -/

/-- R29: the mark a run places in the frame of block b. -/
def RangingRun.markAt (r : RangingRun) (b : Seq16) : Option DownMsg :=
  if h : r.marksSent < 4 then
    if b = r.firstBlock + BitVec.ofNat 16 r.marksSent then some (.mark r.runId (.run ⟨r.marksSent, h⟩)) else none
  else none

/-- R18, R19: the requests among the messages of a frame are sent in block b. -/
def Manager.markSent (m : Manager) (b : Seq16) (msgs : List DownMsg) : Manager :=
  msgs.foldl (fun m x => match x with
    | .request t _ => { m with outstanding := m.outstanding.set t ((m.outstanding[t]).map (fun o => { o with sentIn := some b })) }
    | _ => m) m

/-- R3, R18, R29, R59: link l's frame of the present boundary starts, once the slew step has been taken and the lanes entered. -/
def State.startFrame (s : State) (l : LinkIx) : State :=
  let x := s.link l
  let run := match x.rng.run with
    | some r => r.markAt s.time.block
    | none => none
  let msgs := if x.mgr.state.controlOpen then run.toList ++ x.mgr.markNext.toList ++ x.mgr.leaving else []
  s.modLink l (fun x => { x with
    mgr := { (x.mgr.markSent s.time.block (if x.mgr.state.controlOpen then x.mgr.leaving else [])) with
      leaving := [], markNext := none
      frame := if x.mgr.state = .dark then none
        else some { messages := msgs, carriesLanes := x.mgr.state == .active, k := x.align.k } }
    rng := if run.isSome then { x.rng with run := x.rng.run.map (fun r => { r with marksSent := r.marksSent + 1 }) } else x.rng
    line := x.line.enter (s.enteredLanes l) })

/-- R3: "A transition made at a block boundary governs the frame that starts at that boundary": where the frames of the boundary have
started already, link l's is brought to its new state, with the block record's view of the link. DESIGN CHOICE (log 20): its lanes are
built from the services as they stand now, so one disabled since the launch gives it zeros. -/
def State.regovern (s : State) (l : LinkIx) : State :=
  if s.time.blockOwed then s
  else
    let x := s.link l
    let t := s.modLink l (fun x => { x with
      mgr := { x.mgr with frame := x.mgr.frame.map (fun f =>
        { f with messages := if x.mgr.state.controlOpen then f.messages else [], carriesLanes := x.mgr.state == .active,
                 k := x.align.k }) }
      line := { x.line with now := s.enteredLanes l } })
    { t with combiner := { t.combiner with now := t.combiner.now.map (fun r => { r with
        applied := r.applied.set l x.align.k
        launched := r.launched.set l (if x.mgr.state = .active then some x.settings.zone else none) }) } }

end Sys2Proof.Machine
end

