-- ==== Sys2Proof/Machine/LinkStates.lean ====
section
/-! DEFINITION. The transitions of a link that several units cause (1.2): teardown and FAULT, entry to ACTIVE, departure from it. -/

namespace Sys2Proof.Machine

open Sys2Proof

/-- R15 step 2, R27, R37: the ranging fields after a teardown. -/
def Ranging.tornDown (r : Ranging) : Ranging :=
  { r with run := none, valid := false, trackCount := 0, marker := none, outliers := 0, failures := 0, skipCount := false }

/-- R41: the ranging fields after leaving ACTIVE without a teardown. -/
def Ranging.leftActive (r : Ranging) : Ranging := { r with trackCount := 0, outliers := 0, marker := none, skipCount := false }

/-- R37, R41: the ranging fields on entry to ACTIVE; `owed` says the boundary's superframe work is still to be taken. -/
def Ranging.enteredActive (r : Ranging) (owed : Bool) : Ranging :=
  { r with trackCount := 0, outliers := 0, marker := none, failures := 0, skipCount := owed }

/-- R15 steps 5 and 6: the link manager's fields after a teardown into state `new` (FAULT, or DARK with the laser off). -/
def Manager.tornDown (m : Manager) (new : LinkState) : Manager :=
  { m with state := new, laser := new != .dark, wires := Vector.replicate 4 false, identity := none, erroredRun := 0,
           attachPhase := none, listenPhase := none, attachDue := false, quiesceDue := false }

/-- R13, R14, R15: link l is torn down and enters `new`: LINK_STATE first, then the QUERY_DONE notices of its requests, then any ALIGN. -/
def State.takeDown (s : State) (l : LinkIx) (new : LinkState) (cause : LinkCause) : State :=
  let old := (s.link l).mgr.state
  let s := s.notify (.linkState l old new cause (s.link l).mgr.wires none)
  let s := s.completeAllDown l
  let s := s.modLink l (fun x => { x with mgr := x.mgr.tornDown new, rng := x.rng.tornDown, exchange := none })
  (s.closeUplink l).leaveGroupDown l (old == .active)

/-- R13: link l enters FAULT. -/
def State.fault (s : State) (l : LinkIx) (c : FaultCause) : State := s.takeDown l .fault (.fault c)

/-- R9, R41, R47, R54, R98, R143: link l enters ACTIVE at an accepted switch superframe. -/
def State.enterActive (s : State) (l : LinkIx) : State :=
  let s := s.notify (.linkState l (s.link l).mgr.state .active .planAccepted (Vector.replicate 4 false) none)
  let s := s.modLink l (fun x =>
    { x with mgr := { x.mgr with state := .active }, rng := x.rng.enteredActive s.time.superframeOwed, exchange := none })
  (s.joinGroup l).openUplink l

/-- R9, R10, R41, R47, R48: link l leaves ACTIVE for `new` (JOINING or QUIESCING); `between` is what the entry generates between the
LINK_STATE and the ALIGN (R10). -/
def State.leaveActive (s : State) (l : LinkIx) (new : LinkState) (cause : LinkCause) : State :=
  let s := s.notify (.linkState l (s.link l).mgr.state new cause (Vector.replicate 4 false) none)
  let s := s.modLink l (fun x => { x with mgr := { x.mgr with state := new }, rng := x.rng.leftActive, exchange := none })
  let s := if new = .quiescing then s.abortPending l else s
  (s.closeUplink l).leaveGroup l

end Sys2Proof.Machine
end

