-- ==== Sys2Proof/Machine/Allocation.lean ====
section
/-! DEFINITION. The allocator (chapter 5): admission and placement, replanning and staging, plan exchanges, the switch. -/

namespace Sys2Proof.Machine

open Sys2Proof

/-! ## Admission and placement (5.2) -/

/-- R84: the demand set of zone z in ascending service index. -/
def State.demandSet (s : State) (z : ZoneIx) : List ServiceIx := allServices.filter (s.demands z)

/-- R86 step 1: the demand set in the order of admission: effective class highest first, then RESCUE, BROADCAST, MOBILE, then service
index. -/
def State.sortedDemand (s : State) (z : ZoneIx) : List ServiceIx :=
  ([7, 6, 5, 4, 3, 2, 1, 0].map (fun c =>
    ([Kind.rescue, Kind.broadcast, Kind.mobile].map (fun k =>
      (s.demandSet z).filter (fun v => s.effectiveClass z v == c && (s.service v).kind == k))).flatten)).flatten

/-- R86 step 2: one walk over services with their widths, with `free` lanes: those that fit are taken, and their width subtracted. -/
def walk : Nat → List (ServiceIx × Nat) → List ServiceIx
  | _, [] => []
  | free, (v, w) :: rest => if w ≤ free then v :: walk (free - w) rest else walk free rest

/-- R86: the services admitted to zone z. -/
def State.admitted (s : State) (z : ZoneIx) : List ServiceIx :=
  walk 32 ((s.sortedDemand z).map (fun v => (v, (s.service v).width)))

/-- R86: the new carried set, in ascending service index. -/
def State.carriedSet (s : State) (z : ZoneIx) : List ServiceIx := (s.demandSet z).filter (fun v => (s.admitted z).contains v)

/-- R86: the new shed list, in ascending service index. -/
def State.shedList (s : State) (z : ZoneIx) : List ServiceIx := (s.demandSet z).filter (fun v => !(s.admitted z).contains v)

/-- R87: services with their widths packed on lanes in the order given, from lane `first`. -/
def placeFrom : Nat → List (ServiceIx × Nat) → List Entry
  | _, [] => []
  | first, (v, w) :: rest => { service := v, first := first, width := w } :: placeFrom (first + w) rest

/-- R87: the placement of a carried set given in ascending service index. -/
def State.placement (s : State) (carried : List ServiceIx) : List Entry :=
  placeFrom 0 (carried.map (fun v => (v, (s.service v).width)))

/-! ## Plan exchanges (5.4) -/

/-- R92: the entries of a PLAN request. -/
def State.planItems (s : State) (plan : List Entry) : List PlanItem :=
  plan.map (fun e => { first := e.first, width := e.width, kind := (s.service e.service).kind,
                       radioTag := (s.service e.service).radioTag })

/-- R92: the allocator issues a PLAN for exchange x of link l, offering `plan`; the request becomes the exchange's current one. -/
def State.issuePlan (s : State) (l : LinkIx) (x : Exchange) (plan : List Entry) : State :=
  let serial := (s.link l).planSerial
  let t := s.modLink l (fun y => { y with
    planSerial := serial + 1
    exchange := some { x with current := some serial, standing := .waiting } })
  t.issueRequest l (.plan serial x.m (s.planItems plan))

/-- R94, R96: what a PLAN for a JOINING link of zone z offers: the staged plan and its n, or the current plan three superframes on. -/
def State.offer (s : State) (z : ZoneIx) : BitVec 8 × Seq16 × List Entry :=
  match (s.zone z).staged with
  | some p => (p.planId, p.n, p.entries)
  | none => ((s.zone z).planId, s.time.superframe + 3, (s.zone z).entries)

/-- A JOIN exchange with no PLAN issued yet. -/
def joinExchange (target : BitVec 8) (m : Seq16) (attempts : Nat) : Exchange :=
  { purpose := .join, target := target, m := m, current := none, standing := .waiting, attempts := attempts }

/-- R94, R96: a PLAN is issued for link l's JOIN exchange, with `attempts` failed attempts counted, on its zone's offer. -/
def State.issueJoin (s : State) (l : LinkIx) (attempts : Nat) : State :=
  let o := s.offer (s.link l).settings.zone
  s.issuePlan l (joinExchange o.1 o.2.1 attempts) o.2.2

/-- The links of zone z in a given state, in ascending index. -/
def State.zoneLinks (s : State) (z : ZoneIx) (st : LinkState) : List LinkIx :=
  allLinks.filter (fun l => (s.link l).mgr.state == st && (s.link l).settings.zone == z)

/-- R93: the exchanges the staging of a plan opens and redirects on the links of zone z, in ascending index. -/
def State.openExchanges (s : State) (z : ZoneIx) (p : StagedPlan) : State :=
  s.forLinks (fun s l =>
    if (s.link l).settings.zone = z then
      match (s.link l).mgr.state with
      | .active => s.issuePlan l { purpose := .switch, target := p.planId, m := p.n, current := none, standing := .waiting,
                                   attempts := 0 } p.entries
      | .joining => s.issuePlan l (joinExchange p.planId p.n 0) p.entries
      | _ => s
    else s)

/-- R89: the plan a replan of zone z would stage now. -/
def State.newPlan (s : State) (z : ZoneIx) : StagedPlan :=
  { planId := (s.zone z).planId + 1, entries := s.placement (s.carriedSet z), shed := s.shedList z, n := s.time.superframe + 3 }

/-- R89: the allocator takes a replan of zone z. -/
def State.replan (s : State) (z : ZoneIx) : State :=
  if (s.zone z).staged.isSome then s.modZone z (fun x => { x with deferred := true })
  else if s.carriedSet z = carriedOf (s.zone z).entries then s
  else (s.modZone z (fun x => { x with staged := some (s.newPlan z) })).openExchanges z (s.newPlan z)

/-- R88: the zones of a list replanned in turn. The list is in ascending zone index: R106, R113 step 4 and R129 step 2 say so of changed
zones; for the zones of a service's mask at ENABLE_SERVICE and DISABLE_SERVICE R66, R67 and R88 name no order, and the ascending one is the
model's (DESIGN CHOICE, log 49). -/
def State.replanAll (s : State) (zs : List ZoneIx) : State := zs.foldl State.replan s

/-! ## Completions of PLAN requests -/

/-- How the link manager reports a PLAN request (R95); ABORTED and LINK_DOWN change nothing here and are not reported. -/
inductive PlanReport where
  | accept | refuse | timeout
deriving DecidableEq, Repr

/-- R95, R96: the exchange on link l stands accepted. -/
def Exchange.accept (x : Exchange) : Exchange := { x with standing := .accepted }

/-- R96, R100, R102: a failed attempt of link l's JOIN exchange is counted; the third faults the link. -/
def State.countAttempt (s : State) (l : LinkIx) (x : Exchange) : State :=
  if 3 ≤ x.attempts + 1 then s.fault l .planFail
  else s.setExchange l (some { x with attempts := x.attempts + 1 })

/-- R95, R96, R97: the allocator takes the completion of PLAN request `serial` of link l. -/
def State.planCompleted (s : State) (l : LinkIx) (serial : Nat) (r : PlanReport) : State :=
  match (s.link l).exchange with
  | none => s
  | some x =>
    if x.current ≠ some serial then s
    else match x.purpose, r with
      | _, .accept => s.setExchange l (some x.accept)
      | .switch, _ => s.setExchange l (some { x with standing := .failed })
      | .join, _ => if 3 ≤ x.attempts + 1 then s.fault l .planFail else s.issueJoin l (x.attempts + 1)

/-- R22, R23: the completion of a request by a REPLY with a status and data. -/
def State.completeReply (s : State) (l : LinkIx) (r : Request) (status : ReplyStatus) (data : BitVec 32) : State :=
  match r with
  | .query .. => (match status with
    | .data => s.queryDone l r .data data
    | _ => s.queryDone l r .rejected 0)
  | .plan serial _ _ => s.planCompleted l serial (if status = .accept then .accept else .refuse)

/-- R21: the completion of a request whose deadline expires. -/
def State.completeTimeout (s : State) (l : LinkIx) (r : Request) : State :=
  match r with
  | .query .. => s.queryDone l r .timeout 0
  | .plan serial _ _ => s.planCompleted l serial .timeout

/-- R97, R100, R102 (log 17): whether the current request of an exchange of link l was sent at a boundary before the present one. -/
def State.sentBefore (s : State) (l : LinkIx) (x : Exchange) : Bool :=
  allTags.any (fun t => match (s.link l).mgr.outstanding[t] with
    | some { request := .plan serial _ _, sentIn := some b } => x.current == some serial && b != s.time.block
    | _ => false)

/-! ## The switch (5.5) -/

/-- R99 step 2: an ACTIVE link of a switching zone. -/
def State.switchActive (s : State) (l : LinkIx) : State :=
  match (s.link l).exchange with
  | some { purpose := .switch, standing := .accepted, .. } => s.setExchange l none
  | _ =>
    let z := s.zone (s.link l).settings.zone
    (s.leaveActive l .joining .planNotAccepted).setExchange l (some (joinExchange z.planId (s.time.superframe + 3) 0))

/-- R100: a JOINING link of a switching zone, whose exchange offered the plan switched in. -/
def State.switchJoining (s : State) (l : LinkIx) : State :=
  match (s.link l).exchange with
  | none => s
  | some x =>
    if x.standing = .accepted then s.enterActive l
    else if s.sentBefore l x then s.countAttempt l x
    else s

/-- R99 steps 2 and 3, R100: the links of zone z, in ascending index (log 18). -/
def State.switchLinks (s : State) (z : ZoneIx) : State :=
  s.forLinks (fun s l =>
    if (s.link l).settings.zone = z then
      match (s.link l).mgr.state with
      | .active => s.switchActive l
      | .joining => s.switchJoining l
      | _ => s
    else s)

/-- R99 step 1: the staged plan becomes current. -/
def Zone.switched (x : Zone) (p : StagedPlan) : Zone :=
  { x with planId := p.planId, entries := p.entries, shed := p.shed, staged := none }

/-- R101 step 6: the JOINING links of zone z are given a PLAN on the new current plan, unless step 5 staged one. -/
def State.renewJoins (s : State) (z : ZoneIx) : State :=
  if (s.zone z).staged.isSome then s
  else (s.zoneLinks z .joining).foldl (fun s l => s.issueJoin l (match (s.link l).exchange with
    | some x => x.attempts
    | none => 0)) s

/-- R101 step 5: the deferred replan of zone z. -/
def State.deferredReplan (s : State) (z : ZoneIx) : State :=
  if (s.zone z).deferred then (s.modZone z (fun x => { x with deferred := false })).replan z else s

/-- R143: the gate records of the services the switch adds, on the ACTIVE links of zone z. -/
def State.switchGates (s : State) (z : ZoneIx) : State :=
  (s.zoneLinks z .active).foldl (fun s l => s.createGates l (s.zone z).entries) s

/-- The links whose state differs between two states are brought to it in the frames of the present boundary (R3, R9; log 20). -/
def State.regovernChanged (t s : State) : State :=
  t.forLinks (fun t l => if (t.link l).mgr.state = (s.link l).mgr.state then t else t.regovern l)

/-- R99, R100, R101: zone z switches to plan p. -/
def State.switchZone (s : State) (z : ZoneIx) (p : StagedPlan) : State :=
  let before := s.zoneLinks z .active
  let t := ((s.modZone z (fun x => x.switched p)).switchLinks z).switchGates z
  let sent := before.filter (fun l => (t.link l).mgr.state == .joining)
  let t := t.notify (.planSwitched z p.planId p.entries p.shed sent)
  ((t.deferredReplan z).renewJoins z).regovernChanged s

/-- R99: whether zone z's staged plan switches in at the superframe that has begun last. -/
def State.switchDue (s : State) (z : ZoneIx) : Bool :=
  match (s.zone z).staged with
  | some p => p.n == s.time.superframe
  | none => false

/-- R99, PLAN_SWITCH where it is due. -/
def State.planSwitchIfDue (s : State) (z : ZoneIx) : State :=
  match (s.zone z).staged with
  | some p => if p.n = s.time.superframe then s.switchZone z p else s
  | none => s

/-! ## Joining outside a zone switch (5.6) -/

/-- R102: whether link l's JOIN exchange targets its zone's current plan at the superframe that has begun last. -/
def State.joinDue (s : State) (l : LinkIx) : Bool :=
  (s.link l).mgr.state == .joining && (s.zone (s.link l).settings.zone).staged.isNone &&
    (match (s.link l).exchange with
     | some x => x.purpose == .join && x.m == s.time.superframe
     | none => false)

/-- R102: link l at the superframe of its JOIN exchange. -/
def State.joinSwitch (s : State) (l : LinkIx) : State :=
  match (s.link l).exchange with
  | none => s
  | some x =>
    if x.standing = .accepted then s.enterActive l
    else if s.sentBefore l x then
      if 3 ≤ x.attempts + 1 then s.fault l .planFail else s.issueJoin l (x.attempts + 1)
    else s.issueJoin l x.attempts

/-- R102: every link whose JOIN exchange falls due, in ascending index. -/
def State.joinSwitchAll (s : State) : State :=
  (s.forLinks (fun s l => if s.joinDue l then s.joinSwitch l else s)).regovernChanged s

/-- Whether any link's JOIN exchange falls due. -/
def State.anyJoinDue (s : State) : Bool := allLinks.any s.joinDue

end Sys2Proof.Machine
end

