-- ==== Sys2Proof/Machine/RangingUnit.lean ====
section
/-! DEFINITION. The ranging unit (chapter 2): runs, their outcomes, tracking marks and echoes. -/

namespace Sys2Proof.Machine

open Sys2Proof

/-! ## Runs -/

/-- R28: the ranging fields once a run has started, in the block period `b`, with the link's A and J. -/
def Ranging.startRun (r : Ranging) (cause : RunCause) (b : Seq16) (x : Settings) : Ranging :=
  { r with
    runCounter := r.runCounter + 1
    run := some { runId := r.runCounter + 1, cause := cause, firstBlock := b + 1, marksSent := 0,
                  roundTrips := Vector.replicate 4 none, turn3 := none, latency3 := none, asymmetry := x.asymmetry,
                  jitter := x.jitter }
    outliers := 0
    marker := none }

/-- R28: a run starts on link l. -/
def State.startRun (s : State) (l : LinkIx) (cause : RunCause) : State :=
  s.modRng l (fun r => r.startRun cause s.time.block (s.link l).settings)

/-- R33 steps 1 and 2: eight times the mean one-way delay, from the round-trip sum, TURN3 and A. -/
def rangeX (sum turn : Nat) (a : Int) : Int := (sum : Int) - 4 * turn + 4 * a

/-- R33 steps 3 and 4: D from x. -/
def delayOf (x : Int) : Nat := if x < 0 then 0 else ((x + 4) / 8).toNat

/-- R34: the path, 0 where the sum is negative. -/
def pathOf (d latency : Nat) (c : Int) : Nat := ((d : Int) + latency + c).toNat

/-- The captured round trips of a run. -/
def RangingRun.captured (r : RangingRun) : List Nat := r.roundTrips.toList.filterMap id

/-- R32: the spread of the captured round trips. -/
def RangingRun.spread (r : RangingRun) : Nat := r.captured.foldl max 0 - r.captured.foldl min 65535

/-- R40: the RANGE_RESULT of a run of link l that ended with `outcome`, from the link as it stands after the outcome. -/
def State.rangeResult (s : State) (l : LinkIx) (r : RangingRun) (outcome : RunOutcome) : Notice :=
  let x := s.link l
  let isOk := outcome == .ok
  .rangeResult l r.runId r.cause outcome x.mgr.state r.roundTrips
    (if outcome = .ok ∨ outcome = .jitter then some r.spread else none)
    (if isOk then some x.rng.turn else none) (if isOk then some x.rng.latency else none)
    (if isOk then some x.rng.delay else none) (if isOk then some x.rng.path else none)
    (isOk && x.rng.suspect) x.rng.valid x.rng.failures
    (if outcome = .timeout then some (r.marksSent - 1) else none)

/-- R35, R37, R38: the tracking count restarts at 0 where a run ends in ACTIVE. -/
def Ranging.runEnded (r : Ranging) (inActive : Bool) : Ranging :=
  { r with run := none, trackCount := if inActive then 0 else r.trackCount }

/-- R33, R34, R35 steps 1 to 3: the ranging fields after a run that ended OK. -/
def Ranging.accept (r : Ranging) (run : RangingRun) (c : Int) : Ranging :=
  let x := rangeX run.captured.sum (run.turn3.getD 0) run.asymmetry
  { r with
    delay := delayOf x, suspect := decide (x < 0), turn := run.turn3.getD 0, latency := run.latency3.getD 0
    path := pathOf (delayOf x) (run.latency3.getD 0) c, valid := true, failures := 0 }

/-- R35: a run of link l ends OK. -/
def State.endOk (s : State) (l : LinkIx) (run : RangingRun) : State :=
  let oldPath := (s.link l).rng.path
  let inActive := (s.link l).mgr.state == .active
  let t := s.modRng l (fun r => (r.accept run (s.link l).settings.cable).runEnded inActive)
  let t := t.notify (t.rangeResult l run .ok)
  if (t.link l).rng.path = oldPath then t else t.reportPath l

/-- R36, R37: a run of link l ends TIMEOUT or JITTER; the third in ACTIVE faults the link. -/
def State.endFailed (s : State) (l : LinkIx) (run : RangingRun) (outcome : RunOutcome) : State :=
  if (s.link l).mgr.state = .active then
    let t := s.modRng l (fun r => { r.runEnded true with failures := r.failures + 1 })
    let t := t.notify (t.rangeResult l run outcome)
    if 3 ≤ (t.link l).rng.failures then t.fault l .rangeLost else t
  else
    let t := s.modRng l (fun r => r.runEnded false)
    t.notify (t.rangeResult l run outcome)

/-- R38: a run of link l ends ABORTED. -/
def State.endAborted (s : State) (l : LinkIx) (run : RangingRun) : State :=
  let inActive := (s.link l).mgr.state == .active
  let t := s.modRng l (fun r => r.runEnded inActive)
  t.notify (t.rangeResult l run .aborted)

/-- R32: a run of link l whose fourth echo has been captured is judged. -/
def State.judge (s : State) (l : LinkIx) (run : RangingRun) : State :=
  if run.jitter < run.spread then s.endFailed l run .jitter else s.endOk l run

/-- R30, R31: whether a run takes the echo of mark m arriving at step `arrival` of block `now`. -/
def RangingRun.admits (r : RangingRun) (runId : BitVec 8) (m : Fin 4) (now : Seq16) (arrival : Nat) : Bool :=
  r.runId == runId && decide (m.val < r.marksSent) && now == r.firstBlock + BitVec.ofNat 16 m.val && decide (arrival ≤ 65535) &&
    (r.roundTrips[m]).isNone

/-- R30: a run with the echo of mark m captured. -/
def RangingRun.capture (r : RangingRun) (m : Fin 4) (arrival turn latency : Nat) : RangingRun :=
  { r with
    roundTrips := r.roundTrips.set m (some arrival)
    turn3 := if m.val = 3 then some turn else r.turn3
    latency3 := if m.val = 3 then some latency else r.latency3 }

/-- An event the link manager counts as unexpected (R17, R22, R30, R42). -/
def State.countUnexpected (s : State) (l : LinkIx) : State := s.modMgr l (fun m => { m with unexpected := bump16 m.unexpected })

/-- R30, R32: an ECHO with a marker number 0..3. -/
def State.takeEcho (s : State) (l : LinkIx) (runId : BitVec 8) (m : Fin 4) (turn latency arrival : Nat) : State :=
  match (s.link l).rng.run with
  | none => s.countUnexpected l
  | some r =>
    if r.admits runId m s.period arrival then
      let x := r.capture m arrival turn latency
      if m.val = 3 then s.judge l x else s.modRng l (fun y => { y with run := some x })
    else s.countUnexpected l

/-- R31: whether the echo window of the mark link l sent last closes in the present period with no echo captured. -/
def RangingRun.windowOpen (r : RangingRun) (now : Seq16) : Bool :=
  match r.marksSent with
  | 0 => false
  | m + 1 => now == r.firstBlock + BitVec.ofNat 16 m && (r.roundTrips[m]?.getD (some 0)).isNone

/-- R31: the echo window of the mark link l sent last closes. -/
def State.echoWindowCloseIfDue (s : State) (l : LinkIx) : State :=
  match (s.link l).rng.run with
  | some r => if r.windowOpen s.period then s.endFailed l r .timeout else s
  | none => s

/-! ## Tracking -/

/-- R43: the one-way delay estimated from a single echo. -/
def estimate (rt turn : Nat) (a : Int) : Nat :=
  let x1 := (rt : Int) - turn + a
  if x1 < 0 then 0 else ((x1 + 1) / 2).toNat

/-- R43: D moved one step toward d. -/
def stepToward (delay d : Nat) : Nat := if delay < d then delay + 1 else if d < delay then delay - 1 else delay

/-- R43: whether an estimate is an inlier. -/
def isInlier (delay d : Nat) : Bool := decide (d ≤ delay + 64) && decide (delay ≤ d + 64)

/-- R42: whether a marker takes a TRACK echo arriving at step `arrival` of block `now`. -/
def TrackMarker.admits (x : TrackMarker) (runId : BitVec 8) (now : Seq16) (arrival : Nat) : Bool :=
  x.isOpen && x.runId == runId && x.block == now && decide (arrival ≤ 65535)

/-- R43, R44: link l takes the estimate d of a matching TRACK echo. -/
def State.useEstimate (s : State) (l : LinkIx) (d : Nat) : State :=
  let r := (s.link l).rng
  if isInlier r.delay d then
    let t := s.modRng l (fun r => { r with outliers := 0, delay := stepToward r.delay d })
    if stepToward r.delay d = r.delay then t
    else
      let u := t.modRng l (fun y => { y with path := pathOf y.delay y.latency (s.link l).settings.cable })
      if (u.link l).rng.path = r.path then u else u.reportPath l
  else if 3 ≤ r.outliers + 1 then s.startRun l .tracking
  else s.modRng l (fun r => { r with outliers := r.outliers + 1 })

/-- R42, R43: an ECHO carrying TRACK. -/
def State.takeTrackEcho (s : State) (l : LinkIx) (runId : BitVec 8) (turn arrival : Nat) : State :=
  match (s.link l).rng.marker with
  | none => s.countUnexpected l
  | some x =>
    if x.admits runId s.period arrival then
      (s.modRng l (fun r => { r with marker := none })).useEstimate l (estimate arrival turn (s.link l).settings.asymmetry)
    else s.countUnexpected l

/-- R42: the window of link l's tracking marker closes. -/
def State.trackWindowCloseIfDue (s : State) (l : LinkIx) : State :=
  s.modRng l (fun r => { r with marker := r.marker.map (fun x => { x with isOpen := false }) })

/-- R41: link l takes part in the tracking count of a superframe boundary, unless it entered ACTIVE there, or TRACKING_MARK has taken that
count there already (log 2). -/
def State.countTracking (s : State) (l : LinkIx) : State :=
  let x := s.link l
  if x.mgr.state = .active ∧ x.rng.run = none ∧ x.rng.skipCount = false then
    s.modRng l (fun r => { r with trackCount := if r.trackCount < 16 then r.trackCount + 1 else r.trackCount })
  else s.modRng l (fun r => { r with skipCount := false })

/-- R41: whether link l's tracking count has reached 16. -/
def State.trackingDue (s : State) (l : LinkIx) : Bool :=
  (s.link l).mgr.state == .active && (s.link l).rng.run.isNone && decide (16 ≤ (s.link l).rng.trackCount)

/-- R42: the previous marker, unanswered, is removed and counted missing. -/
def Ranging.settleMarker (r : Ranging) : Ranging :=
  match r.marker with
  | some x => if x.isOpen then { r with marker := none } else { r with marker := none, missingEchoes := bump16 r.missingEchoes }
  | none => r

/-- R18, R41: a MARK TRACK goes first in the frame of the present boundary, whether that frame has started or not. -/
def Manager.placeTrackMark (m : Manager) (owed : Bool) (runId : BitVec 8) : Manager :=
  if owed then { m with markNext := some (.mark runId .track) }
  else { m with frame := m.frame.map (fun f => { f with messages := .mark runId .track :: f.messages }) }

/-- R41 steps 1 to 3: link l's previous marker is settled, a MARK TRACK placed in the frame of the present boundary, a new marker opened
and the tracking count set to 0. -/
def State.placeMark (s : State) (l : LinkIx) : State :=
  s.modLink l (fun x => { x with
    mgr := x.mgr.placeTrackMark s.time.blockOwed x.rng.runCounter
    rng := { x.rng.settleMarker with
      trackCount := 0
      marker := some { runId := x.rng.runCounter, block := s.time.block, isOpen := true } } })

/-- R41, TRACKING_MARK where the count has reached 16. -/
def State.trackingMarkIfDue (s : State) (l : LinkIx) : State := if s.trackingDue l then s.placeMark l else s

/-- R41: whether the count that link l owes the present superframe boundary would be its sixteenth. -/
def State.lastTrackCountDue (s : State) (l : LinkIx) : Bool :=
  s.time.superframeOwed && (s.link l).mgr.state == .active && (s.link l).rng.run.isNone && !(s.link l).rng.skipCount &&
    (s.link l).rng.trackCount == 15

/-- R41: link l makes its sixteenth count, ahead of the boundary's other work, which then does not count the link again, and its mark is
placed. -/
def State.countAndMark (s : State) (l : LinkIx) : State := (s.placeMark l).modRng l (fun r => { r with skipCount := true })

/-- ECHO_WINDOW_CLOSE (R31): where no window is open nothing happens (log 4). -/
def execEchoWindowClose (l : LinkIx) (s : State) : Host.Outcome State Fault Refusal := s.running (s.echoWindowCloseIfDue l)

/-- TRACK_WINDOW_CLOSE (R42). -/
def execTrackWindowClose (l : LinkIx) (s : State) : Host.Outcome State Fault Refusal := s.running (s.trackWindowCloseIfDue l)

end Sys2Proof.Machine
end

