-- ==== Sys2Proof/Machine/LinkSteps.lean ====
section
/-! DEFINITION. The link manager's own steps (chapter 1): the LINK_ orders, SET_LINK, lock events, attachment, arriving frames and
their messages, deadlines. -/

namespace Sys2Proof.Machine

open Sys2Proof

/-! ## Orders -/

/-- The link an order names (R172: an index above 15 is refused BAD_INDEX before any state check). -/
def Order.link? (o : Order) : Option LinkIx := indexBelow 16 o.index.toNat

/-- R1, R2: the settings a SET_LINK carries, clamped, for zone z and group g. -/
def Order.settings (o : Order) (z : ZoneIx) (g : GroupIx) : Settings :=
  { zone := z, group := g, power := clampNat 0 100 (fieldAt o.p1 16 16), asymmetry := clampInt (-1024) 1023 (signedAt o.p2 0),
    cable := clampInt (-2048) 2047 (signedAt o.p2 16), jitter := clampNat 0 255 (fieldAt o.p3 0 16),
    gateHold := clampNat 1 255 (fieldAt o.p3 16 16), gain := clampNat 0 32767 (fieldAt o.p4 0 16) }

/-- R2: whether a SET_LINK carries a tuning value outside its range. -/
def Order.settingsClamped (o : Order) : Bool :=
  clampNat 0 100 (fieldAt o.p1 16 16) != fieldAt o.p1 16 16 || clampInt (-1024) 1023 (signedAt o.p2 0) != signedAt o.p2 0 ||
    clampInt (-2048) 2047 (signedAt o.p2 16) != signedAt o.p2 16 || clampNat 0 255 (fieldAt o.p3 0 16) != fieldAt o.p3 0 16 ||
    clampNat 1 255 (fieldAt o.p3 16 16) != fieldAt o.p3 16 16 || clampNat 0 32767 (fieldAt o.p4 0 16) != fieldAt o.p4 0 16

/-- R2: the states in which a link's zone and group are fixed. -/
def LinkState.placed : LinkState → Bool
  | .joining => true
  | .active => true
  | .quiescing => true
  | _ => false

/-- R2, R24: whether a SET_LINK that takes a link from settings x to y issues a SETUP in state st. -/
def setupDue (st : LinkState) (x y : Settings) : Bool :=
  match st with
  | .standby => x.power != y.power || x.zone != y.zone || x.group != y.group
  | .joining => x.power != y.power
  | .active => x.power != y.power
  | _ => false

/-- R34: the ranging unit recomputes P when SET_LINK changes C while the range is valid, and reports a change (R61). -/
def State.recomputePath (s : State) (l : LinkIx) : State :=
  let r := (s.link l).rng
  let p := pathOf r.delay r.latency (s.link l).settings.cable
  if p = r.path then s else (s.modRng l (fun r => { r with path := p })).reportPath l

/-- R2: the eight settings stored, with what their changes bring about. -/
def State.storeSettings (s : State) (l : LinkIx) (y : Settings) : State :=
  let x := (s.link l).settings
  let t := s.modSettings l (fun _ => y)
  let t := if setupDue (s.link l).mgr.state x y then t.issueSetup l else t
  if x.cable ≠ y.cable ∧ (s.link l).rng.valid then t.recomputePath l else t

/-- SET_LINK (R2). -/
def orderSetLink (o : Order) (s : State) : State × OrderResult :=
  match o.link?, indexBelow 8 (fieldAt o.p1 0 8), indexBelow 4 (fieldAt o.p1 8 8) with
  | some l, some z, some g =>
    let x := (s.link l).settings
    if (x.zone ≠ z ∨ x.group ≠ g) ∧ (s.link l).mgr.state.placed then (s, .refused .wrongState)
    else (s.storeSettings l (o.settings z g), doneOr o.settingsClamped)
  | _, _, _ => (s, .refused .badIndex)

/-- R5: the link manager's fields on entry to LISTEN by LINK_LISTEN. -/
def Manager.listen (m : Manager) : Manager :=
  { m with state := .listen, laser := true, phaseCount := 0, listenPhase := some .settle, attachPhase := none }

/-- No alarm wire cleared (R16). -/
def noWires : Vector Bool 4 := Vector.replicate 4 false

/-- LINK_LISTEN (R5). -/
def orderLinkListen (o : Order) (s : State) : State × OrderResult :=
  match o.link? with
  | none => (s, .refused .badIndex)
  | some l =>
    if (s.link l).mgr.state = .dark then
      ((s.modMgr l Manager.listen).notify (.linkState l .dark .listen .order noWires none), .done)
    else (s, .refused .wrongState)

/-- LINK_RANGE (R11, R28). -/
def orderLinkRange (o : Order) (s : State) : State × OrderResult :=
  match o.link? with
  | none => (s, .refused .badIndex)
  | some l =>
    if (s.link l).mgr.state ≠ .standby ∧ (s.link l).mgr.state ≠ .active then (s, .refused .wrongState)
    else if s.hasRun l then (s, .refused .busy)
    else (s.startRun l .order, .done)

/-- R8, R94: link l enters JOINING by LINK_ACTIVATE. -/
def State.activate (s : State) (l : LinkIx) : State :=
  ((s.modMgr l (fun m => { m with state := .joining })).notify (.linkState l .standby .joining .order noWires none)).issueJoin l 0

/-- LINK_ACTIVATE (R8). -/
def orderLinkActivate (o : Order) (s : State) : State × OrderResult :=
  match o.link? with
  | none => (s, .refused .badIndex)
  | some l =>
    if (s.link l).mgr.state ≠ .standby then (s, .refused .wrongState)
    else if s.hasRun l then (s, .refused .busy)
    else if (s.link l).rng.valid then (s.activate l, .done)
    else (s, .refused .wrongState)

/-- R10, R98: a JOINING link enters QUIESCING. -/
def State.quiesceJoining (s : State) (l : LinkIx) : State :=
  let s := s.notify (.linkState l .joining .quiescing .order noWires none)
  (s.modLink l (fun x => { x with mgr := { x.mgr with state := .quiescing }, exchange := none })).abortPending l

/-- LINK_QUIESCE (R10). -/
def orderLinkQuiesce (o : Order) (s : State) : State × OrderResult :=
  match o.link? with
  | none => (s, .refused .badIndex)
  | some l => (match (s.link l).mgr.state with
    | .active => (s.leaveActive l .quiescing .order, .done)
    | .joining => (s.quiesceJoining l, .done)
    | _ => (s, .refused .wrongState))

/-- LINK_ABORT (R11, R38). -/
def orderLinkAbort (o : Order) (s : State) : State × OrderResult :=
  match o.link? with
  | none => (s, .refused .badIndex)
  | some l =>
    if (s.link l).mgr.state = .fault then (s, .refused .wrongState)
    else (match (s.link l).rng.run with
      | some r => (s.endAborted l r, .done)
      | none => (s, .done))

/-- LINK_DARK (R14). -/
def orderLinkDark (o : Order) (s : State) : State × OrderResult :=
  match o.link? with
  | none => (s, .refused .badIndex)
  | some l => (match (s.link l).mgr.state with
    | .dark => (s, .done)
    | .fault =>
      ((s.modMgr l (fun m => { m with state := .dark, laser := false })).notify (.linkState l .fault .dark .order noWires none), .done)
    | _ => (s.takeDown l .dark .order, .done))

/-- The telemetry item a code names (R23, in the order of 10.5's rule for enumerations). -/
def itemOf (w : Word) : Option Item :=
  match w.toNat with
  | 0 => some .temp
  | 1 => some .outPower
  | 2 => some .feederRl
  | 3 => some .supply
  | _ => none

/-- LINK_QUERY (R23). -/
def orderLinkQuery (o : Order) (s : State) : State × OrderResult :=
  match o.link? with
  | none => (s, .refused .badIndex)
  | some l => (match itemOf o.p1 with
    | none => (s, .refused .badValue)
    | some item =>
      if (s.link l).mgr.state.controlOpen = false then (s, .refused .wrongState)
      else if 8 ≤ (s.link l).mgr.pendingQueue.length then (s, .refused .queueFull)
      else (s.issueRequest l (.query item o.tag), .done))

/-! ## Lock events and attachment -/

/-- R4: lock gained on link l. -/
def State.lockGained (s : State) (l : LinkIx) : State := s.modMgr l (fun m => { m with lock := true })

/-- R6: the link manager's fields when a link in ATTACH returns to LISTEN. -/
def Manager.backToListen (m : Manager) : Manager :=
  { m with state := .listen, phaseCount := 0, listenPhase := some .detect, attachPhase := none }

/-- R5, R6, R12: lock lost on link l. -/
def State.lockLost (s : State) (l : LinkIx) : State :=
  let t := s.modMgr l (fun m => { m with lock := false, attachDue := false })
  match (s.link l).mgr.state with
  | .attach => t.modMgr l Manager.backToListen
  | .standby => t.fault l .lockLost
  | .joining => t.fault l .lockLost
  | .active => t.fault l .lockLost
  | .quiescing => t.fault l .lockLost
  | _ => t

/-- R5: the settle period of link l ends where its phase count has reached 100. -/
def State.settlePeriodEndIfDue (s : State) (l : LinkIx) : State :=
  s.modMgr l (fun m =>
    if m.state = .listen ∧ m.listenPhase = some .settle ∧ m.phaseCount = 100 then
      { m with listenPhase := some .detect, attachDue := m.lock }
    else m)

/-- R5, R6: link l enters ATTACH where the present boundary found lock held in the detection phase. -/
def State.attachIfDue (s : State) (l : LinkIx) : State :=
  s.modMgr l (fun m =>
    if m.attachDue ∧ m.state = .listen ∧ m.listenPhase = some .detect ∧ m.lock then
      { m with state := .attach, attachPhase := some .debounce, listenPhase := none, phaseCount := 0, attachDue := false }
    else m)

/-- R6: DEBOUNCE of link l ends where its phase count has reached 98. -/
def State.debounceEndIfDue (s : State) (l : LinkIx) : State :=
  s.modMgr l (fun m =>
    if m.state = .attach ∧ m.attachPhase = some .debounce ∧ m.phaseCount = 98 then
      { m with attachPhase := some .helloWait, phaseCount := 0 }
    else m)

/-- R7: the HELLO wait of link l runs out where its phase count has reached 50. -/
def State.helloWaitExpiryIfDue (s : State) (l : LinkIx) : State :=
  if (s.link l).mgr.state = .attach ∧ (s.link l).mgr.attachPhase = some .helloWait ∧ (s.link l).mgr.phaseCount = 50 then
    s.fault l .noHello
  else s

/-- R10: whether nothing of a link is outstanding or pending. -/
def Manager.settled (m : Manager) : Bool := allTags.all (fun t => m.outstanding[t].isNone) && m.pendingQueue.isEmpty

/-- R10, R12: the link manager's fields when QUIESCING ends. -/
def Manager.quiesced (m : Manager) : Manager := { m with state := .standby, erroredRun := 0, quiesceDue := false }

/-- R10: QUIESCING of link l ends where the present boundary found nothing outstanding or pending. -/
def State.quiescingEndIfDue (s : State) (l : LinkIx) : State :=
  if (s.link l).mgr.quiesceDue ∧ (s.link l).mgr.state = .quiescing ∧ (s.link l).mgr.settled then
    ((s.modMgr l Manager.quiesced).notify (.linkState l .quiescing .standby .quiesced noWires none)).issueSetup l
  else s

/-- R21: the request at tag t of link l, if it is still the sent one, completes TIMEOUT and its tag becomes free. -/
def State.expireTag (s : State) (l : LinkIx) (t : Tag) : State :=
  match (s.link l).mgr.outstanding[t] with
  | some { request := r, sentIn := some _ } => (s.freeTag l t).completeTimeout l r
  | _ => s

/-- R10: a QUIESCING link left with nothing outstanding or pending by an expiry of the present boundary is due to leave QUIESCING. -/
def State.noteQuiesced (s : State) (l : LinkIx) : State :=
  s.modMgr l (fun m => if m.state = .quiescing ∧ m.settled ∧ s.time.blockOwed = false then { m with quiesceDue := true } else m)

/-- R19, R21: the deadlines of link l that have been reached expire in ascending tag order; then the freed tags are given. -/
def State.deadlinesIfDue (s : State) (l : LinkIx) : State :=
  if (s.expiredTags l).isEmpty then s
  else
    let t := (s.expiredTags l).foldl (fun s t => s.expireTag l t) s
    let t := (t.modMgr l Manager.giveFreedTags).noteQuiesced l
    if (t.link l).mgr.state = (s.link l).mgr.state then t else t.regovern l

/-! ## Arriving frames -/

/-- R7: the link manager's fields when a HELLO takes a link to STANDBY. -/
def Manager.hello (m : Manager) (x : RuIdentity) : Manager :=
  { m with state := .standby, identity := some x, erroredRun := 0, attachPhase := none }

/-- R7, R24: a HELLO in the HELLO wait. -/
def State.takeHello (s : State) (l : LinkIx) (x : RuIdentity) : State :=
  ((s.modMgr l (fun m => m.hello x)).notify (.linkState l .attach .standby .hello noWires (some x))).issueSetup l

/-- R22: a REPLY. -/
def State.takeReply (s : State) (l : LinkIx) (tag : Tag) (status : ReplyStatus) (data : BitVec 32) : State :=
  match (s.link l).mgr.outstanding[tag] with
  | some { request := r, sentIn := some _ } =>
    ((s.freeTag l tag).completeReply l r status data).modMgr l Manager.giveFreedTags
  | _ => s.countUnexpected l

/-- R25: an ALARM_ON or ALARM_OFF. -/
def State.takeAlarm (s : State) (l : LinkIx) (wire : Wire) (on : Bool) : State :=
  if (s.link l).mgr.wires[wireIx wire] = on then s.modMgr l (fun m => { m with violations := bump16 m.violations })
  else (s.modMgr l (fun m => { m with wires := m.wires.set (wireIx wire) on })).notify (.alarm l wire on)

/-- R17: a message taken while the control channel is open; `arrival` is the frame's step of the block period. -/
def State.takeOpenMessage (s : State) (l : LinkIx) (arrival : Nat) (m : RxMsg) : State :=
  match m with
  | .hello _ _ => s.fault l .ruRestart
  | .echo runId (.run k) turn latency => s.takeEcho l runId k turn.toNat latency.toNat arrival
  | .echo runId .track turn _ => s.takeTrackEcho l runId turn.toNat arrival
  | .reply tag status data => s.takeReply l tag status data
  | .alarmOn w => s.takeAlarm l w true
  | .alarmOff w => s.takeAlarm l w false
  | .unknown => s.modMgr l (fun x => { x with unsupported := bump16 x.unsupported })

/-- R17: a message of an unerrored frame, by the link's state as it is taken. -/
def State.takeMessage (s : State) (l : LinkIx) (arrival : Nat) (m : RxMsg) : State :=
  if (s.link l).mgr.state.controlOpen then s.takeOpenMessage l arrival m
  else if (s.link l).mgr.state = .attach ∧ (s.link l).mgr.attachPhase = some .helloWait then
    match m with
    | .hello identity firmware => s.takeHello l { identity := identity, firmware := firmware }
    | _ => s
  else s

/-- R12: an errored frame on link l. -/
def State.takeErrored (s : State) (l : LinkIx) : State :=
  if (s.link l).mgr.state.controlOpen then
    let t := s.modMgr l (fun m => { m with erroredFrames := bump16 m.erroredFrames, erroredRun := m.erroredRun + 1 })
    if 4 ≤ (t.link l).mgr.erroredRun then t.fault l .errors else t
  else s

/-- R12: an unerrored frame sets the errored run to 0. -/
def State.takeGood (s : State) (l : LinkIx) : State :=
  if (s.link l).mgr.state.controlOpen then s.modMgr l (fun m => { m with erroredRun := 0 }) else s

/-- R12, R17, R138: an uplink frame arrives on link l. -/
def State.takeFrame (s : State) (l : LinkIx) (f : UplinkFrame) : State :=
  let t := s.takeSamples l f
  if f.errored then t.takeErrored l
  else f.messages.foldl (fun s m => s.takeMessage l f.arrivalStep m) (t.takeGood l)

/-! ## The steps -/

/-- LOCK_GAINED (R4). -/
def execLockGained (l : LinkIx) (s : State) : Host.Outcome State Fault Refusal := s.running (s.lockGained l)

/-- LOCK_LOST (R6, R12). -/
def execLockLost (l : LinkIx) (s : State) : Host.Outcome State Fault Refusal := s.running (s.lockLost l)

/-- UPLINK_FRAME_ARRIVAL (R17); what is no frame is refused by name (log 15). -/
def execUplinkFrameArrival (l : LinkIx) (f : UplinkFrame) (s : State) : Host.Outcome State Fault Refusal :=
  if frameOk f then s.running (s.takeFrame l f) else .refused .malformedFrame

/-- ATTACH (R5): where it is not due nothing happens (log 4). -/
def execAttach (l : LinkIx) (s : State) : Host.Outcome State Fault Refusal := s.running (s.attachIfDue l)

/-- SETTLE_PERIOD_END (R5). -/
def execSettlePeriodEnd (l : LinkIx) (s : State) : Host.Outcome State Fault Refusal := s.running (s.settlePeriodEndIfDue l)

/-- DEBOUNCE_END (R6). -/
def execDebounceEnd (l : LinkIx) (s : State) : Host.Outcome State Fault Refusal := s.running (s.debounceEndIfDue l)

/-- HELLO_WAIT_EXPIRY (R7). -/
def execHelloWaitExpiry (l : LinkIx) (s : State) : Host.Outcome State Fault Refusal := s.running (s.helloWaitExpiryIfDue l)

/-- QUIESCING_END (R10). -/
def execQuiescingEnd (l : LinkIx) (s : State) : Host.Outcome State Fault Refusal := s.running (s.quiescingEndIfDue l)

end Sys2Proof.Machine
end

