-- ==== Sys2Proof/Machine/BreakIn.lean ====
section
/-! DEFINITION. The break-in arbiter (chapter 7): activation, deactivation, the owners of zones and their reports. Stream selection is
in Lanes.lean. -/

namespace Sys2Proof.Machine

open Sys2Proof

/-- The source of a contact input (R122). -/
def contactSource (i : InputIx) : SourceIx := i.castLE (by decide)

/-- The source of console source n, CS0 to CS3 (R122). -/
def consoleSource (n : Fin 4) : SourceIx := n.natAdd 4

/-- R122: source x is activated. -/
def Arbiter.activated (a : Arbiter) (x : SourceIx) (mask : BitVec 8) (priority : Nat) (channel : Channel) : Arbiter :=
  { parts := a.parts.set x (some { mask := mask, priority := priority, channel := channel, stamp := a.counter })
    counter := a.counter + 1
    list := a.list ++ [x] }

/-- R122: source x is deactivated. -/
def Arbiter.deactivated (a : Arbiter) (x : SourceIx) : Arbiter :=
  { a with parts := a.parts.set x none, list := a.list.filter (fun y => y != x) }

/-- R127: whether source x covers zone z. -/
def Arbiter.covers (a : Arbiter) (z : ZoneIx) (x : SourceIx) : Bool :=
  match a.parts[x] with
  | some p => hasZone p.mask z
  | none => false

/-- The priority of source x, 0 where it is not active. -/
def Arbiter.priorityOf (a : Arbiter) (x : SourceIx) : Nat :=
  match a.parts[x] with
  | some p => p.priority
  | none => 0

/-- R127, R128: among sources in list order, the first of the highest priority. -/
def Arbiter.best (a : Arbiter) : List SourceIx → Option SourceIx
  | [] => none
  | x :: rest => (match a.best rest with
    | none => some x
    | some y => if a.priorityOf x < a.priorityOf y then some y else some x)

/-- R128: the best of the active sources that cover zone z. -/
def Arbiter.bestCoverer (a : Arbiter) (z : ZoneIx) : Option SourceIx := a.best (a.list.filter (a.covers z))

/-- The state with zone z's owner set. -/
def State.setOwner (s : State) (z : ZoneIx) (x : Option SourceIx) : State := s.modZone z (fun y => { y with owner := x })

/-- R127: a newly activated source x takes zone z if z has no owner or one of lower priority. -/
def State.claimZone (s : State) (x : SourceIx) (z : ZoneIx) : State :=
  match (s.zone z).owner with
  | none => s.setOwner z (some x)
  | some o => if s.arbiter.priorityOf o < s.arbiter.priorityOf x then s.setOwner z (some x) else s

/-- R128: zone z passes on from a deactivated source x, if x owned it. -/
def State.passZone (s : State) (x : SourceIx) (z : ZoneIx) : State :=
  if (s.zone z).owner = some x then s.setOwner z (s.arbiter.bestCoverer z) else s

/-- The active part of a zone's owner. -/
def State.ownerPart (s : State) (z : ZoneIx) : Option ActivePart :=
  match (s.zone z).owner with
  | some x => s.arbiter.parts[x]
  | none => none

/-- R129: the zones `zs` of an event that took the part from state `s` to `t`: BREAKIN_OWNER for each changed owner, then a replan for
each changed owner channel. -/
def reportOwners (s t : State) (zs : List ZoneIx) (cause : OwnerCause) : State :=
  let changed := zs.filter (fun z => (s.zone z).owner != (t.zone z).owner)
  let u := changed.foldl (fun u z =>
    u.notify (.breakinOwner z (s.zone z).owner (t.zone z).owner (t.ownerPart z) cause)) t
  u.replanAll (changed.filter (fun z => s.ownerChannel z != t.ownerChannel z))

/-- R122, R127, R129: source x is activated and its zones arbitrated. -/
def State.activateSource (s : State) (x : SourceIx) (mask : BitVec 8) (priority : Nat) (channel : Channel) (cause : OwnerCause) :
    State :=
  let t : State := { s with arbiter := s.arbiter.activated x mask priority channel }
  reportOwners s ((zonesOf mask).foldl (fun t z => t.claimZone x z) t) (zonesOf mask) cause

/-- R122, R128, R129: source x is deactivated and the zones it owned passed on. -/
def State.deactivateSource (s : State) (x : SourceIx) (cause : OwnerCause) : State :=
  match s.arbiter.parts[x] with
  | none => s
  | some p =>
    let t : State := { s with arbiter := s.arbiter.deactivated x }
    reportOwners s ((zonesOf p.mask).foldl (fun t z => t.passZone x z) t) (zonesOf p.mask) cause

/-- The announcement channel a code names (R111's order). -/
def channelOf (n : Nat) : Option Channel :=
  match n with
  | 0 => some .a
  | 1 => some .b
  | _ => none

/-- BREAKIN_START (R124). -/
def orderBreakinStart (o : Order) (s : State) : State × OrderResult :=
  match indexBelow 4 o.index.toNat with
  | none => (s, .refused .badIndex)
  | some n => (match channelOf (fieldAt o.p1 16 8) with
    | none => (s, .refused .badValue)
    | some c =>
      if (s.arbiter.parts[consoleSource n]).isSome then (s, .refused .active)
      else
        let priority := fieldAt o.p1 8 8
        (s.activateSource (consoleSource n) (o.p1.extractLsb' 0 8) (clampNat 0 7 priority) c .start,
          doneOr (clampNat 0 7 priority != priority)))

/-- BREAKIN_STOP (R125). -/
def orderBreakinStop (o : Order) (s : State) : State × OrderResult :=
  match indexBelow 4 o.index.toNat with
  | none => (s, .refused .badIndex)
  | some n =>
    if (s.arbiter.parts[consoleSource n]).isSome then (s.deactivateSource (consoleSource n) .stop, .done)
    else (s, .note .notActive)

end Sys2Proof.Machine
end

