-- ==== Sys2Proof/Machine/Zones.lean ====
section
/-! DEFINITION. The zone and contact unit (chapter 6): incident states, contact sampling, registered changes, latch changes and the
orders SET_ZONE, ZONE_INCIDENT, SET_LINE and LINE_ACK. -/

namespace Sys2Proof.Machine

open Sys2Proof

/-! ## Incident state -/

/-- R106 steps 1 and 2: zone z's derived state is worked out; where it changes it is stored and INCIDENT posted. -/
def State.updateIncident (s : State) (z : ZoneIx) (cause : IncidentCause) : State :=
  let old := (s.zone z).incident
  let new := s.incidentOf z
  if old = new then s
  else (s.modZone z (fun x => { x with incident := new })).notify
    (.incident z old new (s.zone z).hostFlag (s.incidentInputs z) cause)

/-- R106: zone z's derived state is worked out, with the replan trigger of step 3 where it changes. -/
def State.takeIncident (s : State) (z : ZoneIx) (cause : IncidentCause) : State :=
  if (s.zone z).incident = s.incidentOf z then s else (s.updateIncident z cause).replan z

/-- A setting coded 0 OFF, 1 ON in a whole word (10.5; log 34). -/
def onOff (w : Word) : Option Bool :=
  match w.toNat with
  | 0 => some false
  | 1 => some true
  | _ => none

/-- R107: the host flag of every zone in a mask takes a value. -/
def State.setHostFlags (s : State) (mask : BitVec 8) (on : Bool) : State :=
  (zonesOf mask).foldl (fun s z => s.modZone z (fun x => { x with hostFlag := on })) s

/-- ZONE_INCIDENT (R107). -/
def orderZoneIncident (o : Order) (s : State) : State × OrderResult :=
  match onOff o.p2 with
  | none => (s, .refused .badValue)
  | some on =>
    let mask : BitVec 8 := o.p1.extractLsb' 0 8
    ((zonesOf mask).foldl (fun s z => s.takeIncident z .order) (s.setHostFlags mask on), .done)

/-- SET_ZONE (R110). -/
def orderSetZone (o : Order) (s : State) : State × OrderResult :=
  match indexBelow 8 o.index.toNat, onOff o.p1 with
  | none, _ => (s, .refused .badIndex)
  | some _, none => (s, .refused .badValue)
  | some z, some on => (s.modZone z (fun x => { x with crossfade := on }), .done)

/-! ## Latch changes -/

/-- R113 steps 2 to 4: input i's latch has just been set or cleared under the settings its record holds. -/
def State.latchEffects (s : State) (i : InputIx) (isSet : Bool) : State :=
  let c := s.input i
  let zs := zonesOf c.mask
  let t := zs.foldl (fun s z => s.updateIncident z (.line i isSet)) s
  let u := if isSet then t.activateSource (contactSource i) c.mask c.priority c.channel (.lineSet i)
    else t.deactivateSource (contactSource i) (.lineCleared i)
  u.replanAll (zs.filter (fun z => (s.zone z).incident != (t.zone z).incident))

/-- R118: the LINE_EVENT of input i as its record now stands. -/
def State.lineEvent (s : State) (i : InputIx) (cause : LineCause) (effect : LineEffect) : State :=
  let c := s.input i
  s.notify (.lineEvent i c.mode cause effect c.level c.latch c.acked s.time.block)

/-- R113: input i's latch is set, acked clear, with LINE_EVENT (LATCHED). -/
def State.latch (s : State) (i : InputIx) (cause : LineCause) : State :=
  ((s.modInput i (fun c => { c with latch := true, acked := false })).lineEvent i cause .latched).latchEffects i true

/-- R113: input i's latch and acked flag are cleared without a LINE_EVENT. -/
def State.unlatch (s : State) (i : InputIx) : State :=
  (s.modInput i (fun c => { c with latch := false, acked := false })).latchEffects i false

/-- R115: input i's latch and acked flag are cleared by its release, with LINE_EVENT (CLEARED). -/
def State.unlatchReleased (s : State) (i : InputIx) : State :=
  ((s.modInput i (fun c => { c with latch := false, acked := false })).lineEvent i .released .cleared).latchEffects i false

/-! ## Contact sampling -/

/-- R112: a sample of the input's level at a block boundary; the eighth in a row that differs leaves a registered change due. -/
def ContactInput.sample (c : ContactInput) (active : Bool) : ContactInput :=
  if active = c.level then { c with stability := 0 }
  else if 7 ≤ c.stability then { c with changeDue := true }
  else { c with stability := c.stability + 1 }

/-- R112: the sample of the present boundary, unless the registered change it makes has been taken already (log 2). -/
def ContactInput.sampleOnce (c : ContactInput) (active : Bool) : ContactInput :=
  if c.changeTaken then { c with changeTaken := false } else c.sample active

/-- R112: every contact input is sampled; bit i of `levels` is set when CIi's loop is active (log 28). -/
def State.sampleContacts (s : State) (levels : BitVec 4) : State :=
  s.forInputs (fun s i => s.modInput i (fun c => c.sampleOnce (levels.getLsbD i.val)))

/-- R114, R115: what a registered change of an input does to its source. -/
inductive ChangeEffect where
  | silent | latched | reported | cleared
deriving DecidableEq, Repr

/-- R112, R114, R115: the effect of a registered change to level `active` of an input in a mode with a latch and acked flag; the cells
marked as not arising report only. -/
def changeEffect (mode : LineMode) (active latch acked : Bool) : ChangeEffect :=
  match mode, active, latch, acked with
  | .off, _, _, _ => .silent
  | .edge, true, false, _ => .latched
  | .edge, _, _, _ => .reported
  | .level, true, false, _ => .latched
  | .level, false, true, true => .cleared
  | .level, _, _, _ => .reported

/-- R112, R114, R115: a registered change of input i. -/
def State.registeredChange (s : State) (i : InputIx) : State :=
  let c := s.input i
  let cause := if c.level then LineCause.released else LineCause.asserted
  let t := s.modInput i (fun c => { c with level := !c.level, stability := 0, changeDue := false })
  match changeEffect c.mode (!c.level) c.latch c.acked with
  | .silent => t
  | .latched => t.latch i cause
  | .reported => t.lineEvent i cause .reported
  | .cleared => t.unlatchReleased i

/-- R112, REGISTERED_CHANGE where the sampling of the present boundary left one due. -/
def State.registeredChangeIfDue (s : State) (i : InputIx) : State := if (s.input i).changeDue then s.registeredChange i else s

/-! ## Orders -/

/-- The mode a code names (R111's order). -/
def lineModeOf (n : Nat) : Option LineMode :=
  match n with
  | 0 => some .off
  | 1 => some .edge
  | 2 => some .level
  | _ => none

/-- R116: the settings of a SET_LINE stored in an input's record. -/
def ContactInput.withSettings (c : ContactInput) (mode : LineMode) (channel : Channel) (o : Order) : ContactInput :=
  { c with mode := mode, mask := o.p1.extractLsb' 8 8, priority := clampNat 0 7 (fieldAt o.p1 16 8), channel := channel,
           incidentFlag := o.p2.getLsbD 0 }

/-- SET_LINE (R116). -/
def orderSetLine (o : Order) (s : State) : State × OrderResult :=
  match indexBelow 4 o.index.toNat with
  | none => (s, .refused .badIndex)
  | some i => (match lineModeOf (fieldAt o.p1 0 8), channelOf (fieldAt o.p1 24 8) with
    | some mode, some channel =>
      if (s.input i).latch ∧ mode ≠ .off then (s, .refused .active)
      else
        let t := if (s.input i).latch then s.unlatch i else s
        let t := t.modInput i (fun c => c.withSettings mode channel o)
        (if mode = .level ∧ (s.input i).level then t.latch i .setLine else t,
          doneOr (clampNat 0 7 (fieldAt o.p1 16 8) != fieldAt o.p1 16 8))
    | _, _ => (s, .refused .badValue))

/-- LINE_ACK (R117). -/
def orderLineAck (o : Order) (s : State) : State × OrderResult :=
  match indexBelow 4 o.index.toNat with
  | none => (s, .refused .badIndex)
  | some i =>
    let c := s.input i
    if c.latch = false then (s, .note .notLatched)
    else if c.mode = .level ∧ c.level then
      if c.acked then (s, .note .alreadyAcked) else (s.modInput i (fun c => { c with acked := true }), .done)
    else (s.unlatch i, .done)

end Sys2Proof.Machine
end

