-- ==== Sys2Proof/Machine/Services.lean ====
section
/-! DEFINITION. The service table's orders (4.1): SET_SERVICE, ENABLE_SERVICE, DISABLE_SERVICE, CLEAR_SERVICE. -/

namespace Sys2Proof.Machine

open Sys2Proof

/-- The service an order names. -/
def Order.service? (o : Order) : Option ServiceIx := indexBelow 24 o.index.toNat

/-- R65, R68: whether a service has an entry in any zone's current or staged plan. -/
def State.inSomePlan (s : State) (v : ServiceIx) : Bool :=
  allZones.any (fun z => (carriedOf (s.zone z).entries).contains v ||
    (match (s.zone z).staged with
     | some p => (carriedOf p.entries).contains v
     | none => false))

/-! ## SET_SERVICE -/

/-- The kind a code names (R63's order). -/
def kindOf (n : Nat) : Option Kind :=
  match n with
  | 0 => some .broadcast
  | 1 => some .mobile
  | 2 => some .rescue
  | _ => none

/-- R63, R64, R65: whether an area of width w has a block count lo..16, a base that is a multiple of 4,096, and lies within the address
space. -/
def areaOk (a : Area) (w lo : Nat) : Bool :=
  decide (lo ≤ a.blocks) && decide (a.blocks ≤ 16) && decide (a.base % 4096 = 0) && decide (a.base + areaBytes a w ≤ 1073741824)

/-- The same, for an optional area. -/
def optAreaOk (a : Option Area) (w lo : Nat) : Bool :=
  match a with
  | some a => areaOk a w lo
  | none => true

/-- R65: whether no two of a list of byte ranges overlap. -/
def pairwiseApart : List (Nat × Nat) → Bool
  | [] => true
  | x :: rest => rest.all (fun y => !rangesOverlap x y) && pairwiseApart rest

/-- The definition a SET_SERVICE of kind k carries, stored in a record (R65). -/
def Service.defined (v : Service) (k : Kind) (o : Order) : Service :=
  { v with
    state := .defined, kind := k, width := fieldAt o.p1 4 4, cls := clampNat 0 7 (fieldAt o.p1 8 8),
    incidentOnly := o.p1.getLsbD 16, mask := o.p1.extractLsb' 24 8, radioTag := o.p2, bypass := o.p1.getLsbD 17,
    areas := ⟨areaOf o.p3, areaOf o.p4, areaOf o.p5⟩, ring := areaOf o.p6 }

/-- R65 step 4: whether a definition's values are good. -/
def Service.valuesOk (x : Service) : Bool :=
  decide (1 ≤ x.width) && decide (x.width ≤ 8) && x.areas.normal.isSome && optAreaOk x.areas.normal x.width 3 &&
    optAreaOk x.areas.a x.width 3 && optAreaOk x.areas.b x.width 3 && optAreaOk x.ring x.width 2 &&
    (x.kind == .broadcast || (x.areas.a.isNone && x.areas.b.isNone)) && !(x.kind == .broadcast && x.ring.isSome)

/-- R65 step 5: whether an area of definition x of service v overlaps the control window, another of its areas, or an area of another
DEFINED or ENABLED service. -/
def State.overlaps (s : State) (v : ServiceIx) (x : Service) : Bool :=
  x.ranges.any (fun r => rangesOverlap r (s.path.windowBase, 65536)) || !pairwiseApart x.ranges ||
    allServices.any (fun u => u != v && (s.service u).state != .free &&
      (s.service u).ranges.any (fun r => x.ranges.any (rangesOverlap r)))

/-- SET_SERVICE (R65). -/
def orderSetService (o : Order) (s : State) : State × OrderResult :=
  match o.service? with
  | none => (s, .refused .badIndex)
  | some v =>
    if (s.service v).state = .enabled then (s, .refused .wrongState)
    else if s.inSomePlan v then (s, .refused .busy)
    else (match kindOf (fieldAt o.p1 0 2) with
      | none => (s, .refused .badValue)
      | some k =>
        let x := (s.service v).defined k o
        if x.valuesOk = false then (s, .refused .badValue)
        else if s.overlaps v x then (s, .refused .overlap)
        else (s.modService v (fun _ => x), doneOr (clampNat 0 7 (fieldAt o.p1 8 8) != fieldAt o.p1 8 8)))

/-! ## ENABLE_SERVICE -/

/-- R66: the streams of a service: 1 plus its break-in areas. -/
def Service.streamCount (x : Service) : Nat :=
  1 + (if x.areas.a.isSome then 1 else 0) + (if x.areas.b.isSome then 1 else 0)

/-- R66: width × streams. -/
def Service.stagingDemand (x : Service) : Nat := x.width * x.streamCount

/-- R66: the width of a service that has an uplink ring. -/
def Service.uplinkDemand (x : Service) : Nat := if x.ring.isSome then x.width else 0

/-- R66: a demand summed over the ENABLED services. -/
def State.enabledSum (s : State) (f : Service → Nat) : Nat :=
  (allServices.map (fun v => if (s.service v).state = .enabled then f (s.service v) else 0)).sum

/-- R66, R70, R137: a service record once enabled during period b. -/
def Service.enable (x : Service) (b : Seq16) : Service :=
  { x with
    state := .enabled
    totals := ⟨.zero, .zero, .zero⟩
    streams :=
      { normal := some (.created b .normal)
        a := x.areas.a.map (fun _ => StreamRec.created b .a)
        b := x.areas.b.map (fun _ => StreamRec.created b .b) }
    lastAppended := none
    droppedBefore := 0 }

/-- ENABLE_SERVICE (R66). -/
def orderEnableService (o : Order) (s : State) : State × OrderResult :=
  match o.service? with
  | none => (s, .refused .badIndex)
  | some v =>
    let x := s.service v
    if x.state ≠ .defined then (s, .refused .wrongState)
    else if 80 < s.enabledSum Service.stagingDemand + x.stagingDemand then (s, .refused .noStaging)
    else if 48 < s.enabledSum Service.uplinkDemand + x.uplinkDemand then (s, .refused .noUplinkCapacity)
    else ((s.modService v (fun x => x.enable s.period)).replanAll (zonesOf x.mask), .done)

/-! ## DISABLE_SERVICE and CLEAR_SERVICE -/

/-- R67, R80: a service record once disabled: its stream records become its disabled report. -/
def Service.disable (x : Service) : Service :=
  { x with state := .defined, report := some x.disabledReport, streams := ⟨none, none, none⟩ }

/-- DISABLE_SERVICE (R67). -/
def orderDisableService (o : Order) (s : State) : State × OrderResult :=
  match o.service? with
  | none => (s, .refused .badIndex)
  | some v =>
    if (s.service v).state ≠ .enabled then (s, .refused .wrongState)
    else (((s.modService v Service.disable).disableUplink v).replanAll (zonesOf (s.service v).mask), .done)

/-- R68: the reset values of R63, the counters (and what R80 and R137 keep beside them) kept. -/
def Service.clear (x : Service) : Service :=
  { Service.atReset with totals := x.totals, report := x.report, lastAppended := x.lastAppended,
                         droppedBefore := x.droppedBefore, sums := x.sums }

/-- CLEAR_SERVICE (R68). -/
def orderClearService (o : Order) (s : State) : State × OrderResult :=
  match o.service? with
  | none => (s, .refused .badIndex)
  | some v =>
    if (s.service v).state ≠ .defined then (s, .refused .wrongState)
    else if s.inSomePlan v then (s, .refused .busy)
    else (s.modService v Service.clear, .done)

end Sys2Proof.Machine
end

