-- ==== Sys2Proof/Machine/Notices.lean ====
section
/-! DEFINITION. The notice unit (10.2): the records of a notice as they are posted (10.5), hand-over and loss, NOTICES_LOST, the
consumer index, NIRQ and SET_NOTICES. -/

namespace Sys2Proof.Machine

open Sys2Proof

/-! ## Codes (10.5: the position of a value in the list its rule gives) -/

/-- The value of a two-valued field in a posted word: 1 for set, ON, ACTIVE or present, 0 for the other. DESIGN CHOICE (log 45): 10.5's
rule of positions is read for lists of values, and not for the registered level's "ACTIVE or INACTIVE" or the like. -/
def flagCode (b : Bool) : Int := if b then 1 else 0

/-- R1: DARK 0 to FAULT 7. -/
def LinkState.code : LinkState → Nat
  | .dark => 0
  | .listen => 1
  | .attach => 2
  | .standby => 3
  | .joining => 4
  | .active => 5
  | .quiescing => 6
  | .fault => 7

/-- R13's order. -/
def FaultCause.code : FaultCause → Nat
  | .noHello => 0
  | .lockLost => 1
  | .errors => 2
  | .ruRestart => 3
  | .planFail => 4
  | .rangeLost => 5

/-- R16's order: the five ordinary causes, then the fault causes. -/
def LinkCause.code : LinkCause → Nat
  | .order => 0
  | .hello => 1
  | .quiesced => 2
  | .planAccepted => 3
  | .planNotAccepted => 4
  | .fault c => 5 + c.code

/-- R40's order. -/
def RunCause.code : RunCause → Nat
  | .order => 0
  | .tracking => 1

/-- R40's order. -/
def RunOutcome.code : RunOutcome → Nat
  | .ok => 0
  | .timeout => 1
  | .jitter => 2
  | .aborted => 3

/-- R52's order. -/
def AlignCause.code : AlignCause → Nat
  | .joined _ => 0
  | .left _ => 1
  | .path _ _ => 2
  | .setGroup => 3
  | .holdExpired => 4

/-- The link an ALIGN's cause names, 0 where it names none (log 35). -/
def AlignCause.link : AlignCause → Nat
  | .joined l => l.val
  | .left l => l.val
  | .path l _ => l.val
  | .setGroup => 0
  | .holdExpired => 0

/-- The new P an ALIGN's cause names, 0 where it names none (log 35). -/
def AlignCause.newPath : AlignCause → Nat
  | .path _ p => p
  | .joined _ => 0
  | .left _ => 0
  | .setGroup => 0
  | .holdExpired => 0

/-- R23's order. -/
def itemCode : Item → Nat
  | .temp => 0
  | .outPower => 1
  | .feederRl => 2
  | .supply => 3

/-- R23's order. -/
def QueryOutcome.code : QueryOutcome → Nat
  | .data => 0
  | .rejected => 1
  | .timeout => 2
  | .aborted => 3
  | .linkDown => 4

/-- R63's order. -/
def Kind.code : Kind → Nat
  | .broadcast => 0
  | .mobile => 1
  | .rescue => 2

/-- R70's order. -/
def streamCode : StreamName → Nat
  | .normal => 0
  | .a => 1
  | .b => 2

/-- R111's order. -/
def LineMode.code : LineMode → Nat
  | .off => 0
  | .edge => 1
  | .level => 2

/-- R111's order. -/
def Channel.code : Channel → Nat
  | .a => 0
  | .b => 1

/-- R118's order. -/
def LineCause.code : LineCause → Nat
  | .asserted => 0
  | .released => 1
  | .setLine => 2

/-- R118's order. -/
def LineEffect.code : LineEffect → Nat
  | .latched => 0
  | .cleared => 1
  | .reported => 2

/-- R109: the cause of an INCIDENT: ORDER or LINE, the input, and 1 where its latch was set, 0 where it was cleared (DESIGN CHOICE,
log 45); ORDER leaves both 0 (log 35). -/
def IncidentCause.values : IncidentCause → List Int
  | .order => [0, 0, 0]
  | .line i latchSet => [1, i.val, flagCode latchSet]

/-- R129's order. -/
def OwnerCause.code : OwnerCause → Nat
  | .start => 0
  | .stop => 1
  | .lineSet _ => 2
  | .lineCleared _ => 3

/-- The contact input a BREAKIN_OWNER's cause names, 0 where it names none (log 35). -/
def OwnerCause.input : OwnerCause → Nat
  | .lineSet i => i.val
  | .lineCleared i => i.val
  | .start => 0
  | .stop => 0

/-- The mask of a set of indices, bit i for index i (10.5). -/
def maskOf (xs : List Nat) : Nat := xs.foldl (fun acc i => acc ||| 2 ^ i) 0

/-- 10.5: "Sets of links, services, zones and inputs are given as masks, with bit i for index i"; a mask that has its word alone stands
in the word's own bits (DEDUCED, log 41). -/
def maskWord (xs : List Nat) : PostWord := .bits (BitVec.ofNat 32 (maskOf xs))

/-- The mask of four alarm wires in the order of R1. 10.5 gives masks for sets of links, services, zones and inputs alone: that a set of
wires is one too is the model's (DESIGN CHOICE, log 48). -/
def wireMask (w : Vector Bool 4) : Nat := maskOf (([0, 1, 2, 3] : List (Fin 4)).filterMap (fun i => if w[i] then some i.val else none))

/-- The number in an optional field, 0 where it is absent (log 35). -/
def orZero (x : Option Nat) : Int := ((x.getD 0 : Nat) : Int)

/-! ## Records (10.5, Notice record) -/

/-- Word n of a notice of a kind, of which 10.5 names the fields in order but not their bits (log 8). -/
def noticeWord (kind n : Nat) (values : List Int) : PostWord := .fields (16 * kind + n) values

/-- A list of words 1 to 7, filled up with zeros (10.5: "it writes zero in every other bit it posts"). -/
def sevenWords (xs : List PostWord) : List PostWord := (xs ++ List.replicate 7 (PostWord.bits 0)).take 7

/-- The six counters in the order of R63. -/
def Counters.values (c : Counters) : List Int := [c.underrun, c.stale, c.early, c.misplaced, c.duplicate, c.lateWrite]

/-- The streams of a STREAM notice, one record each (R80, R174). That the records come in the order NORMAL, A, B is the model's: the spec
names none (DESIGN CHOICE, log 50). -/
def reportList (r : PerStream (Option StreamReport)) : List (StreamName × StreamReport) :=
  allStreams.filterMap (fun n => (r.get n).map (fun x => (n, x)))

/-- R40: RANGE_RESULT's 'round trips present': a mask with bit m for RTm. 10.5 does not say how the field is coded (DESIGN CHOICE,
log 48). -/
def roundTripMask (rts : Vector (Option Nat) 4) : Nat :=
  maskOf (([0, 1, 2, 3] : List (Fin 4)).filterMap (fun i => if (rts[i]).isSome then some i.val else none))

/-- R174: the records a notice takes (a STREAM's service always has its normal stream, so one at least). -/
def Notice.records : Notice → Nat
  | .stream _ _ r => max 1 (reportList r).length
  | .ownedWrite _ _ uplinks _ => if uplinks.length ≤ 5 then 1 else 1 + (uplinks.length + 1) / 7
  | _ => 1

/-- An uplink entry of an OWNED_WRITE: service 23..16, count 15..0. -/
def ownedEntry (x : ServiceIx × Nat) : PostWord := .bits (BitVec.ofNat 16 x.1.val ++ BitVec.ofNat 16 x.2)

/-- Words 1 to 7 of record k of a notice (R40, R174, 10.5). The coding of 'round trips present' and of 'wires cleared' is log 48's,
the order of a STREAM notice's records log 50's. -/
def Notice.body (n : Notice) (k : Nat) : List PostWord :=
  sevenWords (match n with
    | .linkState l old new cause cleared identity =>
      [noticeWord 1 1 [l.val, old.code, new.code, cause.code, wireMask cleared],
       noticeWord 1 2 [((identity.map (fun x => x.identity.toNat)).getD 0 : Nat)],
       noticeWord 1 3 [((identity.map (fun x => x.identity.toNat)).getD 0 : Nat)],
       noticeWord 1 4 [((identity.map (fun x => x.firmware.toNat)).getD 0 : Nat)]]
    | .rangeResult l runId cause outcome state rts spread turn latency delay path suspect valid failures failingMark =>
      [noticeWord 2 1 [l.val, runId.toNat, cause.code, outcome.code, state.code, roundTripMask rts,
         flagCode suspect, flagCode valid, failures, orZero failingMark],
       noticeWord 2 2 [orZero rts[0], orZero rts[1]], noticeWord 2 3 [orZero rts[2], orZero rts[3]],
       noticeWord 2 4 [orZero spread, orZero turn], noticeWord 2 5 [orZero latency, orZero delay], noticeWord 2 6 [orZero path]]
    | .align g cause before after hold flags =>
      [noticeWord 3 1 [g.val, cause.code, cause.link, flagCode before.isSome, flagCode after.isSome, flagCode hold.isSome],
       noticeWord 3 2 [cause.newPath], noticeWord 3 3 [orZero before, orZero after],
       noticeWord 3 4 [orZero (hold.map (fun h => h.candidate)), orZero (hold.map (fun h => h.count))],
       noticeWord 3 5 [maskOf (flags.map (fun f => f.1.val)), maskOf ((flags.filter (fun f => f.2)).map (fun f => f.1.val))]]
    | .alarm l wire on => [noticeWord 4 1 [l.val, (wireIx wire).val, flagCode on]]
    | .queryDone l item outcome orderTag data => [noticeWord 5 1 [l.val, itemCode item, outcome.code, orderTag.toNat], .bits data]
    | .planSwitched z planId entries shed toJoining =>
      [noticeWord 6 1 [z.val, planId.toNat], maskWord ((carriedOf entries).map (fun v => v.val)), maskWord (shed.map (fun v => v.val)),
       maskWord (toJoining.map (fun l => l.val))]
    | .stream v disabled r => (match (reportList r)[k]? with
      | none => []
      | some (n, x) =>
        [noticeWord 7 1 [v.val, streamCode n, flagCode x.starved, flagCode x.starvedSet, flagCode x.starvedCleared, flagCode disabled],
         noticeWord 7 2 x.increments.values, noticeWord 7 3 x.increments.values, noticeWord 7 4 x.increments.values,
         noticeWord 7 5 x.totals.values, noticeWord 7 6 x.totals.values, noticeWord 7 7 x.totals.values])
    | .uplink v sums =>
      [noticeWord 8 1 [v.val, flagCode sums.disabled], noticeWord 8 2 [sums.appended, sums.dropped],
       noticeWord 8 3 [sums.clips, sums.partials]]
    | .ownedWrite page ring uplinks first =>
      if k = 0 then
        [noticeWord 9 1 [page, ring],
         .bits (BitVec.ofBool first.isSome ++ BitVec.ofNat 1 0 ++ BitVec.ofNat 30 (first.getD 0))] ++ (uplinks.take 5).map ownedEntry
      else ((uplinks.drop (5 + 7 * (k - 1))).take 7).map ownedEntry
    | .incident z before after hostFlag inputs cause =>
      [noticeWord 10 1 ([(z.val : Int), flagCode before, flagCode after, flagCode hostFlag, maskOf (inputs.map (fun i => i.val))] ++
        cause.values)]
    | .lineEvent i mode cause effect level latch acked block =>
      [noticeWord 11 1 [i.val, mode.code, cause.code, effect.code, flagCode level, flagCode latch, flagCode acked],
       noticeWord 11 2 [block.toNat]]
    | .breakinOwner z old new part cause =>
      [noticeWord 12 1 [z.val, orZero (old.map (fun x => x.val)), flagCode old.isSome, orZero (new.map (fun x => x.val)),
         flagCode new.isSome, orZero (part.map (fun p => p.priority)), orZero (part.map (fun p => p.channel.code)), cause.code,
         cause.input],
       .bits ((part.map (fun p => p.stamp)).getD 0)]
    | .noticesLost counts =>
      [noticeWord 13 1 [counts[0], counts[1]], noticeWord 13 2 [counts[2], counts[3]], noticeWord 13 3 [counts[4], counts[5]],
       noticeWord 13 4 [counts[6], counts[7]], noticeWord 13 5 [counts[8], counts[9]], noticeWord 13 6 [counts[10], counts[11]],
       noticeWord 13 7 [counts[12]]])

/-- 10.5: word 0 of record k of a notice with record sequence q: 15..0 sequence, 23..16 kind, 24 urgent, 26..25 record number,
29..27 records. -/
def Notice.header (n : Notice) (k : Nat) (q : Seq16) : Word :=
  BitVec.ofNat 2 0 ++ BitVec.ofNat 3 n.records ++ BitVec.ofNat 2 k ++ BitVec.ofBool n.urgent ++ BitVec.ofNat 8 n.kindCode ++ q

/-- R174: the byte address of the record of sequence q. -/
def MemPath.recordAddr (m : MemPath) (q : Seq16) : Nat := m.windowBase + 0x2000 + 32 * (q.toNat % 64)

/-- R174: the posting of record k of a notice at sequence q. -/
def Notice.posting (n : Notice) (k : Nat) (q : Seq16) (m : MemPath) : Posting :=
  { producer := .noticeUnit, addr := m.recordAddr q, words := .bits (n.header k q) :: n.body k }

/-! ## Hand-over -/

/-- R174: the notice unit once record k of the notice it is handing over has gone to the posting queue: W goes up by 1, and HOLD is
entered where F is at or below the hold threshold. -/
def NoticeUnit.recordHanded (u : NoticeUnit) (n : Notice) (k : Nat) : NoticeUnit :=
  { u with written := u.written + 1, handing := if n.records ≤ k + 1 then none else some (n, k + 1) }.enterHold

/-- R174, R159: the next record of the notice being handed over goes to the posting queue if it has room, else waits. -/
def State.handRecord (s : State) : State :=
  match s.notices.handing with
  | none => s
  | some (n, k) =>
    if s.path.hasRoom then
      (s.modPath (fun m => m.push (n.posting k s.notices.written m))).modNotices (fun u => u.recordHanded n k)
    else s

/-- R174: whether a notice is handed over. -/
def NoticeUnit.admits (u : NoticeUnit) (n : Notice) : Bool :=
  decide (n.records ≤ u.free) && (u.holdState == .normal || n.urgent)

/-- R174: the notice unit decides on notice n, the head of its queue, with `rest` behind it. -/
def NoticeUnit.decide (u : NoticeUnit) (n : Notice) (rest : List Notice) : NoticeUnit :=
  if u.admits n then { u with queue := rest, handing := some (n, 0) } else { u with queue := rest }.lose n

/-- R174, NOTICE_HANDOVER where the unit may take a notice. -/
def State.noticeHandover (s : State) : State :=
  if s.notices.handing.isSome || s.notices.owed then s
  else (match s.notices.queue with
    | [] => s
    | n :: rest => (s.modNotices (fun u => u.decide n rest)).handRecord)

/-- R175, NOTICES_LOST where one is owed and no other record is being handed over. -/
def State.noticesLost (s : State) : State :=
  if s.notices.owed && s.notices.handing.isNone && decide (1 ≤ s.notices.free) then
    (s.modNotices (fun u => { u with handing := some (.noticesLost u.lost, 0), lost := Vector.replicate 13 0 })).handRecord
  else s

/-- R174, R176: a notice record's posting has completed: NP goes up by 1 and NIRQ follows. -/
def NoticeUnit.recordPosted (u : NoticeUnit) : NoticeUnit := { u with posted := u.posted + 1 }.refreshIrq

/-! ## The consumer index and SET_NOTICES -/

/-- R176: a write of the notice consumer index. -/
def NoticeUnit.takeConsumer (u : NoticeUnit) (w : BusWord) : NoticeUnit :=
  if w.enables.getLsbD 0 && w.enables.getLsbD 1 then
    let v : Seq16 := w.data.extractLsb' 0 16
    if (v - u.consumed).toNat ≤ (u.posted - u.consumed).toNat then ({ u with consumed := v }.leaveHold).refreshIrq
    else { u with rejected := bump16 u.rejected }
  else u

/-- SET_NOTICES (R176). -/
def orderSetNotices (o : Order) (s : State) : State × OrderResult :=
  match onOff o.p2 with
  | none => (s, .refused .badValue)
  | some on =>
    let resume := fieldAt o.p1 16 16
    let hold := fieldAt o.p1 0 16
    let resumeC := clampNat 1 64 resume
    let holdC := clampNat 0 (resumeC - 1) hold
    (s.modNotices (fun u => ({ u with holdAt := holdC, resumeAt := resumeC, irqEnable := on }.enterHold).leaveHold.refreshIrq),
      doneOr (resumeC != resume || holdC != hold))

/-! ## The steps -/

/-- NOTICE_HANDOVER (R174): where the unit may not take a notice nothing happens (log 4). -/
def execNoticeHandover (s : State) : Host.Outcome State Fault Refusal := s.running s.noticeHandover.arbitrated

/-- NOTICES_LOST (R175): where none is owed nothing happens (log 4). -/
def execNoticesLost (s : State) : Host.Outcome State Fault Refusal := s.running s.noticesLost.arbitrated

end Sys2Proof.Machine
end

