-- ==== Sys2Proof/Machine/StatusPage.lean ====
section
/-! DEFINITION. The status page (10.3): its 512 words in the layout of 10.5, and its postings. -/

namespace Sys2Proof.Machine

open Sys2Proof

/-- Word n of part `part` of the status page, of which 10.5 names the fields in order but not their bits (log 8). -/
def pageWord (part n : Nat) (values : List Int) : PostWord := .fields (1024 + 16 * part + n) values

/-- A list of words filled up with zeros to n words (10.5: "it writes zero in every other bit it posts"). -/
def wordsTo (n : Nat) (xs : List PostWord) : List PostWord := xs ++ List.replicate (n - xs.length) (PostWord.bits 0)

/-- The mask of a set of zones, services or links given by a test on a list of indices. -/
def maskWhere {n : Nat} (xs : List (Fin n)) (f : Fin n → Bool) : Int := ((maskOf ((xs.filter f).map (fun i => i.val)) : Nat) : Int)

/-- The word of a mask given by a test on the services (DEDUCED, log 41). -/
def servicesWord (f : ServiceIx → Bool) : PostWord := maskWord ((allServices.filter f).map (fun v => v.val))

/-- R173's order. -/
def HoldState.code : HoldState → Nat
  | .normal => 0
  | .hold => 1

/-- R91's order. -/
def Purpose.code : Purpose → Nat
  | .switch => 0
  | .join => 1

/-- R91's order. -/
def Standing.code : Standing → Nat
  | .waiting => 0
  | .accepted => 1
  | .failed => 2

/-- R63's order. -/
def ServiceState.code : ServiceState → Nat
  | .free => 0
  | .defined => 1
  | .enabled => 2

/-- 0x1000–0x103F: the header. -/
def State.pageHeader (s : State) : List PostWord :=
  let u := s.notices
  wordsTo 16
    [pageWord 0 0 [s.time.superframe.toNat, s.time.block.toNat],
     pageWord 0 1 [s.orders.consumer.val, s.orders.producer.val, s.orders.rejected],
     pageWord 0 2 [u.posted.toNat, u.consumed.toNat],
     pageWord 0 3 [u.holdState.code, u.holdAt, u.resumeAt, flagCode u.irqEnable, u.queue.length, flagCode u.nirq],
     pageWord 0 4 [u.rejected, s.poster.pagesCut.toNat],
     pageWord 0 5 [s.path.queue.length, flagCode s.path.pressure, s.path.pressureEntries],
     pageWord 0 6 [s.path.largest],
     .bits s.arbiter.counter]

/-- 0x1040–0x143F: link l (R26, R57, R91). The alarm wires as a mask are log 48's, the identity in words 4 and 5 log 36's. -/
def State.pageLink (s : State) (l : LinkIx) : List PostWord :=
  let x := s.link l
  let m := x.mgr
  let identity : Int := ((m.identity.map (fun i => i.identity.toNat)).getD 0 : Nat)
  wordsTo 16
    [pageWord 1 0 [m.state.code, x.settings.zone.val, x.settings.group.val, wireMask m.wires, flagCode x.rng.valid,
       flagCode x.rng.suspect, flagCode x.align.slewing, flagCode x.align.outOfReach, flagCode m.identity.isSome,
       (allTags.filter (fun t => (m.outstanding[t]).isSome)).length, m.pendingQueue.length],
     pageWord 1 1 [x.align.k, x.align.kStar],
     pageWord 1 2 [x.rng.delay, x.rng.path],
     pageWord 1 3 [x.rng.turn, x.rng.latency],
     pageWord 1 4 [identity],
     pageWord 1 5 [identity],
     pageWord 1 6 [((m.identity.map (fun i => i.firmware.toNat)).getD 0 : Nat), x.rng.failures, x.rng.outliers],
     pageWord 1 7 [m.erroredFrames, m.unexpected],
     pageWord 1 8 [m.unsupported, m.violations],
     pageWord 1 9 [x.rng.missingEchoes, x.rng.runCounter.toNat, flagCode x.rng.run.isSome],
     pageWord 1 10 [orZero (x.exchange.map (fun e => e.purpose.code)), orZero (x.exchange.map (fun e => e.standing.code)),
       orZero (x.exchange.map (fun e => e.attempts)), orZero (x.exchange.map (fun e => e.m.toNat))],
     pageWord 1 11 [x.settings.power, x.settings.jitter, x.settings.gateHold],
     pageWord 1 12 [x.settings.asymmetry, x.settings.cable],
     pageWord 1 13 [x.settings.gain]]

/-- 0x1440–0x147F: group g (R57). -/
def State.pageGroup (s : State) (g : GroupIx) : List PostWord :=
  let x := s.group g
  wordsTo 4
    [pageWord 2 0 [x.guard, x.slew],
     pageWord 2 1 [orZero x.target, flagCode x.target.isSome, orZero (x.hold.map (fun h => h.candidate))],
     pageWord 2 2 [orZero (x.hold.map (fun h => h.count)), flagCode x.hold.isSome, maskWhere allLinks (s.isMember g)]]

/-- The channel of the break-in stream a selection record holds, if it holds one (R136). -/
def breakInChannel (n : Option StreamName) : Option Channel :=
  match n with
  | some .a => some .a
  | some .b => some .b
  | _ => none

/-- R136: the services whose selection record in zone z holds a break-in stream, each with its channel, in ascending service index. -/
def State.breakIns (s : State) (z : ZoneIx) : List (ServiceIx × Channel) :=
  allServices.filterMap (fun v => (breakInChannel (s.zone z).selection[v]).map (fun c => (v, c)))

/-- 0x1480–0x157F: zone z (R103, R121, R136). 10.5 gives the break-in streams a mask alone; their channels stay in the snapshot
(log 44). -/
def State.pageZone (s : State) (z : ZoneIx) : List PostWord :=
  let x := s.zone z
  let stagedEntries := match x.staged with
    | some p => carriedOf p.entries
    | none => []
  let stagedShed := match x.staged with
    | some p => p.shed
    | none => []
  wordsTo 8
    [pageWord 3 0 [flagCode x.incident, flagCode x.hostFlag, flagCode x.crossfade, orZero (x.owner.map (fun o => o.val)),
       flagCode x.owner.isSome, orZero ((s.ownerChannel z).map (fun c => c.code)), flagCode x.deferred, flagCode x.staged.isSome,
       x.planId.toNat, orZero (x.staged.map (fun p => p.planId.toNat))],
     pageWord 3 1 [orZero (x.staged.map (fun p => p.n.toNat))],
     servicesWord (fun v => (carriedOf x.entries).contains v),
     servicesWord (fun v => x.shed.contains v),
     servicesWord (fun v => stagedEntries.contains v),
     servicesWord (fun v => stagedShed.contains v),
     servicesWord (fun v => (breakInChannel x.selection[v]).isSome)]

/-- Whether stream n of a service is STARVED. -/
def Service.starvedOf (x : Service) (n : StreamName) : Bool :=
  match x.streams.get n with
  | some r => r.starved
  | none => false

/-- 0x1580–0x16FF: service v (R69, R152). -/
def State.pageService (s : State) (v : ServiceIx) : List PostWord :=
  let x := s.service v
  let supplied := x.state == .enabled && x.ring.isSome
  wordsTo 4
    [pageWord 4 0 [x.state.code, x.kind.code, flagCode (x.starvedOf .a), flagCode (x.starvedOf .b)],
     pageWord 4 1 (if supplied then [orZero (x.lastAppended.map (fun q => q.toNat)), flagCode x.lastAppended.isSome,
       flagCode (s.combiner.workList.any (fun b => b.service == v))] else [0, 0, 0]),
     pageWord 4 2 [if supplied then (x.droppedBefore : Int) else 0]]

/-- 0x1700–0x170F: contact input i (R121). -/
def State.pageInput (s : State) (i : InputIx) : List PostWord :=
  let c := s.input i
  [pageWord 5 0 [c.mode.code, c.mask.toNat, c.priority, c.channel.code, flagCode c.incidentFlag, flagCode c.latch, flagCode c.acked,
     flagCode c.level]]

/-- The position of a source in the activation list (R136). DESIGN CHOICE (log 47): the head is position 0. -/
def listPosition (x : SourceIx) (xs : List SourceIx) : Nat := xs.findIdx (fun y => y == x)

/-- 0x1710–0x174F: break-in source x (R136). -/
def State.pageSource (s : State) (x : SourceIx) : List PostWord :=
  match s.arbiter.parts[x] with
  | some p => [pageWord 6 0 [1, p.mask.toNat, p.priority, p.channel.code, listPosition x s.arbiter.list], .bits p.stamp]
  | none => [pageWord 6 0 [0, 0, 0, 0, 0], .bits 0]

/-- The eight break-in sources in ascending index. -/
def allSources : List SourceIx := [0, 1, 2, 3, 4, 5, 6, 7]

/-- R177, 10.5: the 512 words of a snapshot; the last is the closing copy of the superframe counter at 0x17FC. -/
def State.pageWords (s : State) : List PostWord :=
  wordsTo 511 (s.pageHeader ++ (allLinks.map s.pageLink).flatten ++ (allGroups.map s.pageGroup).flatten ++
    (allZones.map s.pageZone).flatten ++ (allServices.map s.pageService).flatten ++ (allInputs.map s.pageInput).flatten ++
    (allSources.map s.pageSource).flatten) ++ [pageWord 7 0 [s.time.superframe.toNat]]

/-- R177, R167: the snapshot of a superframe boundary: an unfinished page is abandoned and counted, the new page begins from its first
posting, and the largest occupancy starts again from the present count. -/
def State.snapshot (s : State) : State :=
  let t : State := { s with poster := { s.poster with
    pagesCut := if s.poster.page.isSome then s.poster.pagesCut + 1 else s.poster.pagesCut } }
  { t with
    poster := { t.poster with page := some { words := t.pageWords, handed := 0, breakIns := Vector.ofFn (fun z : Fin 8 => t.breakIns z) } }
    path := { t.path with largest := t.path.queue.length } }

/-- R177: the posting the status poster hands over next, if a page is in progress. -/
def State.pagePosting (s : State) : Option Posting :=
  s.poster.page.map (fun p =>
    { producer := .statusPoster, addr := s.path.windowBase + 0x1000 + 32 * p.handed, words := (p.words.drop (8 * p.handed)).take 8 })

/-- R177: the poster once a posting of its page has been enqueued; the page is removed when its last has. -/
def State.pageHanded (s : State) : State :=
  { s with poster := { s.poster with page := match s.poster.page with
    | none => none
    | some p => if 64 ≤ p.handed + 1 then none else some { p with handed := p.handed + 1 } } }

end Sys2Proof.Machine
end

