-- ==== Sys2Proof/Machine/Orders.lean ====
section
/-! DEFINITION. The order unit (10.1): the shadow, the producer index, taking an order, its result, and the order commands. -/

namespace Sys2Proof.Machine

open Sys2Proof

/-! ## Taking an order -/

/-- An order with code 0 or above 20 (R172). -/
def orderUnknown (_o : Order) (s : State) : State × OrderResult := (s, .refused .unknownOrder)

/-- R172: the order is handed to its owning block, which checks and takes it. -/
def takeByCode (o : Order) (s : State) : State × OrderResult :=
  match o.code.toNat with
  | 1 => orderSetService o s
  | 2 => orderEnableService o s
  | 3 => orderDisableService o s
  | 4 => orderClearService o s
  | 5 => orderSetLink o s
  | 6 => orderLinkListen o s
  | 7 => orderLinkRange o s
  | 8 => orderLinkActivate o s
  | 9 => orderLinkQuiesce o s
  | 10 => orderLinkAbort o s
  | 11 => orderLinkDark o s
  | 12 => orderLinkQuery o s
  | 13 => orderSetGroup o s
  | 14 => orderSetZone o s
  | 15 => orderZoneIncident o s
  | 16 => orderSetLine o s
  | 17 => orderLineAck o s
  | 18 => orderBreakinStart o s
  | 19 => orderBreakinStop o s
  | 20 => orderSetNotices o s
  | _ => orderUnknown o s

/-- R171, 10.5: the result posting of a slot: one word, at its word 7. -/
def resultPosting (windowBase : Nat) (slot : Fin 32) (r : OrderResult) (tag : BitVec 16) : Posting :=
  { producer := .orderUnit, addr := windowBase + 32 * slot.val + 28, words := [.bits (resultWord r tag)] }

/-- R171: order o, in `slot`, is taken: its effects are made, the slot is executing, and its result goes to the posting queue. -/
def State.execute (s : State) (slot : Fin 32) (o : Order) : State :=
  let t := takeByCode o s
  (t.1.modOrders (fun u => { u with executing := some slot })).handResult (resultPosting s.path.windowBase slot t.2 o.tag)

/-- R171: the order in the slot at the consumer index is taken when that slot is frozen and no order is executing. -/
def State.takeNext (s : State) : State :=
  let u := s.orders
  if u.executing.isNone && u.frozen u.consumer then s.execute u.consumer (orderOfWords u.shadow[u.consumer]) else s

/-- R171: the executing order's result posting has completed. -/
def State.resultLanded (s : State) : State :=
  (s.modOrders (fun u => { u with executing := none, consumer := u.consumer + 1 })).takeNext

/-! ## The host's writes -/

/-- R169: a word of the order ring, at an offset of the control window. -/
def OrderUnit.takeSlotWord (u : OrderUnit) (off : Nat) (w : BusWord) : OrderUnit :=
  let slot : Fin 32 := Fin.ofNat 32 (off / 32)
  if h : (off % 32) / 4 < 7 then
    if u.frozen slot then u
    else
      let old := u.shadow[slot]
      { u with shadow := u.shadow.set slot (old.set ((off % 32) / 4) (mergeBytes old[(off % 32) / 4] w.data w.enables)) }
  else u

/-- R170: a new producer index p. -/
def State.takeProducer (s : State) (p : Fin 32) : State :=
  let ahead := (p - s.orders.consumer).val
  if s.orders.pendingCount < ahead then (s.modOrders (fun u => { u with producer := p })).takeNext
  else if ahead = s.orders.pendingCount then s
  else s.modOrders (fun u => { u with rejected := bump16 u.rejected })

/-- R170: a write of the producer index word. -/
def State.takeProducerWord (s : State) (w : BusWord) : State :=
  if w.enables.getLsbD 0 then s.takeProducer (Fin.ofNat 32 (fieldAt w.data 0 5)) else s

/-! ## The order commands (log 6): the host fills the next slot and advances the producer index over it -/

/-- R169, R170: order o is written into the slot at the producer index, which is then advanced by one. -/
def State.submit (s : State) (o : Order) : State :=
  let slot := s.orders.producer
  ((s.modOrders (fun u => { u with shadow := u.shadow.set slot (wordsOfOrder o) })).takeProducer (slot + 1)).arbitrated

/-- An order of a code with no parameter words. -/
def plainOrder (code : BitVec 8) (index : BitVec 8) (tag : BitVec 16) : Order :=
  { code := code, index := index, tag := tag, p1 := 0, p2 := 0, p3 := 0, p4 := 0, p5 := 0, p6 := 0 }

/-- SET_SERVICE, code 1. -/
def execSetService (index : BitVec 8) (tag : BitVec 16) (w1 w2 w3 w4 w5 w6 : Word) (s : State) : Host.Outcome State Fault Refusal :=
  s.running (s.submit { code := 1, index := index, tag := tag, p1 := w1, p2 := w2, p3 := w3, p4 := w4, p5 := w5, p6 := w6 })

/-- ENABLE_SERVICE, code 2. -/
def execEnableService (index : BitVec 8) (tag : BitVec 16) (s : State) : Host.Outcome State Fault Refusal :=
  s.running (s.submit (plainOrder 2 index tag))

/-- DISABLE_SERVICE, code 3. -/
def execDisableService (index : BitVec 8) (tag : BitVec 16) (s : State) : Host.Outcome State Fault Refusal :=
  s.running (s.submit (plainOrder 3 index tag))

/-- CLEAR_SERVICE, code 4. -/
def execClearService (index : BitVec 8) (tag : BitVec 16) (s : State) : Host.Outcome State Fault Refusal :=
  s.running (s.submit (plainOrder 4 index tag))

/-- SET_LINK, code 5. -/
def execSetLink (index : BitVec 8) (tag : BitVec 16) (w1 w2 w3 w4 : Word) (s : State) : Host.Outcome State Fault Refusal :=
  s.running (s.submit { plainOrder 5 index tag with p1 := w1, p2 := w2, p3 := w3, p4 := w4 })

/-- LINK_LISTEN, code 6. -/
def execLinkListen (index : BitVec 8) (tag : BitVec 16) (s : State) : Host.Outcome State Fault Refusal :=
  s.running (s.submit (plainOrder 6 index tag))

/-- LINK_RANGE, code 7. -/
def execLinkRange (index : BitVec 8) (tag : BitVec 16) (s : State) : Host.Outcome State Fault Refusal :=
  s.running (s.submit (plainOrder 7 index tag))

/-- LINK_ACTIVATE, code 8. -/
def execLinkActivate (index : BitVec 8) (tag : BitVec 16) (s : State) : Host.Outcome State Fault Refusal :=
  s.running (s.submit (plainOrder 8 index tag))

/-- LINK_QUIESCE, code 9. -/
def execLinkQuiesce (index : BitVec 8) (tag : BitVec 16) (s : State) : Host.Outcome State Fault Refusal :=
  s.running (s.submit (plainOrder 9 index tag))

/-- LINK_ABORT, code 10. -/
def execLinkAbort (index : BitVec 8) (tag : BitVec 16) (s : State) : Host.Outcome State Fault Refusal :=
  s.running (s.submit (plainOrder 10 index tag))

/-- LINK_DARK, code 11. -/
def execLinkDark (index : BitVec 8) (tag : BitVec 16) (s : State) : Host.Outcome State Fault Refusal :=
  s.running (s.submit (plainOrder 11 index tag))

/-- LINK_QUERY, code 12. -/
def execLinkQuery (index : BitVec 8) (tag : BitVec 16) (w1 : Word) (s : State) : Host.Outcome State Fault Refusal :=
  s.running (s.submit { plainOrder 12 index tag with p1 := w1 })

/-- SET_GROUP, code 13. -/
def execSetGroup (index : BitVec 8) (tag : BitVec 16) (w1 : Word) (s : State) : Host.Outcome State Fault Refusal :=
  s.running (s.submit { plainOrder 13 index tag with p1 := w1 })

/-- SET_ZONE, code 14. -/
def execSetZone (index : BitVec 8) (tag : BitVec 16) (w1 : Word) (s : State) : Host.Outcome State Fault Refusal :=
  s.running (s.submit { plainOrder 14 index tag with p1 := w1 })

/-- ZONE_INCIDENT, code 15. -/
def execZoneIncident (index : BitVec 8) (tag : BitVec 16) (w1 w2 : Word) (s : State) : Host.Outcome State Fault Refusal :=
  s.running (s.submit { plainOrder 15 index tag with p1 := w1, p2 := w2 })

/-- SET_LINE, code 16. -/
def execSetLine (index : BitVec 8) (tag : BitVec 16) (w1 w2 : Word) (s : State) : Host.Outcome State Fault Refusal :=
  s.running (s.submit { plainOrder 16 index tag with p1 := w1, p2 := w2 })

/-- LINE_ACK, code 17. -/
def execLineAck (index : BitVec 8) (tag : BitVec 16) (s : State) : Host.Outcome State Fault Refusal :=
  s.running (s.submit (plainOrder 17 index tag))

/-- BREAKIN_START, code 18. -/
def execBreakinStart (index : BitVec 8) (tag : BitVec 16) (w1 : Word) (s : State) : Host.Outcome State Fault Refusal :=
  s.running (s.submit { plainOrder 18 index tag with p1 := w1 })

/-- BREAKIN_STOP, code 19. -/
def execBreakinStop (index : BitVec 8) (tag : BitVec 16) (s : State) : Host.Outcome State Fault Refusal :=
  s.running (s.submit (plainOrder 19 index tag))

/-- SET_NOTICES, code 20. -/
def execSetNotices (index : BitVec 8) (tag : BitVec 16) (w1 w2 : Word) (s : State) : Host.Outcome State Fault Refusal :=
  s.running (s.submit { plainOrder 20 index tag with p1 := w1, p2 := w2 })

/-- UNKNOWN_ORDER (R172): an order with a code of 0 or above 20. -/
def execUnknownOrder (code : BitVec 8) (index : BitVec 8) (tag : BitVec 16) (s : State) : Host.Outcome State Fault Refusal :=
  s.running (s.submit (plainOrder code index tag))

end Sys2Proof.Machine
end

