-- ==== Sys2Proof/Machine/MemoryPath.lean ====
section
/-! DEFINITION. The memory path (chapter 9): host accesses from arrival to completion, completions at the memory port, and the
producers' hand-over of postings. -/

namespace Sys2Proof.Machine

open Sys2Proof

/-! ## What a posting writes -/

/-- The bits of a posted word; where 10.5 gives fields without bit positions they are the free value of log 8. -/
def PostWord.toWord : PostWord → Word
  | .bits w => w
  | .fields kind values => Config.packFields kind values

/-- R159, R160: the words the memory port drives for a posting, all with every byte enabled. The DRAM that takes them is not state of
the part (R153). -/
def Posting.driven (p : Posting) : List Word := p.words.map PostWord.toWord

/-! ## Release marks -/

/-- The word addresses a posting writes. -/
def Posting.wordAddrs (p : Posting) : List (BitVec 28) := accessAddrs (BitVec.ofNat 28 (p.addr / 4)) p.words.length

/-- R162: whether a posting writes a word among these. -/
def Posting.overlaps (p : Posting) (addrs : List (BitVec 28)) : Bool := p.wordAddrs.any (fun a => addrs.contains a)

/-- R162: the position of the youngest queued entry that overlaps any of these words. -/
def releaseMark : List Posting → List (BitVec 28) → Option Nat
  | [], _ => none
  | p :: rest, addrs => (match releaseMark rest addrs with
    | some k => some (k + 1)
    | none => if p.overlaps addrs then some 0 else none)

/-- R163: the position of the youngest entry of the queue. -/
def youngest (q : List Posting) : Option Nat := if q.isEmpty then none else some (q.length - 1)

/-- R155 steps 4 and 5: the standing of an access with a release mark or without one. -/
def standingOf (mark : Option Nat) : AccessStanding :=
  match mark with
  | some k => .held k
  | none => .waiting

/-! ## Arrival (R155) -/

/-- R156: a tapped word reaches its unit; `off` is its offset in the control window. -/
def State.tapWord (s : State) (x : AccessWord) : State :=
  let w : BusWord := { data := x.data, enables := x.enables }
  match x.place with
  | .orderRing => s.modOrders (fun u => u.takeSlotWord (4 * x.addr.toNat - s.path.windowBase) w)
  | .producerIndex => s.takeProducerWord w
  | .consumerIndex => s.modNotices (fun u => u.takeConsumer w)
  | .stream v n => s.modService v (fun y => y.takeWord n s.period (4 * x.addr.toNat) w)
  | .flushWord => s
  | .statusPage => s
  | .noticeRing => s
  | .windowRest => s
  | .ring _ => s
  | .elsewhere => s

/-- R157: a word of an owned place keeps its place in the access with all its byte enables cleared. -/
def AccessWord.withheld (x : AccessWord) : AccessWord := if x.place.owned then { x with enables := 0 } else x

/-- R157: the owned-write count of a place goes up by 1. -/
def MemPath.countOwned (m : MemPath) (p : Place) : MemPath :=
  match p with
  | .statusPage => { m with ownedPage := bump16 m.ownedPage }
  | .noticeRing => { m with ownedRing := bump16 m.ownedRing }
  | .ring v => { m with ownedUplink := m.ownedUplink.set v (bump16 m.ownedUplink[v]) }
  | _ => m

/-- R157: the account of a write access whose first withheld word is x. -/
def MemPath.withhold (m : MemPath) (words : List AccessWord) : MemPath :=
  match words.find? (fun x => x.place.owned) with
  | none => m
  | some x =>
    let y := m.countOwned x.place
    { y with firstOwned := some (y.firstOwned.getD (4 * x.addr.toNat)) }

/-- R155: an access stands in the part from now on. -/
def MemPath.admitAccess (m : MemPath) (a : HostAccess) : MemPath := { m with access := some a }

/-- R165: an access of an arrival during RESET, passing straight through. -/
def passThroughAccess (isWrite : Bool) (words : List AccessWord) : HostAccess :=
  { isWrite := isWrite, passThrough := true, words := words.map (fun x => { x with place := .elsewhere }), standing := .waiting }

/-- R155 steps 3 and 4: a classified write, once its tapped words have reached their units, is withheld or admitted. -/
def State.admitWrite (s : State) (words : List AccessWord) : State :=
  let t := s.modPath (fun m => m.withhold words)
  let left := words.filter (fun x => !x.place.owned)
  if left.isEmpty then t
  else t.modPath (fun m => m.admitAccess
    { isWrite := true, passThrough := false, words := words.map AccessWord.withheld,
      standing := standingOf (releaseMark m.queue (left.map (fun x => x.addr))) })

/-- R155, R165: a host write arrives; one that arrives while another is still in the part is turned away (log 7). -/
def State.hostWrite (s : State) (a : BitVec 28) (ws : List BusWord) : State :=
  if s.path.access.isSome then s
  else if s.path.inReset then (s.modPath (fun m => m.admitAccess (passThroughAccess true (s.writeWords a ws)))).arbitrated
  else
    let words := s.writeWords a ws
    ((words.foldl State.tapWord s).admitWrite words).arbitrated

/-- R162, R163: the release mark of a read. -/
def MemPath.readMark (m : MemPath) (words : List AccessWord) : Option Nat :=
  if words.any (fun x => x.place == .flushWord) then youngest m.queue else releaseMark m.queue (words.map (fun x => x.addr))

/-- R155, R162, R163, R165: a host read arrives. -/
def State.hostRead (s : State) (a : BitVec 28) (n : Nat) : State :=
  if s.path.access.isSome then s
  else
    let words := s.readWords a n
    if s.path.inReset then (s.modPath (fun m => m.admitAccess (passThroughAccess false words))).arbitrated
    else (s.modPath (fun m => m.admitAccess
      { isWrite := false, passThrough := false, words := words, standing := standingOf (m.readMark words) })).arbitrated

/-! ## Completion at the memory port -/

/-- R162: the standing of an access once the head entry of the queue has completed. -/
def AccessStanding.afterHead : AccessStanding → AccessStanding
  | .held 0 => .waiting
  | .held (k + 1) => .held k
  | .waiting => .waiting
  | .inMemory => .inMemory

/-- R159, R161, R162: the memory path once the write of its head entry has completed. -/
def MemPath.headDone (m : MemPath) : MemPath :=
  { m with
    queue := m.queue.tail
    port := .idle
    pressure := m.pressure && m.queue.length - 1 != 16
    access := m.access.map (fun a => { a with standing := a.standing.afterHead }) }

/-- R159: the completion of a posting is reported to its producer. -/
def State.reportCompletion (s : State) (p : Producer) : State :=
  match p with
  | .orderUnit => s.resultLanded
  | .noticeUnit => s.modNotices NoticeUnit.recordPosted
  | .statusPoster => s
  | .combiner => s

/-- R159: whether a producer has a posting to hand over. -/
def State.hasPosting (s : State) (p : Producer) : Bool :=
  match p with
  | .orderUnit => s.orders.result.isSome
  | .noticeUnit => s.notices.handing.isSome
  | .statusPoster => s.poster.page.isSome
  | .combiner => s.combinerPosting.isSome

/-- R159: the order unit's waiting result posting joins the queue. -/
def State.handWaitingResult (s : State) : State :=
  match s.orders.result with
  | some x => (s.modPath (fun m => m.push x)).modOrders (fun u => { u with result := none })
  | none => s

/-- R159, R177: the next posting of the status page joins the queue. -/
def State.handPage (s : State) : State :=
  match s.pagePosting with
  | some x => (s.modPath (fun m => m.push x)).pageHanded
  | none => s

/-- R149, R159: the next posting of the oldest combined block joins the queue. -/
def State.handBlock (s : State) : State :=
  match s.combinerPosting with
  | some x => (s.modPath (fun m => m.push x)).combinerHanded
  | none => s

/-- R159: producer p's next posting joins the queue if it has room; otherwise p waits with it. -/
def State.enqueueFrom (s : State) (p : Producer) : State :=
  if s.path.hasRoom then
    match p with
    | .orderUnit => s.handWaitingResult
    | .noticeUnit => s.handRecord
    | .statusPoster => s.handPage
    | .combiner => s.handBlock
  else s

/-- R159: the rank in which a freed entry is handed to the producers. -/
def producerRank : List Producer := [.orderUnit, .noticeUnit, .statusPoster, .combiner]

/-- R159: the highest-ranked producer with a posting is served. -/
def State.serve (s : State) : State :=
  match producerRank.find? s.hasPosting with
  | some p => s.enqueueFrom p
  | none => s

/-- R159 to R162: the write of head entry p completes. -/
def State.completeHead (s : State) (p : Posting) : State :=
  let t := (s.modPath MemPath.headDone).reportCompletion p.producer
  if s.path.hasRoom then t else t.serve

/-- R155, R159, R165: the access under way at the memory port completes. -/
def State.completePort (s : State) : State :=
  match s.path.port with
  | .idle => s
  | .host => s.modPath (fun m => { m with port := .idle, access := none })
  | .orphan _ => s.modPath (fun m => { m with port := .idle })
  | .posting => (match s.path.queue with
    | p :: _ => s.completeHead p
    | [] => s.modPath (fun m => { m with port := .idle }))

/-- R162: a HELD access whose release mark has left the queue becomes WAITING. -/
def MemPath.release (m : MemPath) : MemPath :=
  { m with access := m.access.map (fun a => { a with standing := .waiting }) }

/-- R162 (log 11): the release mark of the HELD access completes: it is the entry under way, or it has left the queue already. -/
def State.releaseHeld (s : State) : State :=
  match s.path.access with
  | some a => (match a.standing with
    | .held k =>
      if k = 0 ∧ s.path.port = .posting then s.completePort
      else if s.path.queue.length ≤ k then s.modPath MemPath.release
      else s
    | _ => s)
  | none => s

/-! ## The steps -/

/-- A host write of 1 to 8 words; other lengths are no bus access and are refused by name (log 15). -/
def writeAccess (a : BitVec 28) (ws : List BusWord) (s : State) : Host.Outcome State Fault Refusal :=
  if accessLengthOk ws.length then .next (s.hostWrite a ws) else .refused .malformedAccess

/-- ORDER_SLOT_WRITE (R169): a host write that begins at a word of an order slot. -/
def execOrderSlotWrite (slot : Fin 32) (word : Fin 8) (ws : List BusWord) (s : State) : Host.Outcome State Fault Refusal :=
  writeAccess (s.windowWord (32 * slot.val + 4 * word.val)) ws s

/-- ORDER_PRODUCER_INDEX_WRITE (R170): a host write of the word at offset 0x0400. -/
def execOrderProducerIndexWrite (w : BusWord) (s : State) : Host.Outcome State Fault Refusal :=
  .next (s.hostWrite (s.windowWord 0x400) [w])

/-- NOTICE_CONSUMER_INDEX_WRITE (R176): a host write of the word at offset 0x0404. -/
def execNoticeConsumerIndexWrite (w : BusWord) (s : State) : Host.Outcome State Fault Refusal :=
  .next (s.hostWrite (s.windowWord 0x404) [w])

/-- FLUSH_WORD_READ (R163): a host read of the word at offset 0x0408. -/
def execFlushWordRead (s : State) : Host.Outcome State Fault Refusal := .next (s.hostRead (s.windowWord 0x408) 1)

/-- COMMIT_WORD_WRITE (R74): a host write to a stream area that begins at a commit word. -/
def execCommitWordWrite (a : BitVec 28) (ws : List BusWord) (s : State) : Host.Outcome State Fault Refusal := writeAccess a ws s

/-- STREAM_SAMPLE_WRITE (R73): a host write of sample words in a stream area. -/
def execStreamSampleWrite (a : BitVec 28) (ws : List BusWord) (s : State) : Host.Outcome State Fault Refusal := writeAccess a ws s

/-- OWNED_AREA_WRITE (R157): a host write to the status page, the notice ring or an uplink ring. -/
def execOwnedAreaWrite (a : BitVec 28) (ws : List BusWord) (s : State) : Host.Outcome State Fault Refusal := writeAccess a ws s

/-- HOST_WRITE (R155): any other host write. -/
def execHostWrite (a : BitVec 28) (ws : List BusWord) (s : State) : Host.Outcome State Fault Refusal := writeAccess a ws s

/-- HOST_READ (R162): a host read of n words. -/
def execHostRead (a : BitVec 28) (n : Nat) (s : State) : Host.Outcome State Fault Refusal :=
  if accessLengthOk n then .next (s.hostRead a n) else .refused .malformedAccess

/-- HELD_ACCESS_RELEASE (R162): where no release mark completes nothing happens (log 4). -/
def execHeldAccessRelease (s : State) : Host.Outcome State Fault Refusal := .next s.releaseHeld.arbitrated

/-- MEMORY_PORT_COMPLETION (R160): an idle port has nothing to complete (log 4). -/
def execMemoryPortCompletion (s : State) : Host.Outcome State Fault Refusal := .next s.completePort.arbitrated

/-- POSTING_ENQUEUE (R159): producer p hands its next posting over where the queue has room (log 9). -/
def execPostingEnqueue (p : Producer) (s : State) : Host.Outcome State Fault Refusal := s.running (s.enqueueFrom p).arbitrated

end Sys2Proof.Machine
end

