-- ==== Sys2Proof/Machine/Boundaries.lean ====
section
/-! DEFINITION. Block and superframe boundaries: beginning one, the work of each, and the steps whose event may be taken before that
work (log 2, log 3). -/

namespace Sys2Proof.Machine

open Sys2Proof

/-! ## The work of a superframe boundary -/

/-- R158: the owned-write counts above 0 among the uplink rings. DESIGN CHOICE (log 46): in ascending service index. -/
def MemPath.ownedRings (m : MemPath) : List (ServiceIx × Nat) :=
  allServices.filterMap (fun v => if m.ownedUplink[v] = 0 then none else some (v, m.ownedUplink[v]))

/-- R158: OWNED_WRITE where any count is above 0, and the counts cleared. -/
def State.reportOwned (s : State) : State :=
  let m := s.path
  if m.ownedPage = 0 ∧ m.ownedRing = 0 ∧ m.ownedRings.isEmpty then s
  else (s.notify (.ownedWrite m.ownedPage m.ownedRing m.ownedRings m.firstOwned)).modPath (fun m =>
    { m with ownedPage := 0, ownedRing := 0, ownedUplink := Vector.replicate 24 0, firstOwned := none })

/-- R41, R51, R80, R151, R158, R177: the work of a superframe boundary, in the order of log 19; the notices of several services come in
ascending service index (DESIGN CHOICE, log 46). -/
def State.superframeWork (s : State) : State :=
  let t := s.forGroups (fun s g => s.modGroup g Group.countHold)
  let t := t.forLinks State.countTracking
  let t := t.forServices State.reportStreams
  let t := t.forServices State.reportUplink
  (t.reportOwned.snapshot).modTime (fun x => { x with superframeOwed := false })

/-! ## Beginning a boundary -/

/-- Log 3: the events of a link that fell at the present boundary and have not been taken. -/
def State.settleLink (s : State) (l : LinkIx) : State :=
  let t := (s.settlePeriodEndIfDue l).attachIfDue l
  let t := ((t.debounceEndIfDue l).helloWaitExpiryIfDue l).quiescingEndIfDue l
  (((t.deadlinesIfDue l).echoWindowCloseIfDue l).trackWindowCloseIfDue l).trackingMarkIfDue l

/-- Log 3: everything that fell at the present boundary, or in the period it began, and has not been taken is taken before the next
boundary begins. -/
def State.settle (s : State) : State :=
  let t := if s.time.superframeOwed then s.superframeWork else s
  let t := t.forLinks State.settleLink
  let t := t.forGroups State.holdExpiryIfDue
  let t := t.forInputs State.registeredChangeIfDue
  (t.forZones State.planSwitchIfDue).joinSwitchAll

/-- 00_scope.md: "At each block boundary the block counter goes up by 1 and the block-in-superframe index goes up by 1, returning from 9
to 0; at a boundary where the index returns to 0 the superframe counter goes up by 1". -/
def Timebase.next (x : Timebase) : Timebase :=
  { block := x.block + 1
    superframe := if x.index = 9 then x.superframe + 1 else x.superframe
    index := if x.index = 9 then 0 else x.index + 1
    blockOwed := true
    superframeOwed := x.index == 9 }

/-- R18: the transmit queue as it stands just before a boundary leaves in that boundary's frame. -/
def Manager.departing (m : Manager) : Manager := { m with leaving := m.txQueue, txQueue := [] }

/-- The next boundary begins: the counters advance (log 2). -/
def State.beginBoundary (s : State) : State :=
  (s.settle.modTime Timebase.next).forLinks (fun s l => s.modMgr l Manager.departing)

/-- The present boundary, its block work still to be taken: the one already begun, or the next. -/
def State.atBoundary (s : State) : State := if s.time.blockOwed then s else s.beginBoundary

/-! ## The work of a block boundary -/

/-- R5, R6, R7: the phase count at a block boundary. -/
def Manager.countPhase (m : Manager) : Manager :=
  match m.state, m.listenPhase, m.attachPhase with
  | .listen, some .settle, _ => { m with phaseCount := if m.phaseCount < 100 then m.phaseCount + 1 else m.phaseCount }
  | .attach, _, some .debounce => { m with phaseCount := if m.phaseCount < 98 then m.phaseCount + 1 else m.phaseCount }
  | .attach, _, some .helloWait => { m with phaseCount := if m.phaseCount < 50 then m.phaseCount + 1 else m.phaseCount }
  | _, _, _ => m

/-- R5, R10: what a block boundary finds of a link: lock held in the detection phase, or a QUIESCING link with nothing left. -/
def Manager.look (m : Manager) : Manager :=
  { m with attachDue := m.state == .listen && m.listenPhase == some .detect && m.lock
           quiesceDue := m.state == .quiescing && m.settled }

/-- R3, R5 to R7, R10: link l at a block boundary. -/
def State.linkBoundary (s : State) (l : LinkIx) : State := (s.modMgr l (fun m => m.countPhase.look)).startFrame l

/-- R3, R55, R77, R81, R108, R112, R131, R140: the work of the block boundary that has begun, in the order of log 19. -/
def State.blockWork (s : State) (levels : BitVec 4) : State :=
  let t := s.combinePoint.advanceHistories
  let t := t.launchStreams.selectAll
  let t := (t.sampleContacts levels).slewAll
  ((t.forLinks State.linkBoundary).pushRecord).modTime (fun x => { x with blockOwed := false })

/-! ## The steps -/

/-- BLOCK_BOUNDARY (R3): `levels` are the contact inputs as sampled (log 28). -/
def execBlockBoundary (levels : BitVec 4) (s : State) : Host.Outcome State Fault Refusal :=
  s.running (s.atBoundary.blockWork levels)

/-- SUPERFRAME_BOUNDARY, taken where it falls. -/
def State.superframeBoundary (s : State) : State :=
  if s.time.superframeOwed then s.superframeWork
  else if s.time.blockOwed = false ∧ s.time.index = 9 then s.beginBoundary.superframeWork
  else s

/-- SUPERFRAME_BOUNDARY (R177): where none falls nothing happens (log 4). -/
def execSuperframeBoundary (s : State) : Host.Outcome State Fault Refusal := s.running s.superframeBoundary

/-- An event of a boundary, which is taken at the present boundary where it is due there, else at the next where it is due there (log 2),
and otherwise does nothing (log 4). -/
def State.boundaryEvent (s : State) (due : State → Bool) (act : State → State) : State :=
  if due s then act s
  else if s.time.blockOwed then s
  else if due s.beginBoundary then act s.beginBoundary
  else s

/-- PLAN_SWITCH (R99). -/
def execPlanSwitch (z : ZoneIx) (s : State) : Host.Outcome State Fault Refusal :=
  s.running (s.boundaryEvent (fun t => t.switchDue z) (fun t => t.planSwitchIfDue z))

/-- JOIN_SWITCH_SUPERFRAME (R102): every link whose JOIN exchange falls due (log 26). -/
def execJoinSwitchSuperframe (s : State) : Host.Outcome State Fault Refusal :=
  s.running (s.boundaryEvent State.anyJoinDue State.joinSwitchAll)

/-- R51: whether group g's hold expires at the present boundary: it has reached 100, or its hundredth count is owed there. -/
def State.holdDue (s : State) (g : GroupIx) : Bool := (s.group g).holdExpires || s.lastCountDue g

/-- R51: group g's hold expires, with the count that brings it to 100 where the boundary still owes it (95: HOLD_COUNT stands within
HOLD_EXPIRY too). -/
def State.holdExpiry (s : State) (g : GroupIx) : State :=
  if (s.group g).holdExpires then s.expireHold g else s.countAndExpire g

/-- HOLD_EXPIRY (R51): the hold of group g reaches 100 and expires, before or after the other work of its superframe boundary (log 2);
where none is due nothing happens (log 4). -/
def execHoldExpiry (g : GroupIx) (s : State) : Host.Outcome State Fault Refusal :=
  s.running (s.boundaryEvent (fun t => t.holdDue g) (fun t => t.holdExpiry g))

/-- R41: whether link l's tracking mark falls at the present boundary: its count has reached 16, or its sixteenth count is owed there. -/
def State.markDue (s : State) (l : LinkIx) : Bool := s.trackingDue l || s.lastTrackCountDue l

/-- R41: link l's tracking mark, with the count that brings it to 16 where the boundary still owes it (95: TRACKING_COUNT stands within
TRACKING_MARK too). -/
def State.trackingMark (s : State) (l : LinkIx) : State := if s.trackingDue l then s.placeMark l else s.countAndMark l

/-- TRACKING_MARK (R41): the tracking count of link l reaches 16, before or after the other work of its superframe boundary (log 2); where
no mark is due nothing happens (log 4). -/
def execTrackingMark (l : LinkIx) (s : State) : Host.Outcome State Fault Refusal :=
  s.running (s.boundaryEvent (fun t => t.markDue l) (fun t => t.trackingMark l))

/-- REQUEST_DEADLINE_EXPIRY (R21): every deadline of link l that falls at the boundary. -/
def execRequestDeadlineExpiry (l : LinkIx) (s : State) : Host.Outcome State Fault Refusal :=
  s.running (s.boundaryEvent (fun t => !(t.expiredTags l).isEmpty) (fun t => t.deadlinesIfDue l))

/-- R112 (log 2): a registered change taken at a boundary before its sampling, as the eighth differing sample in a row. -/
def State.registerEarly (s : State) (i : InputIx) : State :=
  (s.registeredChange i).modInput i (fun c => { c with changeTaken := true })

/-- REGISTERED_CHANGE of input i, taken where it falls: as the present boundary's sampling left it due, or before that sampling. -/
def State.registeredChangeEvent (s : State) (i : InputIx) : State :=
  if (s.input i).changeDue then s.registeredChange i
  else if (s.input i).stability = 7 ∧ (s.input i).changeTaken = false then s.atBoundary.registerEarly i
  else s

/-- REGISTERED_CHANGE (R112): where fewer than seven samples in a row have differed nothing happens (log 4). -/
def execRegisteredChange (i : InputIx) (s : State) : Host.Outcome State Fault Refusal := s.running (s.registeredChangeEvent i)

end Sys2Proof.Machine
end

