-- ==== Sys2Proof/Machine/ResetSteps.lean ====
section
/-! DEFINITION. The assertion and the release of RESET (9.6). -/

namespace Sys2Proof.Machine

open Sys2Proof

/-- R165: a HELD access is released at the assertion of RESET. -/
def AccessStanding.unheld : AccessStanding → AccessStanding
  | .held _ => .waiting
  | .waiting => .waiting
  | .inMemory => .inMemory

/-- R165: the port at the assertion of RESET: a posting under way completes its write though the queue is emptied. -/
def MemPath.portAtAssert (m : MemPath) : Port :=
  match m.port, m.queue with
  | .posting, p :: _ => .orphan p
  | .posting, [] => .idle
  | .idle, _ => .idle
  | .host, _ => .host
  | .orphan p, _ => .orphan p

/-- R165: the memory path at the assertion of RESET. -/
def MemPath.asserted (m : MemPath) : MemPath :=
  { m with
    inReset := true, queue := [], port := m.portAtAssert, pressure := false, ownedPage := 0, ownedRing := 0
    ownedUplink := Vector.replicate 24 0, firstOwned := none
    access := m.access.map (fun a => { a with standing := a.standing.unheld }) }

/-- R159, R165, R176, R177: the part at the assertion of RESET; what else it holds stands until the release (log 37). -/
def State.resetAsserted (s : State) : State :=
  let t : State := { s with poster := { s.poster with page := none } }
  ((t.modPath MemPath.asserted).modOrders (fun u => { u with result := none })).modNotices
    (fun u => { u with handing := none, nirq := false })

/-- RESET_ASSERT (R165). -/
def execResetAssert (s : State) : Host.Outcome State Fault Refusal := .next s.resetAsserted.arbitrated

/-- R165, R166: the memory path at the release of RESET: its reset values, the access and the port kept as they stand. -/
def MemPath.released (m : MemPath) (straps : BitVec 14) : MemPath :=
  { MemPath.atRelease straps with access := m.access, port := m.port }

/-- R166: the part at the release of RESET: every record takes its reset value. -/
def State.resetReleased (s : State) (straps : BitVec 14) : State :=
  { State.atRelease straps with path := s.path.released straps, pending := s.pending }

/-- RESET_RELEASE (R166): a RESET that is not asserted is not released (log 4). -/
def execResetRelease (straps : BitVec 14) (s : State) : Host.Outcome State Fault Refusal :=
  .next (if s.path.inReset then s.resetReleased straps else s)

end Sys2Proof.Machine
end

