-- ==== Sys2Proof/Machine/Dispatch.lean ====
section
/-! DEFINITION. The meaning of each command: one arm per constructor of `Instr`, each a direct call. -/

namespace Sys2Proof.Machine

open Sys2Proof

/-- The effect of a command on everything but the queue of waiting commands. -/
def exec (i : Instr) (s : State) : Host.Outcome State Fault Refusal :=
  match i with
  | .blockBoundary levels => Sys2Proof.Machine.execBlockBoundary levels s
  | .superframeBoundary => Sys2Proof.Machine.execSuperframeBoundary s
  | .resetAssert => Sys2Proof.Machine.execResetAssert s
  | .resetRelease straps => Sys2Proof.Machine.execResetRelease straps s
  | .lockGained l => Sys2Proof.Machine.execLockGained l s
  | .lockLost l => Sys2Proof.Machine.execLockLost l s
  | .uplinkFrameArrival l frame => Sys2Proof.Machine.execUplinkFrameArrival l frame s
  | .attach l => Sys2Proof.Machine.execAttach l s
  | .settlePeriodEnd l => Sys2Proof.Machine.execSettlePeriodEnd l s
  | .debounceEnd l => Sys2Proof.Machine.execDebounceEnd l s
  | .helloWaitExpiry l => Sys2Proof.Machine.execHelloWaitExpiry l s
  | .quiescingEnd l => Sys2Proof.Machine.execQuiescingEnd l s
  | .requestDeadlineExpiry l => Sys2Proof.Machine.execRequestDeadlineExpiry l s
  | .echoWindowClose l => Sys2Proof.Machine.execEchoWindowClose l s
  | .trackWindowClose l => Sys2Proof.Machine.execTrackWindowClose l s
  | .trackingMark l => Sys2Proof.Machine.execTrackingMark l s
  | .holdExpiry g => Sys2Proof.Machine.execHoldExpiry g s
  | .registeredChange ci => Sys2Proof.Machine.execRegisteredChange ci s
  | .planSwitch z => Sys2Proof.Machine.execPlanSwitch z s
  | .joinSwitchSuperframe => Sys2Proof.Machine.execJoinSwitchSuperframe s
  | .setService index tag w1 w2 w3 w4 w5 w6 => Sys2Proof.Machine.execSetService index tag w1 w2 w3 w4 w5 w6 s
  | .enableService index tag => Sys2Proof.Machine.execEnableService index tag s
  | .disableService index tag => Sys2Proof.Machine.execDisableService index tag s
  | .clearService index tag => Sys2Proof.Machine.execClearService index tag s
  | .setLink index tag w1 w2 w3 w4 => Sys2Proof.Machine.execSetLink index tag w1 w2 w3 w4 s
  | .linkListen index tag => Sys2Proof.Machine.execLinkListen index tag s
  | .linkRange index tag => Sys2Proof.Machine.execLinkRange index tag s
  | .linkActivate index tag => Sys2Proof.Machine.execLinkActivate index tag s
  | .linkQuiesce index tag => Sys2Proof.Machine.execLinkQuiesce index tag s
  | .linkAbort index tag => Sys2Proof.Machine.execLinkAbort index tag s
  | .linkDark index tag => Sys2Proof.Machine.execLinkDark index tag s
  | .linkQuery index tag w1 => Sys2Proof.Machine.execLinkQuery index tag w1 s
  | .setGroup index tag w1 => Sys2Proof.Machine.execSetGroup index tag w1 s
  | .setZone index tag w1 => Sys2Proof.Machine.execSetZone index tag w1 s
  | .zoneIncident index tag w1 w2 => Sys2Proof.Machine.execZoneIncident index tag w1 w2 s
  | .setLine index tag w1 w2 => Sys2Proof.Machine.execSetLine index tag w1 w2 s
  | .lineAck index tag => Sys2Proof.Machine.execLineAck index tag s
  | .breakinStart index tag w1 => Sys2Proof.Machine.execBreakinStart index tag w1 s
  | .breakinStop index tag => Sys2Proof.Machine.execBreakinStop index tag s
  | .setNotices index tag w1 w2 => Sys2Proof.Machine.execSetNotices index tag w1 w2 s
  | .unknownOrder code index tag => Sys2Proof.Machine.execUnknownOrder code index tag s
  | .orderSlotWrite slot word words => Sys2Proof.Machine.execOrderSlotWrite slot word words s
  | .orderProducerIndexWrite word => Sys2Proof.Machine.execOrderProducerIndexWrite word s
  | .noticeConsumerIndexWrite word => Sys2Proof.Machine.execNoticeConsumerIndexWrite word s
  | .flushWordRead => Sys2Proof.Machine.execFlushWordRead s
  | .commitWordWrite addr words => Sys2Proof.Machine.execCommitWordWrite addr words s
  | .streamSampleWrite addr words => Sys2Proof.Machine.execStreamSampleWrite addr words s
  | .ownedAreaWrite addr words => Sys2Proof.Machine.execOwnedAreaWrite addr words s
  | .hostWrite addr words => Sys2Proof.Machine.execHostWrite addr words s
  | .heldAccessRelease => Sys2Proof.Machine.execHeldAccessRelease s
  | .memoryPortCompletion => Sys2Proof.Machine.execMemoryPortCompletion s
  | .postingEnqueue p => Sys2Proof.Machine.execPostingEnqueue p s
  | .noticeHandover => Sys2Proof.Machine.execNoticeHandover s
  | .noticesLost => Sys2Proof.Machine.execNoticesLost s
  | .hostRead addr count => Sys2Proof.Machine.execHostRead addr count s

end Sys2Proof.Machine
end

