-- ==== Sys2Proof/Safety.lean ====
section
/-! DEFINITION. What claims are stated in: the conditions under which commands are taken, what a teardown leaves, and the invariants of
the part. -/

namespace Sys2Proof.Machine

open Sys2Proof

/-! ## Orders -/

/-- The order a command submits, where it is an order. -/
def commandOrder : Instr → Option Order
  | .setService i t w1 w2 w3 w4 w5 w6 => some { code := 1, index := i, tag := t, p1 := w1, p2 := w2, p3 := w3, p4 := w4, p5 := w5, p6 := w6 }
  | .enableService i t => some (plainOrder 2 i t)
  | .disableService i t => some (plainOrder 3 i t)
  | .clearService i t => some (plainOrder 4 i t)
  | .setLink i t w1 w2 w3 w4 => some { plainOrder 5 i t with p1 := w1, p2 := w2, p3 := w3, p4 := w4 }
  | .linkListen i t => some (plainOrder 6 i t)
  | .linkRange i t => some (plainOrder 7 i t)
  | .linkActivate i t => some (plainOrder 8 i t)
  | .linkQuiesce i t => some (plainOrder 9 i t)
  | .linkAbort i t => some (plainOrder 10 i t)
  | .linkDark i t => some (plainOrder 11 i t)
  | .linkQuery i t w1 => some { plainOrder 12 i t with p1 := w1 }
  | .setGroup i t w1 => some { plainOrder 13 i t with p1 := w1 }
  | .setZone i t w1 => some { plainOrder 14 i t with p1 := w1 }
  | .zoneIncident i t w1 w2 => some { plainOrder 15 i t with p1 := w1, p2 := w2 }
  | .setLine i t w1 w2 => some { plainOrder 16 i t with p1 := w1, p2 := w2 }
  | .lineAck i t => some (plainOrder 17 i t)
  | .breakinStart i t w1 => some { plainOrder 18 i t with p1 := w1 }
  | .breakinStop i t => some (plainOrder 19 i t)
  | .setNotices i t w1 w2 => some { plainOrder 20 i t with p1 := w1, p2 := w2 }
  | .unknownOrder c i t => some (plainOrder c i t)
  | _ => none

/-- The number of objects an order's index may name (10.1, Order catalogue); none where the order names no object. -/
def objectCount (code : BitVec 8) : Option Nat :=
  match code.toNat with
  | 1 => some 24
  | 2 => some 24
  | 3 => some 24
  | 4 => some 24
  | 5 => some 16
  | 6 => some 16
  | 7 => some 16
  | 8 => some 16
  | 9 => some 16
  | 10 => some 16
  | 11 => some 16
  | 12 => some 16
  | 13 => some 4
  | 14 => some 8
  | 16 => some 4
  | 17 => some 4
  | 18 => some 4
  | 19 => some 4
  | _ => none

/-- An order submitted now is taken at once and its result enqueued: RESET is released, the ring is empty, nothing is executing, and
the posting queue has room (R159, R170, R171). -/
abbrev State.ordersIdle (s : State) : Prop :=
  s.path.inReset = false ∧ s.orders.executing = none ∧ s.orders.producer = s.orders.consumer ∧ s.path.queue.length < 64

/-- State t once order o, submitted in state s, has been taken with result r: its words stand in the shadow of its slot, the producer
index stands one further, the slot is executing, and the result word is posted to word 7 of the slot (R169, R170, R171). -/
def State.answered (s : State) (o : Order) (r : OrderResult) (t : State) : State :=
  { t with
    orders := { s.orders with
      shadow := s.orders.shadow.set s.orders.producer (wordsOfOrder o)
      producer := s.orders.producer + 1
      executing := some s.orders.producer }
    path := (s.path.push (resultPosting s.path.windowBase s.orders.producer r o.tag)).arbitrate }

/-- State t with the notices s held and one more generated (R173). -/
def State.plusNotice (s : State) (n : Notice) : State := { s with notices := s.notices.generate n }

/-- State t with the notices s held and these generated one after another (R173). -/
def State.plusNotices (s : State) (ns : List Notice) : State := { s with notices := ns.foldl (fun u n => u.generate n) s.notices }

/-- R10, R15, R20, R23: the QUERY_DONE notices with which requests of link l complete in a given order; a PLAN posts none. -/
def queryDones (l : LinkIx) (outcome : QueryOutcome) (rs : List Request) : List Notice :=
  rs.filterMap (fun r => match r with
    | .query item orderTag => some (.queryDone l item outcome orderTag 0)
    | .plan _ _ _ => none)

/-- R173: the notices generated on the way from s to t begin with these, as far as the internal queue has room for them. -/
def State.noticesBegin (s t : State) (ns : List Notice) : Prop :=
  s.notices.queue.length + ns.length ≤ 16 → ∃ rest, t.notices.queue = s.notices.queue ++ ns ++ rest

/-- State t with posting p put at the tail of the posting queue s holds, and the memory port arbitrated (R159, R160, R161). -/
def State.plusPosting (t s : State) (p : Posting) : State := { t with path := (s.path.push p).arbitrate }

/-- R173: every notice generated on the way from s to t found room in the internal queue, and n is among them. -/
def State.noticesInclude (s t : State) (n : Notice) : Prop :=
  t.notices.queue.length < 16 → n ∈ t.notices.queue.drop s.notices.queue.length

/-! ## Frames -/

/-- What an unerrored frame does to a link with its control channel open before any of its messages is taken (R12, R138). -/
def State.afterGoodFrame (s : State) (l : LinkIx) (f : UplinkFrame) : State :=
  s.modLink l (fun x => { x with
    mgr := { x.mgr with erroredRun := 0 }
    rx := if x.mgr.state = .active then x.rx.map (fun h => h.take s.period f) else x.rx })

/-- R19: tag g of a link is freed and given on to the head of its pending queue, if there is one. (Every other tag is held, or nothing
waits: a lower free tag would be taken first.) -/
def Manager.tagPassedOn (m : Manager) (g : Tag) : Manager :=
  match m.pendingQueue with
  | [] => { m with outstanding := m.outstanding.set g none }
  | r :: rest => { m with
    outstanding := m.outstanding.set g (some { request := r, sentIn := none })
    txQueue := m.txQueue ++ [.request g r]
    pendingQueue := rest }

/-- R19: nothing waits on link l, or every tag but g is held. -/
def State.tagIsNext (s : State) (l : LinkIx) (g : Tag) : Prop :=
  (s.link l).mgr.pendingQueue = [] ∨ ∀ g' : Tag, g' ≠ g → (s.link l).mgr.outstanding[g'] ≠ none

/-- R94, R96: what a PLAN for a JOINING link of zone z offers: the staged plan at its switch superframe, or the current plan three
superframes on. -/
def State.offers (s : State) (z : ZoneIx) (target : BitVec 8) (m : Seq16) (entries : List Entry) : Prop :=
  (∃ p, (s.zone z).staged = some p ∧ p.planId = target ∧ p.n = m ∧ p.entries = entries) ∨
    ((s.zone z).staged = none ∧ (s.zone z).planId = target ∧ s.time.superframe + 3 = m ∧ (s.zone z).entries = entries)

/-- R92, R96: state s with tag g of link l freed and its JOIN exchange given another PLAN, of these entries for superframe m, under tag
g2. -/
def State.joinRetried (s : State) (l : LinkIx) (g g2 : Tag) (target : BitVec 8) (m : Seq16) (entries : List Entry) (attempts : Nat) :
    State :=
  s.modLink l (fun x => { x with
    mgr := { x.mgr with
      outstanding := (x.mgr.outstanding.set g none).set g2
        (some { request := .plan x.planSerial m (s.planItems entries), sentIn := none })
      txQueue := x.mgr.txQueue ++ [.request g2 (.plan x.planSerial m (s.planItems entries))] }
    exchange := some { purpose := .join, target := target, m := m, current := some x.planSerial, standing := .waiting
                       attempts := attempts }
    planSerial := x.planSerial + 1 })

/-- R97, R100, R102 (log 17): the current request of exchange x of link l was sent at a boundary before the present one. -/
def State.planWasSent (s : State) (l : LinkIx) (x : Exchange) : Prop :=
  ∃ (g : Tag) (n : Nat) (m : Seq16) (items : List PlanItem) (b : Seq16),
    (s.link l).mgr.outstanding[g] = some { request := .plan n m items, sentIn := some b } ∧ x.current = some n ∧ b ≠ s.time.block

/-- R9, R54, R60, R137, R143: link l enters ACTIVE on the way from s to t, where a plan of these entries is in force: its LINK_STATE, its
failure count and tracking state at 0, a received history of zeros and a gate record as created for each service of the plan with an
uplink ring; and, where no later event of the same command changes its group (`last`), K at K* at once. -/
def State.enteredActive (s t : State) (l : LinkIx) (entries : List Entry) (last : Prop) : Prop :=
  let x := s.link l
  let y := t.link l
  let before : RxBlock := { samples := [], taken := true, valid := false }
  y.mgr.state = .active ∧ y.rng.failures = 0 ∧
  y.rng.trackCount = 0 ∧ y.rng.outliers = 0 ∧ y.rng.marker = none ∧
  y.rx = some { oldest := before, middle := before
                newest := if s.time.blockOwed then before else { samples := [], taken := false, valid := false } } ∧
  (∀ v : ServiceIx, y.gates[v] = if v ∈ carriedOf entries ∧ (s.service v).ring.isSome = true then
    some { energy := 0, floor := 4294967295, isOpen := false, closeCount := 0 } else none) ∧
  s.noticesInclude t (.linkState l x.mgr.state .active .planAccepted (Vector.replicate 4 false) none) ∧
  (last → y.align.k = y.align.kStar ∧ y.align.slewing = false ∧
    ∃ t0, (t.group x.settings.group).target = some t0 ∧ y.align.kStar = min 16383 (t0 - x.rng.path))

/-- R92, R96, R101, R102: link l stands JOINING in t with its JOIN exchange renewed on a plan of these entries for superframe m, the PLAN
its current request, and, where a tag was free in s, outstanding under the lowest. -/
def State.joinRenewed (s t : State) (l : LinkIx) (target : BitVec 8) (m : Seq16) (entries : List Entry) (attempts : Nat) : Prop :=
  (t.link l).mgr.state = .joining ∧
  (t.link l).exchange = some { purpose := .join, target := target, m := m, current := some (s.link l).planSerial, standing := .waiting
                               attempts := attempts } ∧
  ∀ g : Tag, (s.link l).mgr.outstanding[g] = none → (∀ g' : Tag, g' < g → (s.link l).mgr.outstanding[g'] ≠ none) →
    (t.link l).mgr.outstanding[g] =
      some { request := .plan (s.link l).planSerial m (s.planItems entries), sentIn := none }

/-- R24: where a SETUP goes: in place of one already waiting in the transmit queue, or else behind every message in it. -/
def SetupsReplaceOneAnother : Prop :=
  ∀ (q : List DownMsg) (x : Setup),
    ((∀ y : Setup, .setup y ∉ q) → placeSetup q x = q ++ [.setup x]) ∧
    (∀ before y after, q = before ++ .setup y :: after → (∀ y' : Setup, .setup y' ∉ before ++ after) →
      placeSetup q x = before ++ .setup x :: after)

/-- R19, R20, R92: link record y' is y with a PLAN of a plan's items issued for exchange x. The request, the next of the link, becomes the
exchange's current one, WAITING. It takes the lowest free tag and goes behind every message in the transmit queue; with no tag free it
waits in place of a PLAN already waiting, or else at the head of the pending queue, where a full queue drops its tail. -/
def Link.planIssued (y y' : Link) (x : Exchange) (items : List PlanItem) (dropped : Option Request) : Prop :=
  let r : Request := .plan y.planSerial x.m items
  let q := y.mgr.pendingQueue
  let issued (m : Manager) : Link :=
    { y with mgr := m, planSerial := y.planSerial + 1, exchange := some { x with current := some y.planSerial, standing := .waiting } }
  let noPlan (q : List Request) : Prop := ∀ n m its, .plan n m its ∉ q
  (∀ g : Tag, y.mgr.outstanding[g] = none → (∀ g' : Tag, g' < g → y.mgr.outstanding[g'] ≠ none) → dropped = none ∧ y' = issued
    { y.mgr with outstanding := y.mgr.outstanding.set g (some { request := r, sentIn := none })
                 txQueue := y.mgr.txQueue ++ [.request g r] }) ∧
  ((∀ g : Tag, y.mgr.outstanding[g] ≠ none) →
    (∀ before n m its after, q = before ++ .plan n m its :: after → noPlan (before ++ after) →
      dropped = none ∧ y' = issued { y.mgr with pendingQueue := before ++ r :: after }) ∧
    (noPlan q → q.length < 8 → dropped = none ∧ y' = issued { y.mgr with pendingQueue := r :: q }) ∧
    (∀ front last, noPlan q → 8 ≤ q.length → q = front ++ [last] →
      dropped = some last ∧ y' = issued { y.mgr with pendingQueue := r :: front }))

/-- R20, R92, R93: t is s with a PLAN issued on each link that is offered one, in ascending index: its exchange and the plan's entries. A
query that a full pending queue drops completes ABORTED. -/
def State.plansIssued (s t : State) (offer : LinkIx → Option (Exchange × List Entry)) : Prop :=
  ∃ dropped : LinkIx → Option Request,
    (∀ l, match offer l with
      | some (x, plan) => (s.link l).planIssued (t.link l) x (s.planItems plan) (dropped l)
      | none => t.link l = s.link l ∧ dropped l = none) ∧
    t = { s.plusNotices (allLinks.map (fun l => queryDones l .aborted (dropped l).toList)).flatten with links := t.links }

/-! ## Host accesses -/

/-- The processor port is free, the memory port idle with nothing queued, and RESET is released: a host access that is not withheld is
granted at its arrival (R155, R160). -/
abbrev State.pathIdle (s : State) : Prop :=
  s.path.inReset = false ∧ s.path.access = none ∧ s.path.queue = [] ∧ s.path.port = .idle

/-- State t with a host access of these words IN_MEMORY at the port (R155). -/
def State.withAccess (t : State) (isWrite : Bool) (words : List AccessWord) : State :=
  { t with path := { t.path with port := .host, access := some { isWrite := isWrite, passThrough := false, words := words, standing := .inMemory } } }

/-- R162: posting p writes the word at address a. -/
def Posting.writes (p : Posting) (a : BitVec 28) : Prop :=
  ∃ j, j < p.words.length ∧ a = BitVec.ofNat 28 (p.addr / 4) + BitVec.ofNat 28 j

/-- R155, R162: an access to these words that arrives in state s stands at x: HELD behind the youngest queued posting that writes one of
them, and WAITING where none does. -/
def State.stands (s : State) (addrs : List (BitVec 28)) (x : AccessStanding) : Prop :=
  (x = .waiting ∧ ∀ q, q ∈ s.path.queue → ∀ a, a ∈ addrs → ¬ q.writes a) ∨
  ∃ k q, x = .held k ∧ s.path.queue[k]? = some q ∧ (∃ a, a ∈ addrs ∧ q.writes a) ∧
    ∀ j q', k < j → s.path.queue[j]? = some q' → ∀ a, a ∈ addrs → ¬ q'.writes a

/-- State t with a host access of these words admitted at a standing, and the memory port arbitrated (R155, R160). -/
def State.withArrival (t : State) (isWrite : Bool) (words : List AccessWord) (x : AccessStanding) : State :=
  { t with path := ({ t.path with
      access := some { isWrite := isWrite, passThrough := false, words := words, standing := x } } : MemPath).arbitrate }

/-! ## Re-evaluation -/

/-- R49 to R55: t is s after a re-evaluation of group g, which stood as x just before it (R46 stores guard and slew first): the target
and the hold by the longest member path, K*, OUT_OF_REACH and SLEWING of every member by the target, one ALIGN where R52 posts one, and
nothing else. `cleared` lists the flag the same event has cleared already on a link that leaves (R47, R48). -/
def State.reEvaluated (s t : State) (g : GroupIx) (x : Group) (cause : AlignCause) (cleared : List (LinkIx × Bool)) : Prop :=
  let y := t.group g
  let isIn (l : LinkIx) : Prop := (s.link l).mgr.state = .active ∧ (s.link l).settings.group = g
  (y.guard = x.guard ∧ y.slew = x.slew ∧ y.counted = x.counted) ∧
  ((∀ l, ¬ isIn l) → y.target = none ∧ y.hold = none) ∧
  (∀ m, isIn m → (∀ l, isIn l → (s.link l).rng.path ≤ (s.link m).rng.path) →
    let candidate := (s.link m).rng.path + x.guard
    ((x.target = none ∨ ∃ t0, x.target = some t0 ∧ t0 ≤ candidate) → y.target = some candidate ∧ y.hold = none) ∧
    (∀ t0, x.target = some t0 → candidate < t0 → y.target = some t0 ∧
      y.hold = some { candidate := candidate, count := match x.hold with
        | none => 0
        | some h => h.count })) ∧
  (∀ l t0, isIn l → y.target = some t0 →
    let kStar := min 16383 (t0 - (s.link l).rng.path)
    t.link l = { s.link l with align := { k := (s.link l).align.k, kStar := kStar, slewing := (s.link l).align.k != kStar
                                          outOfReach := decide (16383 < t0 - (s.link l).rng.path) } }) ∧
  (∀ l, ¬ isIn l → t.link l = s.link l) ∧ (∀ g', g' ≠ g → t.group g' = s.group g') ∧
  (∃ flags : List (LinkIx × Bool),
    (∀ l on, (l, on) ∈ flags ↔
      ((l, on) ∈ cleared ∨ ((t.link l).align.outOfReach = on ∧ (s.link l).align.outOfReach ≠ on))) ∧
    (y.target ≠ x.target ∨ y.hold.isSome ≠ x.hold.isSome ∨ flags ≠ [] →
      t.notices = s.notices.generate (.align g cause x.target y.target y.hold flags)) ∧
    (y.target = x.target → y.hold.isSome = x.hold.isSome → flags = [] → t.notices = s.notices)) ∧
  t.time = s.time ∧ t.services = s.services ∧ t.zones = s.zones ∧ t.inputs = s.inputs ∧ t.arbiter = s.arbiter ∧
  t.combiner = s.combiner ∧ t.path = s.path ∧ t.orders = s.orders ∧ t.poster = s.poster ∧ t.pending = s.pending

/-! ## Delay -/

/-- R58, R59: the sample `back` samples before sample j of a lane's block, reaching into the block before it. -/
def laneBack (before now : Samples) (lane j back : Nat) : Word :=
  if back ≤ j then sampleAt now (32 * (j - back) + lane) else sampleAt before (32 * (1600 + j - back) + lane)

/-- R59, R139: one component of sample j of a lane's block delayed by k steps: with q whole samples and r eightieths,
floor(((80 - r) × u[n - q] + r × u[n - q - 1] + 40) / 80). -/
def delayedComponent (component : Word → Int) (before now : Samples) (k lane j : Nat) : Int :=
  ((80 - ((k % 80 : Nat) : Int)) * component (laneBack before now lane j (k / 80)) +
    ((k % 80 : Nat) : Int) * component (laneBack before now lane j (k / 80 + 1)) + 40) / 80

/-! ## Gates -/

/-- R145: the gate record g of a link with gate hold h after a present block of energy e. -/
def Gate.after (g : Gate) (e h : Nat) : Gate :=
  let floor := min e g.floor
  let opens := g.isOpen = false ∧ 4 * floor < e
  let closes := g.isOpen = true ∧ e ≤ 2 * floor ∧ h ≤ g.closeCount + 1
  let stays := g.isOpen = true ∧ ¬ closes
  { energy := e
    isOpen := decide (opens ∨ stays)
    closeCount := if g.isOpen = true ∧ e ≤ 2 * floor ∧ ¬ closes then g.closeCount + 1
      else if g.isOpen = true ∨ opens then 0 else g.closeCount
    floor := if ¬ (opens ∨ stays) ∧ floor ≤ e then min e (floor + floor / 256 + 1) else floor }

/-! ## The combine point -/

/-- R141: service v's block is combined from block record r. -/
abbrev State.combines (s : State) (r : BlockRecord) (v : ServiceIx) : Prop :=
  r.enabled[v] = true ∧ (s.service v).state = .enabled ∧ (s.service v).ring.isSome = true

/-- R141: link c.1 is an expected contributor of service v, on the lanes from c.2. -/
def BlockRecord.expects (r : BlockRecord) (v : ServiceIx) (c : LinkIx × Nat) : Prop :=
  ∃ z e, r.launched[c.1] = some z ∧ r.plans[z].find? (fun e => e.service == v) = some e ∧ e.first = c.2

/-- R142: an expected contributor is present. -/
def State.contributes (s : State) (v : ServiceIx) (l : LinkIx) : Prop :=
  (s.link l).mgr.state = .active ∧ ((s.link l).gates[v]).isSome = true ∧ (s.link l).mgr.wires[(2 : Fin 4)] = false ∧
    ∃ h, (s.link l).rx = some h ∧ h.middle.valid = true

/-- R139, R144: one component of sample n of the w lanes from c.2 of the delayed block of link c.1: lane n mod w, sample n div w. -/
def State.delayedInput (s : State) (r : BlockRecord) (component : Word → Int) (c : LinkIx × Nat) (w n : Nat) : Int :=
  match (s.link c.1).rx with
  | some h => delayedComponent component h.oldest.samples h.middle.samples r.applied[c.1] (c.2 + n % w) (n / w)
  | none => 0

/-- R144: the energy of a contributor's delayed block. -/
def State.inputEnergy (s : State) (r : BlockRecord) (c : LinkIx × Nat) (w : Nat) : Nat :=
  ((List.range (1600 * w)).map (fun n =>
    (s.delayedInput r sampleI c w n ^ 2 + s.delayedInput r sampleQ c w n ^ 2).toNat)).sum / (1600 * w)

/-- R146: a present contributor is counted open: its gate is forced, or open after R145. -/
def State.countsOpen (s : State) (r : BlockRecord) (v : ServiceIx) (c : LinkIx × Nat) : Prop :=
  (s.service v).bypass = true ∨ ((s.service v).kind = .rescue ∧ r.incident[(s.link c.1).settings.zone] = true) ∨
    ∃ g, (s.link c.1).gates[v] = some g ∧
      (g.after (s.inputEnergy r c (s.service v).width) (s.link c.1).settings.gateHold).isOpen = true

/-- R147: one component of combined sample n over the contributors counted open, before the clamp. -/
def State.summedInput (s : State) (r : BlockRecord) (component : Word → Int) (opened : List (LinkIx × Nat)) (w n : Nat) : Int :=
  ((opened.map (fun c => ((s.link c.1).settings.gain : Int) * s.delayedInput r component c w n)).sum + 8192) / 16384

/-- R147: block k of service v, combined from the contributors expected, present and counted open: its header and its samples. -/
def State.combinesTo (s : State) (r : BlockRecord) (v : ServiceIx) (k : Seq16) (expected present opened : List (LinkIx × Nat))
    (x : WorkBlock) : Prop :=
  let w := (s.service v).width
  let clip (y : Int) : Int := max (-32768) (min 32767 y)
  let clips (y : Int) : Nat := if clip y = y then 0 else 1
  x.service = v ∧ x.handed = 0 ∧
  x.header = { seq := k, expected := expected.length, missing := expected.length - present.length, opened := opened.length
               clips := ((List.range (1600 * w)).map (fun n =>
                 clips (s.summedInput r sampleI opened w n) + clips (s.summedInput r sampleQ opened w n))).sum
               droppedBefore := (s.service v).droppedBefore, empty := decide (expected = [])
               isPartial := decide (present.length < expected.length) } ∧
  ∀ n, n < 1600 * w → sampleI (sampleAt x.words n) = clip (s.summedInput r sampleI opened w n) ∧
    sampleQ (sampleAt x.words n) = clip (s.summedInput r sampleQ opened w n)

/-! ## The status page -/

/-- 10.5: "An enumerated field is coded by the position of its value in the list its owning rule gives, counting from 0". -/
def position {α : Type} [BEq α] (xs : List α) (x : α) : Int := (xs.findIdx (fun y => y == x) : Nat)

/-- The number in a field that is absent or present, 0 where it is absent (log 35). -/
def fieldOf (x : Option Nat) : Int := ((x.getD 0 : Nat) : Int)

/-- 10.5: a mask has bit i for index i, for exactly the indices of which p holds. -/
def masks {n : Nat} (mask : Nat) (p : Fin n → Prop) : Prop := ∀ i : Nat, mask.testBit i = true ↔ ∃ x : Fin n, x.val = i ∧ p x

/-- Word `at` of a page holds these fields, as word n of its part; 10.5 gives their order and not their bits (log 8). -/
def Page.holdsFields (p : Page) (at_ part n : Nat) (values : List Int) : Prop :=
  p.words[at_]? = some (.fields (1024 + 16 * part + n) values)

/-- Word `at` of a page is the mask of the services of which f holds (log 41). -/
def Page.holdsMask (p : Page) (at_ : Nat) (f : ServiceIx → Prop) : Prop :=
  ∃ m : Word, p.words[at_]? = some (.bits m) ∧ masks m.toNat f

/-- 10.5, Status page, header (R177, R167), with the largest occupancy as it stood before the snapshot. -/
def State.pageHoldsHeader (s : State) (largest : Nat) (p : Page) : Prop :=
  let u := s.notices
  p.holdsFields 0 0 0 [s.time.superframe.toNat, s.time.block.toNat] ∧
  p.holdsFields 1 0 1 [s.orders.consumer.val, s.orders.producer.val, s.orders.rejected] ∧
  p.holdsFields 2 0 2 [u.posted.toNat, u.consumed.toNat] ∧
  p.holdsFields 3 0 3 [position [.normal, .hold] u.holdState, u.holdAt, u.resumeAt, flagCode u.irqEnable, u.queue.length,
    flagCode u.nirq] ∧
  p.holdsFields 4 0 4 [u.rejected, s.poster.pagesCut.toNat] ∧
  p.holdsFields 5 0 5 [s.path.queue.length, flagCode s.path.pressure, s.path.pressureEntries] ∧
  p.holdsFields 6 0 6 [largest] ∧
  p.words[7]? = some (.bits s.arbiter.counter) ∧
  p.holdsFields 511 7 0 [s.time.superframe.toNat]

/-- 10.5, Status page, link l (R26, R57, R91); the outstanding count counts the tags held. The alarm wires as a mask are log 48, the
identity in words 4 and 5 log 36, an absent field log 35 and a two-valued one log 45: the model's choices. -/
def State.pageHoldsLink (s : State) (l : LinkIx) (p : Page) : Prop :=
  let x := s.link l
  let m := x.mgr
  let first := 16 + 16 * l.val
  let identity : Int := fieldOf (m.identity.map (fun i => i.identity.toNat))
  let held (g : Tag) : Nat := if m.outstanding[g].isSome then 1 else 0
  (∃ wires : Nat, masks wires (fun w : Fin 4 => m.wires[w] = true) ∧
    p.holdsFields first 1 0 [position [.dark, .listen, .attach, .standby, .joining, .active, .quiescing, .fault] m.state,
      x.settings.zone.val, x.settings.group.val, wires, flagCode x.rng.valid, flagCode x.rng.suspect, flagCode x.align.slewing,
      flagCode x.align.outOfReach, flagCode m.identity.isSome, (held 0 + held 1 + held 2 + held 3 : Nat), m.pendingQueue.length]) ∧
  p.holdsFields (first + 1) 1 1 [x.align.k, x.align.kStar] ∧
  p.holdsFields (first + 2) 1 2 [x.rng.delay, x.rng.path] ∧
  p.holdsFields (first + 3) 1 3 [x.rng.turn, x.rng.latency] ∧
  p.holdsFields (first + 4) 1 4 [identity] ∧
  p.holdsFields (first + 5) 1 5 [identity] ∧
  p.holdsFields (first + 6) 1 6 [fieldOf (m.identity.map (fun i => i.firmware.toNat)), x.rng.failures, x.rng.outliers] ∧
  p.holdsFields (first + 7) 1 7 [m.erroredFrames, m.unexpected] ∧
  p.holdsFields (first + 8) 1 8 [m.unsupported, m.violations] ∧
  p.holdsFields (first + 9) 1 9 [x.rng.missingEchoes, x.rng.runCounter.toNat, flagCode x.rng.run.isSome] ∧
  p.holdsFields (first + 10) 1 10 [((x.exchange.map (fun e => position [.switch, .join] e.purpose)).getD 0),
    ((x.exchange.map (fun e => position [.waiting, .accepted, .failed] e.standing)).getD 0),
    fieldOf (x.exchange.map (fun e => e.attempts)), fieldOf (x.exchange.map (fun e => e.m.toNat))] ∧
  p.holdsFields (first + 11) 1 11 [x.settings.power, x.settings.jitter, x.settings.gateHold] ∧
  p.holdsFields (first + 12) 1 12 [x.settings.asymmetry, x.settings.cable] ∧
  p.holdsFields (first + 13) 1 13 [x.settings.gain]

/-- 10.5, Status page, group g (R57). -/
def State.pageHoldsGroup (s : State) (g : GroupIx) (p : Page) : Prop :=
  let x := s.group g
  let first := 272 + 4 * g.val
  p.holdsFields first 2 0 [x.guard, x.slew] ∧
  p.holdsFields (first + 1) 2 1 [fieldOf x.target, flagCode x.target.isSome, fieldOf (x.hold.map (fun h => h.candidate))] ∧
  ∃ mask : Nat, masks mask (fun l : LinkIx => (s.link l).mgr.state = .active ∧ (s.link l).settings.group = g) ∧
    p.holdsFields (first + 2) 2 2 [fieldOf (x.hold.map (fun h => h.count)), flagCode x.hold.isSome, mask]

/-- 10.5, Status page, zone z (R103, R121, R136), and the break-in streams it selects, each with its channel (R136, log 44). -/
def State.pageHoldsZone (s : State) (z : ZoneIx) (p : Page) : Prop :=
  let x := s.zone z
  let first := 288 + 8 * z.val
  let ownerChannel : Int := ((x.owner.bind (fun y => s.arbiter.parts[y])).map (fun q => position [.a, .b] q.channel)).getD 0
  p.holdsFields first 3 0 [flagCode x.incident, flagCode x.hostFlag, flagCode x.crossfade, fieldOf (x.owner.map (fun o => o.val)),
    flagCode x.owner.isSome, ownerChannel, flagCode x.deferred, flagCode x.staged.isSome, x.planId.toNat,
    fieldOf (x.staged.map (fun q => q.planId.toNat))] ∧
  p.holdsFields (first + 1) 3 1 [fieldOf (x.staged.map (fun q => q.n.toNat))] ∧
  p.holdsMask (first + 2) (fun v => v ∈ carriedOf x.entries) ∧
  p.holdsMask (first + 3) (fun v => v ∈ x.shed) ∧
  p.holdsMask (first + 4) (fun v => ∃ q, x.staged = some q ∧ v ∈ carriedOf q.entries) ∧
  p.holdsMask (first + 5) (fun v => ∃ q, x.staged = some q ∧ v ∈ q.shed) ∧
  p.holdsMask (first + 6) (fun v => x.selection[v] = some .a ∨ x.selection[v] = some .b) ∧
  (p.breakIns[z].Pairwise (fun y y' => y.1 < y'.1) ∧ ∀ (v : ServiceIx) (c : Channel), (v, c) ∈ p.breakIns[z] ↔
    x.selection[v] = some (match c with
      | .a => StreamName.a
      | .b => StreamName.b))

/-- 10.5, Status page, service v (R69, R152). -/
def State.pageHoldsService (s : State) (v : ServiceIx) (p : Page) : Prop :=
  let x := s.service v
  let first := 352 + 4 * v.val
  let starved (r : Option StreamRec) : Int := flagCode ((r.map (fun q => q.starved)).getD false)
  let supplied := x.state = .enabled ∧ x.ring.isSome = true
  p.holdsFields first 4 0 [position [.free, .defined, .enabled] x.state, position [.broadcast, .mobile, .rescue] x.kind,
    starved x.streams.a, starved x.streams.b] ∧
  (supplied → p.holdsFields (first + 1) 4 1 [fieldOf (x.lastAppended.map (fun q => q.toNat)), flagCode x.lastAppended.isSome,
      flagCode (decide (v ∈ s.combiner.workList.map (fun b => b.service)))] ∧
    p.holdsFields (first + 2) 4 2 [x.droppedBefore]) ∧
  (¬ supplied → p.holdsFields (first + 1) 4 1 [0, 0, 0] ∧ p.holdsFields (first + 2) 4 2 [0])

/-- 10.5, Status page, contact input i (R121) and break-in source x (R136); the head of the list is position 0 (log 47). -/
def State.pageHoldsSources (s : State) (p : Page) : Prop :=
  (∀ i : InputIx, let c := s.input i
    p.holdsFields (448 + i.val) 5 0 [position [.off, .edge, .level] c.mode, c.mask.toNat, c.priority,
      position [.a, .b] c.channel, flagCode c.incidentFlag, flagCode c.latch, flagCode c.acked, flagCode c.level]) ∧
  ∀ x : SourceIx, let first := 452 + 2 * x.val
    (∀ q, s.arbiter.parts[x] = some q → p.holdsFields first 6 0 [1, q.mask.toNat, q.priority, position [.a, .b] q.channel,
      position s.arbiter.list x] ∧ p.words[first + 1]? = some (.bits q.stamp)) ∧
    (s.arbiter.parts[x] = none → p.holdsFields first 6 0 [0, 0, 0, 0, 0] ∧ p.words[first + 1]? = some (.bits 0))

/-- R177, 10.5: page p shows state s: its 512 words, every value the owning chapters supply in its place, zero in every other word. -/
def State.pageShows (s : State) (largest : Nat) (p : Page) : Prop :=
  p.words.length = 512 ∧ s.pageHoldsHeader largest p ∧ (∀ l, s.pageHoldsLink l p) ∧ (∀ g, s.pageHoldsGroup g p) ∧
  (∀ z, s.pageHoldsZone z p) ∧ (∀ v, s.pageHoldsService v p) ∧ s.pageHoldsSources p ∧
  (∀ k : Nat, (8 ≤ k ∧ k < 16 ∨ 16 ≤ k ∧ k < 272 ∧ 14 ≤ k % 16 ∨ 272 ≤ k ∧ k < 288 ∧ k % 4 = 3 ∨ 288 ≤ k ∧ k < 352 ∧ k % 8 = 7 ∨
    352 ≤ k ∧ k < 448 ∧ k % 4 = 3 ∨ 468 ≤ k ∧ k < 511) → p.words[k]? = some (.bits 0))

/-! ## What a boundary finds -/

/-- Nothing that fell at the present boundary, or in the period it began, is left to be taken (log 3). -/
def State.quiet (s : State) : Prop :=
  s.time.superframeOwed = false ∧
  (∀ l, let m := (s.link l).mgr
    let r := (s.link l).rng
    (¬ (m.state = .listen ∧ m.listenPhase = some .settle ∧ m.phaseCount = 100)) ∧
    (¬ (m.attachDue = true ∧ m.state = .listen ∧ m.listenPhase = some .detect ∧ m.lock = true)) ∧
    (¬ (m.state = .attach ∧ m.attachPhase = some .debounce ∧ m.phaseCount = 98)) ∧
    (¬ (m.state = .attach ∧ m.attachPhase = some .helloWait ∧ m.phaseCount = 50)) ∧
    (¬ (m.quiesceDue = true ∧ m.state = .quiescing)) ∧
    (∀ (g : Tag) (o : Outstanding) (b : Seq16), m.outstanding[g] = some o → o.sentIn = some b → (s.time.block - b).toNat < 40) ∧
    (∀ (x : RangingRun) (n : Fin 4), r.run = some x → x.marksSent = n.val + 1 → s.period = x.firstBlock + BitVec.ofNat 16 n.val →
      x.roundTrips[n] ≠ none) ∧
    (∀ x, r.run = some x → x.marksSent ≤ 4) ∧
    (∀ y, r.marker = some y → y.isOpen = false) ∧
    (¬ (m.state = .active ∧ r.run = none ∧ 16 ≤ r.trackCount)) ∧
    (¬ (m.state = .joining ∧ ∃ x, (s.link l).exchange = some x ∧ x.purpose = .join ∧ x.m = s.time.superframe))) ∧
  (∀ g h, (s.group g).hold = some h → h.count < 100) ∧
  (∀ i, (s.input i).changeDue = false) ∧
  (∀ z p, (s.zone z).staged = some p → p.n ≠ s.time.superframe)

/-! ## Departure from ACTIVE, teardown and entry to ACTIVE -/

/-- R47, R48, R52: the flag that a departure of link l clears, as the ALIGN of its re-evaluation lists it. -/
def State.clearedFlag (s : State) (l : LinkIx) : List (LinkIx × Bool) := if (s.link l).align.outOfReach then [(l, false)] else []

/-- R41, R47, R48, R98, R137, R143: state s with link l in a state other than ACTIVE, without a teardown: its tracking state cleared, K
frozen, its exchange, received history and gate records gone. Its group is still to be re-evaluated. -/
def State.departed (s : State) (l : LinkIx) (new : LinkState) : State :=
  s.modLink l (fun x => { x with
    mgr := { x.mgr with state := new }
    rng := { x.rng with trackCount := 0, outliers := 0, marker := none, skipCount := false }
    align := { k := x.align.k, kStar := x.align.k, slewing := false, outOfReach := false }
    exchange := none, rx := none, gates := Vector.replicate 24 none })

/-- R15, R27, R37, R98: state s with link l torn down into state `new`: what the teardown clears on l. Its requests are still to be
reported, and its group to be re-evaluated. -/
def State.torn (s : State) (l : LinkIx) (new : LinkState) : State :=
  s.modLink l (fun x => { x with
    mgr := { x.mgr with
      state := new, laser := new != .dark, outstanding := Vector.replicate 4 none, pendingQueue := [], txQueue := [], leaving := []
      markNext := none, wires := Vector.replicate 4 false, identity := none, erroredRun := 0, attachPhase := none, listenPhase := none
      attachDue := false, quiesceDue := false }
    rng := { x.rng with run := none, valid := false, marker := none, trackCount := 0, outliers := 0, failures := 0, skipCount := false }
    align := { k := 0, kStar := 0, slewing := false, outOfReach := false }
    exchange := none, rx := none, gates := Vector.replicate 24 none })

/-- R15: the requests a teardown of link l completes, in its order: the outstanding ones in ascending tag order, then the pending queue
from head to tail. -/
def Manager.heldRequests (m : Manager) : List Request :=
  ([0, 1, 2, 3] : List Tag).filterMap (fun g => m.outstanding[g].map (fun o => o.request)) ++ m.pendingQueue

/-- R13 to R16, R47, R52: t is s with link l torn down into state `new`: its LINK_STATE first, then the QUERY_DONE (LINK_DOWN) of every
query it held, and, of a link that was in ACTIVE, the re-evaluation of the group it leaves, with its ALIGN last. Nothing else changes. -/
def TornDown (s t : State) (l : LinkIx) (new : LinkState) (cause : LinkCause) : Prop :=
  let x := s.link l
  let down := (s.torn l new).plusNotices
    (.linkState l x.mgr.state new cause x.mgr.wires none :: queryDones l .linkDown x.mgr.heldRequests)
  (x.mgr.state ≠ .active → t = down) ∧
  (x.mgr.state = .active → down.reEvaluated t x.settings.group (s.group x.settings.group) (.left l) (s.clearedFlag l))

/-- R9, R37, R41, R47, R54, R60, R98, R137, R143: t is s with link l entered into ACTIVE, where a plan of these entries is in force: its
LINK_STATE, the re-evaluation of the group it joins, K at K* at once, a received history of zeros, and a gate record as created for each
service of the plan with an uplink ring. -/
def State.entersActive (s t : State) (l : LinkIx) (entries : List Entry) : Prop :=
  let x := s.link l
  let before : RxBlock := { samples := [], taken := true, valid := false }
  let entered := (s.modLink l (fun x => { x with
    mgr := { x.mgr with state := .active }
    rng := { x.rng with trackCount := 0, outliers := 0, marker := none, failures := 0, skipCount := s.time.superframeOwed }
    exchange := none })).plusNotice (.linkState l x.mgr.state .active .planAccepted (Vector.replicate 4 false) none)
  ∃ u : State, entered.reEvaluated u x.settings.group (s.group x.settings.group) (.joined l) [] ∧
    t = u.modLink l (fun y => { y with
      align := { y.align with k := y.align.kStar, slewing := false }
      rx := some { oldest := before, middle := before
                   newest := if s.time.blockOwed then before else { samples := [], taken := false, valid := false } }
      gates := (t.link l).gates }) ∧
    ∀ v : ServiceIx, (t.link l).gates[v] = if v ∈ carriedOf entries ∧ (s.service v).ring.isSome = true then
      some { energy := 0, floor := 4294967295, isOpen := false, closeCount := 0 } else none

/-- R86, R87: the entries of a plan lie on lanes 0 to 31, in rising lanes and without overlap. -/
def planFits : Nat → List Entry → Prop
  | lane, [] => lane ≤ 32
  | lane, e :: rest => lane ≤ e.first ∧ planFits (e.first + e.width) rest

/-- R83: the plan in force for zone z's present block: the staged plan once its switch superframe has begun, else the current plan. -/
def State.putsInForce (s : State) (z : ZoneIx) (plan : List Entry) : Prop :=
  (∃ p, (s.zone z).staged = some p ∧ p.n = s.time.superframe ∧ p.entries = plan) ∨
    ((∀ p, (s.zone z).staged = some p → p.n ≠ s.time.superframe) ∧ (s.zone z).entries = plan)

/-- R77, R79: sample word k of the block that stream n of service v launched last; 0 where it has launched none. -/
def State.launchedWord (s : State) (v : ServiceIx) (n : StreamName) (k : Nat) : Word :=
  (((s.service v).streams.get n).bind (fun r => r.launch)).elim 0 (fun x => sampleAt x.words k)

/-- R81, R82, R133: these are the lanes of zone z's present block by a plan that fits its lanes: each entry's lanes carry the stream its
service selects, crossfaded from the stream noted as faded from (log 20), and a lane in no entry carries zeros. -/
def State.buildsLanes (s : State) (z : ZoneIx) (plan : List Entry) (lanes : Samples) : Prop :=
  planFits 0 plan → (∀ e, e ∈ plan → 1 ≤ e.width) →
    (∀ (e : Entry) (j i : Nat), e ∈ plan → j < 1600 → i < e.width →
      let out := sampleAt lanes (32 * j + e.first + i)
      let word (n : StreamName) : Word := s.launchedWord e.service n (j * e.width + i)
      ((s.zone z).selection[e.service] = none → out = 0) ∧
      (∀ new, (s.zone z).selection[e.service] = some new → (s.zone z).fadeFrom[e.service] = none → out = word new) ∧
      (∀ old new, (s.zone z).selection[e.service] = some new → (s.zone z).fadeFrom[e.service] = some old →
        ∀ component, component ∈ ([sampleI, sampleQ] : List (Word → Int)) → component out =
          (component (word old) * (1600 - (j : Int)) + component (word new) * (j : Int) + 800) / 1600)) ∧
    (∀ lane j, lane < 32 → j < 1600 → (∀ e, e ∈ plan → lane < e.first ∨ e.first + e.width ≤ lane) → sampleAt lanes (32 * j + lane) = 0)

/-- R3, R58, R60, R137 (log 20): t is s but for the frame, the lanes and the block record's view of each link whose state changed on the
way from `before` to s, where the frames of the boundary have started already: such a frame loses its messages where the control channel is
closed, carries lanes where the link is in ACTIVE, and takes the link's K; the lanes of the block become those its zone's plan in force
gives an ACTIVE link, as the services and the selection stand in s, and zeros for another; the record of the block takes the link's K and
whether it launches in ACTIVE. Every other link's frame, lanes and part in the record stand. -/
def State.governed (before s t : State) : Prop :=
  let changed (l : LinkIx) : Prop := s.time.blockOwed = false ∧ (s.link l).mgr.state ≠ (before.link l).mgr.state
  (s.time.blockOwed = true → t = s) ∧
  t = { s with links := t.links, combiner := { s.combiner with now := t.combiner.now } } ∧
  (s.combiner.now = none → t.combiner.now = none) ∧
  (∀ r, s.combiner.now = some r → ∃ r' : BlockRecord, t.combiner.now = some { r with applied := r'.applied, launched := r'.launched } ∧
    ∀ l, let y := s.link l
      (¬ changed l → r'.applied[l] = r.applied[l] ∧ r'.launched[l] = r.launched[l]) ∧
      (changed l → r'.applied[l] = y.align.k ∧
        r'.launched[l] = if y.mgr.state = .active then some y.settings.zone else none)) ∧
  ∀ l, let y := s.link l
    let lanes := (t.link l).line.now
    (¬ changed l → t.link l = y) ∧
    (changed l →
      t.link l = { y with
        mgr := { y.mgr with frame := y.mgr.frame.map (fun f =>
          { messages := if y.mgr.state ∈ ([.standby, .joining, .active, .quiescing] : List LinkState) then f.messages else []
            carriesLanes := y.mgr.state == .active, k := y.align.k }) }
        line := { before := y.line.before, now := lanes } } ∧
      (y.mgr.state ≠ .active → lanes = []) ∧
      (y.mgr.state = .active → ∀ plan, s.putsInForce y.settings.zone plan → s.buildsLanes y.settings.zone plan lanes))

/-! ## Admission, placement and replans -/

/-- R84: zone z demands service v. -/
def State.isDemanded (s : State) (z : ZoneIx) (v : ServiceIx) : Prop :=
  (s.service v).state = .enabled ∧ (s.service v).mask.getLsbD z.val = true ∧
    ((s.service v).incidentOnly = false ∨ (s.zone z).incident = true)

/-- R85: the effective class of service v in zone z is c. -/
def State.classIs (s : State) (z : ZoneIx) (v : ServiceIx) (c : Nat) : Prop :=
  let promoted : Prop := (s.service v).kind = .broadcast ∧ ∃ y q, (s.zone z).owner = some y ∧ s.arbiter.parts[y] = some q ∧
    ((s.service v).areas.get (if q.channel = .a then .a else .b)).isSome = true
  (promoted → c = 7) ∧ (¬ promoted → c = (s.service v).cls)

/-- R86 step 1: the rank of a kind. -/
def Kind.rank : Kind → Nat
  | .rescue => 0
  | .broadcast => 1
  | .mobile => 2

/-- R86 step 1: service v stands before v' in the order of zone z's admission. -/
def State.sortsBefore (s : State) (z : ZoneIx) (v v' : ServiceIx) : Prop :=
  ∃ c c', s.classIs z v c ∧ s.classIs z v' c' ∧ (c' < c ∨ (c' = c ∧ ((s.service v).kind.rank < (s.service v').kind.rank ∨
    ((s.service v).kind.rank = (s.service v').kind.rank ∧ v < v'))))

/-- R84 to R86: zone z's demand set is admitted into a carried set and a shed list, both in ascending index: a service of the sorted set
is carried where its width fits what the carried services before it leave of the 32 lanes. -/
def State.admits (s : State) (z : ZoneIx) (carried shed : List ServiceIx) : Prop :=
  ∃ sorted : List ServiceIx, sorted.Pairwise (s.sortsBefore z) ∧ (∀ v, v ∈ sorted ↔ s.isDemanded z v) ∧
    carried.Pairwise (· < ·) ∧ shed.Pairwise (· < ·) ∧ (∀ v, v ∈ sorted ↔ (v ∈ carried ∨ v ∈ shed)) ∧
    (∀ v, v ∈ carried → v ∉ shed) ∧
    ∀ before v after, sorted = before ++ v :: after → (v ∈ carried ↔
      ((before.filter (fun u => decide (u ∈ carried))).map (fun u => (s.service u).width)).sum + (s.service v).width ≤ 32)

/-- R87: these entries place a carried set, given in ascending index, packed from lane 0, each with its service's width. -/
def State.places (s : State) (carried : List ServiceIx) (entries : List Entry) : Prop :=
  carriedOf entries = carried ∧ ∀ before e after, entries = before ++ e :: after →
    e.width = (s.service e.service).width ∧ e.first = (before.map (fun x => x.width)).sum

/-- An exchange no PLAN has been issued for yet. -/
def exchangeFor (purpose : Purpose) (target : BitVec 8) (m : Seq16) (attempts : Nat) : Exchange :=
  { purpose := purpose, target := target, m := m, current := none, standing := .waiting, attempts := attempts }

/-- R93: t is s with plan p staged for zone z: on each link of z a SWITCH exchange opened in ACTIVE, a JOIN exchange redirected in
JOINING, and a PLAN issued for it. -/
def State.stages (s t : State) (z : ZoneIx) (p : StagedPlan) : Prop :=
  (s.modZone z (fun x => { x with staged := some p })).plansIssued t (fun l =>
    if (s.link l).settings.zone = z ∧ (s.link l).mgr.state = .active then
      some (exchangeFor .switch p.planId p.n 0, p.entries)
    else if (s.link l).settings.zone = z ∧ (s.link l).mgr.state = .joining then
      some (exchangeFor .join p.planId p.n 0, p.entries)
    else none)

/-- R63: every service's class lies in 0..7. -/
abbrev State.classesBounded (s : State) : Prop := ∀ v, (s.service v).cls ≤ 7

/-- R84 to R89, R93: t is s after a replan of zone z: deferred where a plan is staged; nothing where the carried set is the current plan's
(R87 keeps both in ascending service index); else the plan staged with the next plan id and its switch three superframes on. -/
def State.replanned (s t : State) (z : ZoneIx) : Prop :=
  ((s.zone z).staged.isSome = true → t = s.modZone z (fun x => { x with deferred := true })) ∧
  ((s.zone z).staged = none → s.classesBounded → ∃ carried shed, s.admits z carried shed ∧
    (carried = carriedOf (s.zone z).entries → t = s) ∧
    (carried ≠ carriedOf (s.zone z).entries → ∃ p : StagedPlan, p.planId = (s.zone z).planId + 1 ∧ p.n = s.time.superframe + 3 ∧
      p.shed = shed ∧ s.places carried p.entries ∧ s.stages t z p))

/-- R88: t is s after the replans of these zones, each taken in the state the one before it leaves. -/
def State.replannedAll (s t : State) : List ZoneIx → Prop
  | [] => t = s
  | z :: rest => ∃ u, s.replanned u z ∧ u.replannedAll t rest

/-- The list holds the zones with a property, in ascending index. -/
def zonesWith (zs : List ZoneIx) (p : ZoneIx → Prop) : Prop := zs.Pairwise (· < ·) ∧ ∀ z, z ∈ zs ↔ p z

/-! ## The switch -/

/-- R9, R47, R48, R99 to R101: what the switch of zone z to plan p, begun in state s, does on link l, from a to b. -/
def State.linkSwitched (s a b : State) (z : ZoneIx) (p : StagedPlan) (l : LinkIx) : Prop :=
  let x := s.link l
  let accepted : Prop := ∃ e, x.exchange = some e ∧ e.standing = .accepted
  let follows : Prop := ∃ e, x.exchange = some e ∧ e.purpose = .switch ∧ e.standing = .accepted
  ((x.settings.zone ≠ z ∨ (x.mgr.state ≠ .active ∧ x.mgr.state ≠ .joining) ∨ (x.mgr.state = .joining ∧ x.exchange = none)) → b = a) ∧
  (x.settings.zone = z → x.mgr.state = .active → follows → b = a.modLink l (fun y => { y with exchange := none })) ∧
  (x.settings.zone = z → x.mgr.state = .active → ¬ follows → ∃ d : State,
    ((a.departed l .joining).plusNotice (.linkState l .active .joining .planNotAccepted (Vector.replicate 4 false) none)).reEvaluated d
      x.settings.group (a.group x.settings.group) (.left l) (a.clearedFlag l) ∧
    b = d.modLink l (fun y => { y with exchange := some (exchangeFor .join p.planId (s.time.superframe + 3) 0) })) ∧
  (x.settings.zone = z → x.mgr.state = .joining → accepted → a.entersActive b l p.entries) ∧
  (∀ e, x.settings.zone = z → x.mgr.state = .joining → x.exchange = some e → e.standing ≠ .accepted →
    (s.planWasSent l e → 2 ≤ e.attempts → TornDown a b l .fault (.fault .planFail)) ∧
    (s.planWasSent l e → e.attempts < 2 →
      b = a.modLink l (fun y => { y with exchange := some { e with attempts := e.attempts + 1 } })) ∧
    (¬ s.planWasSent l e → b = a))

/-- R99 to R101: t is s after the switch of zone z to plan p, step by step: the plan made current; the links of the zone in ascending
index (log 18); the gate records of the services the plan adds; PLAN_SWITCHED; the deferred replan; the JOINING links renewed unless that
staged a plan; the frames of the boundary where they have started (log 20). -/
def State.zoneSwitched (s t : State) (z : ZoneIx) (p : StagedPlan) : Prop :=
  ∃ (c : Nat → State) (u r w : State) (sent : List LinkIx),
    c 0 = s.modZone z (fun x => { x with planId := p.planId, entries := p.entries, shed := p.shed, staged := none }) ∧
    (∀ l : LinkIx, s.linkSwitched (c l.val) (c (l.val + 1)) z p l) ∧
    (sent.Pairwise (· < ·) ∧ ∀ l, l ∈ sent ↔ ((s.link l).settings.zone = z ∧ (s.link l).mgr.state = .active ∧
      ¬ ∃ e, (s.link l).exchange = some e ∧ e.purpose = .switch ∧ e.standing = .accepted)) ∧
    u = { (c 16).plusNotice (.planSwitched z p.planId p.entries p.shed sent) with links := u.links } ∧
    (∀ l, u.link l = { (c 16).link l with gates := (u.link l).gates } ∧ ∀ v : ServiceIx, (u.link l).gates[v] =
      if ((c 16).link l).mgr.state = .active ∧ (s.link l).settings.zone = z ∧ v ∈ carriedOf p.entries ∧
          (s.service v).ring.isSome = true then
        some (((c 16).link l).gates[v].getD { energy := 0, floor := 4294967295, isOpen := false, closeCount := 0 })
      else ((c 16).link l).gates[v]) ∧
    ((s.zone z).deferred = false → r = u) ∧
    ((s.zone z).deferred = true → (u.modZone z (fun x => { x with deferred := false })).replanned r z) ∧
    ((r.zone z).staged.isSome = true → w = r) ∧
    ((r.zone z).staged = none → r.plansIssued w (fun l =>
      if (r.link l).settings.zone = z ∧ (r.link l).mgr.state = .joining then
        some (exchangeFor .join p.planId (s.time.superframe + 3) (((r.link l).exchange.map (fun e => e.attempts)).getD 0), p.entries)
      else none)) ∧
    s.governed w t

/-- R102: t is s after the superframe of the JOIN exchanges due there, link by link in ascending index (log 26); then the frames of the
boundary where they have started (log 20). -/
def State.joinsSettled (s t : State) : Prop :=
  ∃ c : Nat → State, c 0 = s ∧ s.governed (c 16) t ∧ ∀ l : LinkIx,
    let a := c l.val
    let b := c (l.val + 1)
    let z := s.zone (s.link l).settings.zone
    let renewed (attempts : Nat) : Prop := a.plansIssued b (fun l' =>
      if l' = l then some (exchangeFor .join z.planId (s.time.superframe + 3) attempts, z.entries) else none)
    (s.joinDue l = false → b = a) ∧
    (∀ e, s.joinDue l = true → (s.link l).exchange = some e →
      (e.standing = .accepted → a.entersActive b l z.entries) ∧
      (e.standing ≠ .accepted → s.planWasSent l e → 2 ≤ e.attempts → TornDown a b l .fault (.fault .planFail)) ∧
      (e.standing ≠ .accepted → s.planWasSent l e → e.attempts < 2 → renewed (e.attempts + 1)) ∧
      (e.standing ≠ .accepted → ¬ s.planWasSent l e → renewed e.attempts))

/-! ## Incident states and owners -/

/-- R105: contact input i holds zone z in incident. -/
def State.holdsIncident (s : State) (z : ZoneIx) (i : InputIx) : Prop :=
  (s.input i).latch = true ∧ (s.input i).incidentFlag = true ∧ (s.input i).mask.getLsbD z.val = true

/-- R105, R106 steps 1 and 2, R109: u is s with the derived state of the zones with property p worked out anew: `changed` are those it
turns, in ascending index, each with its INCIDENT. -/
def State.incidentsWorked (s u : State) (p : ZoneIx → Prop) (cause : IncidentCause) (changed : List ZoneIx) : Prop :=
  ∃ inputs : ZoneIx → List InputIx,
    (∀ z, (inputs z).Pairwise (· < ·) ∧ ∀ i, i ∈ inputs z ↔ s.holdsIncident z i) ∧
    zonesWith changed (fun z => p z ∧
      ¬ ((s.zone z).incident = true ↔ ((s.zone z).hostFlag = true ∨ ∃ i, s.holdsIncident z i))) ∧
    (∀ z, u.zone z = if z ∈ changed then { s.zone z with incident := !(s.zone z).incident } else s.zone z) ∧
    u = { s.plusNotices (changed.map (fun z =>
      .incident z (s.zone z).incident (!(s.zone z).incident) (s.zone z).hostFlag (inputs z) cause)) with zones := u.zones }

/-- R106: t is s with the derived states of these zones worked out one after another, each changed zone replanned before the next is
taken. -/
def State.incidentsTaken (s t : State) (cause : IncidentCause) : List ZoneIx → Prop
  | [] => t = s
  | z :: rest => ∃ u v changed, s.incidentsWorked u (fun z' => z' = z) cause changed ∧ u.replannedAll v changed ∧
    v.incidentsTaken t cause rest

/-- R127: y owns z only as an active source covering it that no other active source covering it outranks: none has a higher priority,
none the same priority from nearer the head of the list. -/
def Arbiter.ranksFirst (a : Arbiter) (z : ZoneIx) (y : SourceIx) : Prop :=
  y ∈ a.list ∧ a.covers z y = true ∧
    ∀ x, x ∈ a.list → a.covers z x = true → x ≠ y →
      a.priorityOf x < a.priorityOf y ∨ (a.priorityOf x = a.priorityOf y ∧ a.list.findIdx (· == y) < a.list.findIdx (· == x))

/-- The channel of zone z's break-in owner; none where it has no owner (R85, R129). -/
def State.channelOwned (s : State) (z : ZoneIx) : Option Channel :=
  ((s.zone z).owner.bind (fun y => s.arbiter.parts[y])).map (fun q => q.channel)

/-- R129: t is s after an event that makes the arbiter's state a and settles the owners of the zones of a mask, each as `settles` says:
every owner stands before anything is reported; then a BREAKIN_OWNER for each zone whose owner changed, then a replan of each whose
owner's channel changed. -/
def State.ownersChanged (s t : State) (a : Arbiter) (mask : BitVec 8) (cause : OwnerCause)
    (settles : ZoneIx → Option SourceIx → Prop) : Prop :=
  ∃ (u : State) (changed switched : List ZoneIx),
    (∀ z, u.zone z = { s.zone z with owner := (u.zone z).owner }) ∧
    (∀ z, mask.getLsbD z.val = true → settles z (u.zone z).owner) ∧
    (∀ z, mask.getLsbD z.val = false → (u.zone z).owner = (s.zone z).owner) ∧
    zonesWith changed (fun z => (u.zone z).owner ≠ (s.zone z).owner) ∧
    zonesWith switched (fun z => (u.zone z).owner ≠ (s.zone z).owner ∧ u.channelOwned z ≠ s.channelOwned z) ∧
    u = { s.plusNotices (changed.map (fun z =>
      .breakinOwner z (s.zone z).owner (u.zone z).owner ((u.zone z).owner.bind (fun y => a.parts[y])) cause)) with
        arbiter := a, zones := u.zones } ∧
    u.replannedAll t switched

/-- R122, R127, R129: t is s with source x activated: it joins the tail of the list with the counter's stamp, and takes each zone of its
mask that has no owner or one of lower priority. -/
def State.sourceActivated (s t : State) (x : SourceIx) (mask : BitVec 8) (priority : Nat) (channel : Channel) (cause : OwnerCause) :
    Prop :=
  let a : Arbiter :=
    { parts := s.arbiter.parts.set x (some { mask := mask, priority := priority, channel := channel, stamp := s.arbiter.counter })
      counter := s.arbiter.counter + 1
      list := s.arbiter.list ++ [x] }
  s.ownersChanged t a mask cause (fun z new =>
    ((s.zone z).owner = none → new = some x) ∧
    ∀ y, (s.zone z).owner = some y → new = if a.priorityOf y < priority then some x else some y)

/-- R122, R128, R129: t is s with source x deactivated: each zone of its mask that it owned passes to the source that then ranks first in
it, or to none. -/
def State.sourceDeactivated (s t : State) (x : SourceIx) (cause : OwnerCause) : Prop :=
  (s.arbiter.parts[x] = none → t = s) ∧
  ∀ q, s.arbiter.parts[x] = some q →
    let a : Arbiter := { s.arbiter with parts := s.arbiter.parts.set x none, list := s.arbiter.list.filter (fun y => y != x) }
    s.ownersChanged t a q.mask cause (fun z new =>
      ((s.zone z).owner ≠ some x → new = (s.zone z).owner) ∧
      ((s.zone z).owner = some x → (∀ y, new = some y → a.ranksFirst z y) ∧
        (new = none → ∀ y, y ∈ a.list → a.covers z y = false)))

/-- R113 steps 2 to 4: t is s after the latch of contact input i, stored already with its settings, has been set or cleared: the INCIDENT
notices of the zones of its mask, then the arbiter's share, then the replans of the zones whose derived state changed. -/
def State.latchTaken (s t : State) (i : InputIx) (isSet : Bool) : Prop :=
  let c := s.input i
  ∃ (u v : State) (changed : List ZoneIx),
    s.incidentsWorked u (fun z => c.mask.getLsbD z.val = true) (.line i isSet) changed ∧
    (isSet = true → u.sourceActivated v (contactSource i) c.mask c.priority c.channel (.lineSet i)) ∧
    (isSet = false → u.sourceDeactivated v (contactSource i) (.lineCleared i)) ∧
    v.replannedAll t changed

/-! ## Invariants -/

/-- R159: "The posting queue never holds more than 64 entries." -/
abbrev State.postingQueueBounded (s : State) : Prop := s.path.queue.length ≤ 64

/-- R173: the internal queue holds at most 16 notices. -/
abbrev State.noticeQueueBounded (s : State) : Prop := s.notices.queue.length ≤ 16

/-- R165: nothing is queued while RESET is asserted. -/
abbrev State.emptyInReset (s : State) : Prop := s.path.inReset = true → s.path.queue = []

/-- R153: the control window base is a number 0..16,383 multiplied by 65,536. -/
abbrev State.windowAligned (s : State) : Prop := s.path.windowBase % 65536 = 0 ∧ s.path.windowBase ≤ 1073676288

/-- R176: NIRQ is asserted exactly while NP differs from NC, the interrupt enable is ON, and RESET is not asserted. -/
abbrev State.nirqRight (s : State) : Prop :=
  s.notices.nirq = (!s.path.inReset && s.notices.posted != s.notices.consumed && s.notices.irqEnable)

/-- The notice records in the posting queue, handed over and not yet posted. -/
def State.recordsQueued (s : State) : Nat := (s.path.queue.filter (fun p => p.producer == .noticeUnit)).length

/-- R174: the records handed over are those posted and those queued, no more than 64 of them are unconsumed, and the notice being handed
over fits what is free. -/
def State.noticeRingRight (s : State) : Prop :=
  s.path.inReset = false →
    (s.notices.written - s.notices.posted).toNat = s.recordsQueued ∧
    (s.notices.written - s.notices.consumed).toNat = (s.notices.posted - s.notices.consumed).toNat + s.recordsQueued ∧
    (s.notices.written - s.notices.consumed).toNat ≤ 64 ∧
    (∀ n k, s.notices.handing = some (n, k) → k < n.records ∧ n.records ≤ k + s.notices.free)

/-- R171: an order that is executing is the one at the consumer index. -/
def State.executingAtConsumer (s : State) : Prop := ∀ x, s.orders.executing = some x → x = s.orders.consumer

/-- The result postings queued or waiting for room (R159, R171). -/
def State.resultPostings (s : State) : Nat :=
  (s.path.queue.filter (fun p => p.producer == .orderUnit)).length + (if s.orders.result.isSome then 1 else 0)

/-- R171: outside RESET an order executes exactly while its one result posting is queued or waiting, and no order is pending while none
executes. -/
def State.ordersInStep (s : State) : Prop :=
  s.path.inReset = false →
    s.resultPostings = (if s.orders.executing.isSome then 1 else 0) ∧
    (s.orders.executing = none → s.orders.producer = s.orders.consumer)

/-- R3, 1.2: the laser is off in DARK and on in every other state. -/
abbrev State.laserRight (s : State) : Prop := ∀ l, (s.link l).mgr.laser = ((s.link l).mgr.state != .dark)

/-- R91: an exchange is absent whenever the link is in a state other than JOINING or ACTIVE. -/
abbrev State.exchangesPlaced (s : State) : Prop :=
  ∀ l, (s.link l).exchange.isSome = true → (s.link l).mgr.state = .joining ∨ (s.link l).mgr.state = .active

/-- R18, R19: a link whose control channel is closed has nothing outstanding, pending or waiting to be sent. -/
abbrev State.closedChannelsEmpty (s : State) : Prop :=
  ∀ l, (s.link l).mgr.state.controlOpen = false →
    (∀ g : Tag, (s.link l).mgr.outstanding[g] = none) ∧ (s.link l).mgr.pendingQueue = [] ∧ (s.link l).mgr.txQueue = [] ∧
      (s.link l).mgr.leaving = []

/-- R20: the pending queue holds at most 8 entries and at most one PLAN. -/
abbrev State.pendingBounded (s : State) : Prop :=
  ∀ l, (s.link l).mgr.pendingQueue.length ≤ 8 ∧ ((s.link l).mgr.pendingQueue.filter Request.isPlan).length ≤ 1

/-- R53: K and K* lie in 0..16,383. -/
abbrev State.delaysBounded (s : State) : Prop := ∀ l, (s.link l).align.k ≤ 16383 ∧ (s.link l).align.kStar ≤ 16383

/-- R49, R53, R55: every member's group has a target no earlier than its path plus the guard, a running hold's candidate likewise, and
the member's K*, OUT_OF_REACH and SLEWING follow from T, P and K. -/
def State.membersAligned (s : State) : Prop :=
  ∀ l, (s.link l).mgr.state = .active →
    ∃ t, (s.group (s.link l).settings.group).target = some t ∧
      (s.link l).rng.path + (s.group (s.link l).settings.group).guard ≤ t ∧
      (∀ h, (s.group (s.link l).settings.group).hold = some h →
        (s.link l).rng.path + (s.group (s.link l).settings.group).guard ≤ h.candidate) ∧
      (s.link l).align.kStar = min 16383 (t - (s.link l).rng.path) ∧
      (s.link l).align.outOfReach = decide (16383 < t - (s.link l).rng.path) ∧
      (s.link l).align.slewing = ((s.link l).align.k != (s.link l).align.kStar)

/-- R66: "Over all enabled services, width × streams sums to at most 80, and width over services with an uplink ring sums to at most
48." -/
abbrev State.capacityHeld (s : State) : Prop :=
  s.enabledSum Service.stagingDemand ≤ 80 ∧ s.enabledSum Service.uplinkDemand ≤ 48

/-- R105: the derived incident state is ON while the host flag is set or a latched input with its incident flag set covers the zone. -/
def State.incidentRight (s : State) : Prop :=
  ∀ z, (s.zone z).incident = true ↔ ((s.zone z).hostFlag = true ∨
    ∃ i, (s.input i).latch = true ∧ (s.input i).incidentFlag = true ∧ (s.input i).mask.getLsbD z.val = true)

/-- R122, R126, R127: the list holds the active sources once each, a contact source is active while its latch is set, and each zone is
owned by the source that ranks first in it, or by none where none covers it. -/
def State.ownershipRight (s : State) : Prop :=
  s.arbiter.list.Nodup ∧ (∀ x, x ∈ s.arbiter.list ↔ (s.arbiter.parts[x]).isSome = true) ∧
    (∀ i, (s.arbiter.parts[contactSource i]).isSome = (s.input i).latch) ∧
    ∀ z, match (s.zone z).owner with
      | some y => s.arbiter.ranksFirst z y
      | none => ∀ x, x ∈ s.arbiter.list → s.arbiter.covers z x = false

/-- R86, R87: every current and staged plan fits its 32 lanes. -/
def State.plansFit (s : State) : Prop :=
  ∀ z, planFits 0 (s.zone z).entries ∧ ∀ p, (s.zone z).staged = some p → planFits 0 p.entries

/-- R137: the work list holds at most one block per service. -/
abbrev State.oneBlockPerService (s : State) : Prop := (s.combiner.workList.map (fun b => b.service)).Nodup

/-- The one form of an optional slot's words. -/
def Slot.wf (x : Slot) : Prop := samplesWf x.words = true

/-- The one form of a stream record's slots. -/
def StreamRec.wf (r : StreamRec) : Prop := r.open1.wf ∧ r.open2.wf ∧ ∀ x, r.launch = some x → x.wf

/-- R58, R70, R137 (log 24): every sample store is in its one form: rising indices, no zero listed. -/
def State.storesCanonical (s : State) : Prop :=
  (∀ l, samplesWf (s.link l).line.now = true ∧ samplesWf (s.link l).line.before = true ∧
    ∀ h, (s.link l).rx = some h → samplesWf h.oldest.samples = true ∧ samplesWf h.middle.samples = true ∧ samplesWf h.newest.samples = true) ∧
  (∀ v n r, (s.service v).streams.get n = some r → r.wf) ∧
  (∀ b, b ∈ s.combiner.workList → samplesWf b.words = true)

end Sys2Proof.Machine
end

