-- ==== Sys2Proof/Certificates/Slice0/Obligations.lean ====
section
/-! DEFINITION. The statements for the provers. Each names the rule of spec/ it rests on; a result an order completes with stands in
`answered` (Safety.lean), which says where the result word goes and that the order unit and the posting queue change in nothing else. That
an order's command fills its ring slot and advances the producer index, as `ordersIdle` and `answered` have it, is log 6. -/

open Sys2Proof Sys2Proof.Machine

/-! ## The queue of commands and reset -/

/-- A block's step: the command at the front of the queue is executed on the state with the rest of the queue (the model's own
interface, log 1). -/
def Obligations.StepExecutesFrontCommand : Prop :=
  ∀ (c : Instr) (rest : List Instr) (s : State), s.pending = c :: rest → step s = exec c { s with pending := rest }

/-- The values of R1, R27, R45, R63, R70, R83, R91, R104, R111, R122, R137, R153, R168, R173 and R177 that the spec gives for the
release of RESET, and the delay lines of R58 at zero. What is not named here has no value of the spec's at reset: the lock (log 14), the
straps (log 12; their place is in the statement of RESET below), and the model's own notes (log 2, log 16, log 20). -/
def Obligations.ResetLeavesStatedValues : Prop :=
  let s := State.reset
  let counters : Counters := { underrun := 0, stale := 0, early := 0, misplaced := 0, duplicate := 0, lateWrite := 0 }
  (s.time.block = 0 ∧ s.time.superframe = 0 ∧ s.time.index = 0) ∧
  (∀ l, let m := (s.link l).mgr
    m.state = .dark ∧ m.laser = false ∧ m.phaseCount = 0 ∧ m.listenPhase = none ∧ m.attachPhase = none ∧ m.identity = none ∧
    m.erroredRun = 0 ∧ (∀ w : Fin 4, m.wires[w] = false) ∧ m.txQueue = [] ∧ (∀ g : Tag, m.outstanding[g] = none) ∧
    m.pendingQueue = [] ∧ m.erroredFrames = 0 ∧ m.unexpected = 0 ∧ m.unsupported = 0 ∧ m.violations = 0 ∧ m.frame = none) ∧
  (∀ l, (s.link l).settings =
    { zone := 0, group := 0, power := 0, asymmetry := 0, cable := 0, jitter := 4, gateHold := 50, gain := 16384 }) ∧
  (∀ l, let r := (s.link l).rng
    r.runCounter = 0 ∧ r.run = none ∧ r.valid = false ∧ r.delay = 0 ∧ r.turn = 0 ∧ r.latency = 0 ∧ r.path = 0 ∧ r.suspect = false ∧
    r.failures = 0 ∧ r.trackCount = 0 ∧ r.marker = none ∧ r.outliers = 0 ∧ r.missingEchoes = 0) ∧
  (∀ l, (s.link l).align = { k := 0, kStar := 0, slewing := false, outOfReach := false } ∧ (s.link l).exchange = none ∧
    (∀ n, sampleAt (s.link l).line.now n = 0 ∧ sampleAt (s.link l).line.before n = 0) ∧ (s.link l).rx = none ∧
    ∀ v : ServiceIx, (s.link l).gates[v] = none) ∧
  (∀ g, (s.group g).guard = 0 ∧ (s.group g).slew = 8 ∧ (s.group g).target = none ∧ (s.group g).hold = none ∧ s.members g = []) ∧
  (∀ v, s.service v =
    { state := .free, kind := .broadcast, width := 1, cls := 0, incidentOnly := false, mask := 0, radioTag := 0, bypass := false
      areas := ⟨none, none, none⟩, ring := none, totals := ⟨counters, counters, counters⟩, streams := ⟨none, none, none⟩, report := none
      lastAppended := none, droppedBefore := 0
      sums := { appended := 0, dropped := 0, clips := 0, partials := 0, disabled := false } }) ∧
  (∀ z, let x := s.zone z
    x.planId = 0 ∧ x.entries = [] ∧ x.shed = [] ∧ x.staged = none ∧ x.deferred = false ∧ x.hostFlag = false ∧ x.incident = false ∧
    x.crossfade = true ∧ x.owner = none ∧ ∀ v : ServiceIx, x.selection[v] = none) ∧
  (∀ i, let c := s.input i
    c.mode = .off ∧ c.mask = 0 ∧ c.priority = 0 ∧ c.channel = .a ∧ c.incidentFlag = false ∧ c.latch = false ∧ c.acked = false ∧
    c.level = false ∧ c.stability = 0) ∧
  ((∀ x : SourceIx, s.arbiter.parts[x] = none) ∧ s.arbiter.counter = 0 ∧ s.arbiter.list = []) ∧
  s.combiner = { prev := none, now := none, workList := [] } ∧
  (s.path.inReset = false ∧ s.path.access = none ∧ s.path.queue = [] ∧ s.path.port = .idle ∧ s.path.pressure = false ∧
    s.path.ownedPage = 0 ∧ s.path.ownedRing = 0 ∧ (∀ v : ServiceIx, s.path.ownedUplink[v] = 0) ∧ s.path.firstOwned = none ∧
    s.path.pressureEntries = 0 ∧ s.path.largest = 0) ∧
  ((∀ (slot : Fin 32) (w : Fin 7), s.orders.shadow[slot][w] = 0) ∧ (∀ slot, s.orders.frozen slot = false) ∧ s.orders.consumer = 0 ∧
    s.orders.producer = 0 ∧ s.orders.executing = none ∧ s.orders.rejected = 0 ∧ s.orders.result = none) ∧
  (s.notices.queue = [] ∧ s.notices.written = 0 ∧ s.notices.posted = 0 ∧ s.notices.consumed = 0 ∧ s.notices.holdState = .normal ∧
    s.notices.holdAt = 8 ∧ s.notices.resumeAt = 24 ∧ s.notices.irqEnable = true ∧ (∀ n : Fin 13, s.notices.lost[n] = 0) ∧
    s.notices.rejected = 0 ∧ s.notices.handing = none ∧ s.notices.nirq = false) ∧
  s.poster.pagesCut = 0 ∧ s.poster.page = none

/-- Every invariant stated below holds at reset. -/
def Obligations.InvariantsHoldAtReset : Prop :=
  (State.reset.postingQueueBounded ∧ State.reset.noticeQueueBounded ∧ State.reset.emptyInReset ∧ State.reset.nirqRight) ∧
  (State.reset.noticeRingRight ∧ State.reset.executingAtConsumer ∧ State.reset.ordersInStep) ∧
  (State.reset.laserRight ∧ State.reset.exchangesPlaced) ∧
  (State.reset.closedChannelsEmpty ∧ State.reset.pendingBounded ∧ State.reset.delaysBounded ∧ State.reset.membersAligned) ∧
  (State.reset.capacityHeld ∧ State.reset.classesBounded ∧ State.reset.incidentRight ∧ State.reset.ownershipRight ∧
    State.reset.plansFit) ∧
  (State.reset.oneBlockPerService ∧ State.reset.storesCanonical ∧ State.reset.windowAligned)

/-! ## Orders -/

/-- R172: "An order code of 0 or above 20 is refused UNKNOWN_ORDER before any other check": nothing changes but the order unit's own
account and its posting. -/
def Obligations.UnknownOrderIsRefused : Prop :=
  ∀ (s : State) (code index : BitVec 8) (tag : BitVec 16), s.ordersIdle → (code = 0 ∨ 20 < code.toNat) →
    exec (.unknownOrder code index tag) s = .next (s.answered (plainOrder code index tag) (.refused .unknownOrder) s)

/-- R2, R5, R8, R10, R11, R14, R23, R46, R65 to R68, R110, R116, R117, R124, R125, R172: an object index the order's table does not
have is refused BAD_INDEX, whatever the state of anything; nothing it names changes and no notice is posted. -/
def Obligations.OrderIndexOutsideTableIsRefused : Prop :=
  ∀ (s : State) (c : Instr) (o : Order) (n : Nat), s.ordersIdle → commandOrder c = some o → objectCount o.code = some n →
    n ≤ o.index.toNat → exec c s = .next (s.answered o (.refused .badIndex) s)

/-- R5, R16: LINK_LISTEN of a DARK link; any other state refuses it. -/
def Obligations.LinkListenTurnsDarkLinkOn : Prop :=
  ∀ (s : State) (index : BitVec 8) (tag : BitVec 16) (l : LinkIx), s.ordersIdle → index.toNat = l.val →
    ((s.link l).mgr.state = .dark →
      exec (.linkListen index tag) s = .next (s.answered (plainOrder 6 index tag) .done
        ((s.modMgr l (fun m => { m with state := .listen, laser := true, phaseCount := 0, listenPhase := some .settle,
                                        attachPhase := none })).plusNotice
          (.linkState l .dark .listen .order (Vector.replicate 4 false) none)))) ∧
    ((s.link l).mgr.state ≠ .dark →
      exec (.linkListen index tag) s = .next (s.answered (plainOrder 6 index tag) (.refused .wrongState) s))

/-- R11, R28: LINK_RANGE starts a run with the next run id, the present A and J, and the next block as its first
(the block after the counter, log 23). -/
def Obligations.LinkRangeStartsRun : Prop :=
  ∀ (s : State) (index : BitVec 8) (tag : BitVec 16) (l : LinkIx), s.ordersIdle → index.toNat = l.val →
    (((s.link l).mgr.state = .standby ∨ (s.link l).mgr.state = .active) → (s.link l).rng.run = none →
      exec (.linkRange index tag) s = .next (s.answered (plainOrder 7 index tag) .done
        (s.modLink l (fun x => { x with rng := { x.rng with
          runCounter := x.rng.runCounter + 1
          run := some { runId := x.rng.runCounter + 1, cause := .order, firstBlock := s.time.block + 1, marksSent := 0,
                        roundTrips := Vector.replicate 4 none, turn3 := none, latency3 := none,
                        asymmetry := x.settings.asymmetry, jitter := x.settings.jitter }
          outliers := 0
          marker := none } })))) ∧
    (((s.link l).mgr.state = .standby ∨ (s.link l).mgr.state = .active) → (s.link l).rng.run.isSome = true →
      exec (.linkRange index tag) s = .next (s.answered (plainOrder 7 index tag) (.refused .busy) s)) ∧
    ((s.link l).mgr.state ≠ .standby → (s.link l).mgr.state ≠ .active →
      exec (.linkRange index tag) s = .next (s.answered (plainOrder 7 index tag) (.refused .wrongState) s))

/-- R11, R38, R40: LINK_ABORT ends a run with outcome ABORTED, keeping the range; without a run it completes DONE; in FAULT it is
refused. -/
def Obligations.LinkAbortEndsRun : Prop :=
  ∀ (s : State) (index : BitVec 8) (tag : BitVec 16) (l : LinkIx), s.ordersIdle → index.toNat = l.val →
    (∀ r, (s.link l).mgr.state ≠ .fault → (s.link l).rng.run = some r →
      exec (.linkAbort index tag) s = .next (s.answered (plainOrder 10 index tag) .done
        ((s.modRng l (fun x => { x with run := none
                                        trackCount := if (s.link l).mgr.state = .active then 0 else x.trackCount })).plusNotice
          (.rangeResult l r.runId r.cause .aborted (s.link l).mgr.state r.roundTrips none none none none none false
            (s.link l).rng.valid (s.link l).rng.failures none)))) ∧
    ((s.link l).mgr.state ≠ .fault → (s.link l).rng.run = none →
      exec (.linkAbort index tag) s = .next (s.answered (plainOrder 10 index tag) .done s)) ∧
    ((s.link l).mgr.state = .fault →
      exec (.linkAbort index tag) s = .next (s.answered (plainOrder 10 index tag) (.refused .wrongState) s))

/-- R8, R19, R20, R92, R94: LINK_ACTIVATE takes a ranged STANDBY link to JOINING, opens its JOIN exchange for its zone's staged plan, or
else for the current plan three superframes on, and issues the PLAN: under the lowest free tag, and with no tag free in the pending queue,
in place of a waiting PLAN or at the head, where a full queue drops its tail ABORTED (`plansIssued`). -/
def Obligations.LinkActivateOpensJoinExchange : Prop :=
  ∀ (s : State) (index : BitVec 8) (tag : BitVec 16) (l : LinkIx), s.ordersIdle → index.toNat = l.val →
    (∀ (g : Tag) (target : BitVec 8) (m : Seq16) (entries : List Entry), (s.link l).mgr.state = .standby →
      (s.link l).rng.run = none → (s.link l).rng.valid = true →
      (s.link l).mgr.outstanding[g] = none → (∀ g' : Tag, g' < g → (s.link l).mgr.outstanding[g'] ≠ none) →
      ((∃ p, (s.zone (s.link l).settings.zone).staged = some p ∧ p.planId = target ∧ p.n = m ∧ p.entries = entries) ∨
        ((s.zone (s.link l).settings.zone).staged = none ∧ (s.zone (s.link l).settings.zone).planId = target ∧
          s.time.superframe + 3 = m ∧ (s.zone (s.link l).settings.zone).entries = entries)) →
      exec (.linkActivate index tag) s = .next (s.answered (plainOrder 8 index tag) .done
        ((s.modLink l (fun x => { x with
          mgr := { x.mgr with
            state := .joining
            outstanding := x.mgr.outstanding.set g (some { request := .plan x.planSerial m (s.planItems entries), sentIn := none })
            txQueue := x.mgr.txQueue ++ [.request g (.plan x.planSerial m (s.planItems entries))] }
          exchange := some { purpose := .join, target := target, m := m, current := some x.planSerial, standing := .waiting,
                             attempts := 0 }
          planSerial := x.planSerial + 1 })).plusNotice
          (.linkState l .standby .joining .order (Vector.replicate 4 false) none)))) ∧
    (∀ (target : BitVec 8) (m : Seq16) (entries : List Entry), (s.link l).mgr.state = .standby → (s.link l).rng.run = none →
      (s.link l).rng.valid = true → s.offers (s.link l).settings.zone target m entries → ∃ t : State,
      exec (.linkActivate index tag) s = .next (s.answered (plainOrder 8 index tag) .done t) ∧
      ((s.modMgr l (fun y => { y with state := .joining })).plusNotice
        (.linkState l .standby .joining .order (Vector.replicate 4 false) none)).plansIssued t
          (fun l' => if l' = l then some (exchangeFor .join target m 0, entries) else none)) ∧
    ((s.link l).mgr.state = .standby → (s.link l).rng.run.isSome = true →
      exec (.linkActivate index tag) s = .next (s.answered (plainOrder 8 index tag) (.refused .busy) s)) ∧
    ((s.link l).mgr.state = .standby → (s.link l).rng.run = none → (s.link l).rng.valid = false →
      exec (.linkActivate index tag) s = .next (s.answered (plainOrder 8 index tag) (.refused .wrongState) s)) ∧
    ((s.link l).mgr.state ≠ .standby →
      exec (.linkActivate index tag) s = .next (s.answered (plainOrder 8 index tag) (.refused .wrongState) s))

/-- R10, R41, R47 to R50, R52, R62, R91, R98: LINK_QUIESCE of a JOINING or an ACTIVE link: LINK_STATE, then the waiting queries complete
ABORTED in queue order; an ACTIVE link freezes K and leaves its group, which is re-evaluated, with its ALIGN (LEFT) last. -/
def Obligations.LinkQuiesceEmptiesPendingQueue : Prop :=
  ∀ (s : State) (index : BitVec 8) (tag : BitVec 16) (l : LinkIx), s.ordersIdle → index.toNat = l.val →
    ((s.link l).mgr.state = .joining →
      exec (.linkQuiesce index tag) s = .next (s.answered (plainOrder 9 index tag) .done
        { s.modLink l (fun x => { x with mgr := { x.mgr with state := .quiescing, pendingQueue := [] }, exchange := none }) with
          notices := (s.link l).mgr.pendingQueue.foldl (fun u r => match r with
            | .query item orderTag => u.generate (.queryDone l item .aborted orderTag 0)
            | .plan _ _ _ => u)
            (s.notices.generate (.linkState l .joining .quiescing .order (Vector.replicate 4 false) none)) })) ∧
    ((s.link l).mgr.state = .active → ∃ t : State,
      exec (.linkQuiesce index tag) s = .next (s.answered (plainOrder 9 index tag) .done t) ∧
      (((s.departed l .quiescing).modMgr l (fun m => { m with pendingQueue := [] })).plusNotices
        (.linkState l .active .quiescing .order (Vector.replicate 4 false) none ::
          queryDones l .aborted (s.link l).mgr.pendingQueue)).reEvaluated t (s.link l).settings.group
        (s.group (s.link l).settings.group) (.left l) (s.clearedFlag l) ∧
      (t.link l).mgr = { (s.link l).mgr with state := .quiescing, pendingQueue := [] } ∧
      (t.link l).align = { k := (s.link l).align.k, kStar := (s.link l).align.k, slewing := false, outOfReach := false } ∧
      (t.link l).exchange = none ∧ (t.link l).rx = none ∧ (∀ v : ServiceIx, (t.link l).gates[v] = none) ∧
      (t.link l).settings = (s.link l).settings ∧ (t.link l).rng.run = (s.link l).rng.run ∧
      (t.link l).rng.trackCount = 0 ∧ (t.link l).rng.marker = none ∧
      (∀ l', l' ≠ l → (t.link l').mgr = (s.link l').mgr ∧ (t.link l').settings = (s.link l').settings ∧
        (t.link l').rng = (s.link l').rng ∧ (t.link l').align.k = (s.link l').align.k ∧
        (t.link l').exchange = (s.link l').exchange) ∧
      t.time = s.time ∧ t.services = s.services ∧ t.zones = s.zones ∧ t.inputs = s.inputs ∧ t.arbiter = s.arbiter ∧
      t.combiner = s.combiner ∧ t.poster = s.poster) ∧
    ((s.link l).mgr.state ≠ .joining → (s.link l).mgr.state ≠ .active →
      exec (.linkQuiesce index tag) s = .next (s.answered (plainOrder 9 index tag) (.refused .wrongState) s))

/-- R14, R15, R47, R49, R52: LINK_DARK: nothing in DARK; only the laser and the state in FAULT; a teardown in every other state: LINK_STATE,
then the QUERY_DONE (LINK_DOWN) of its queries, and, of a link that was in ACTIVE, the re-evaluation of the group it leaves. -/
def Obligations.LinkDarkTearsLinkDown : Prop :=
  ∀ (s : State) (index : BitVec 8) (tag : BitVec 16) (l : LinkIx), s.ordersIdle → index.toNat = l.val →
    ((s.link l).mgr.state = .dark →
      exec (.linkDark index tag) s = .next (s.answered (plainOrder 11 index tag) .done s)) ∧
    ((s.link l).mgr.state = .fault →
      exec (.linkDark index tag) s = .next (s.answered (plainOrder 11 index tag) .done
        ((s.modMgr l (fun m => { m with state := .dark, laser := false })).plusNotice
          (.linkState l .fault .dark .order (Vector.replicate 4 false) none)))) ∧
    ((s.link l).mgr.state ≠ .dark → (s.link l).mgr.state ≠ .fault → ∃ t : State,
      exec (.linkDark index tag) s = .next (s.answered (plainOrder 11 index tag) .done t) ∧ TornDown s t l .dark .order)

/-- R19, R23: LINK_QUERY is refused in the order R23 gives, and else issues its QUERY: under the lowest free tag, or at the tail of the
pending queue. -/
def Obligations.LinkQueryIssuesRequest : Prop :=
  ∀ (s : State) (index : BitVec 8) (tag : BitVec 16) (w1 : Word) (l : LinkIx) (item : Item), s.ordersIdle → index.toNat = l.val →
    (4 ≤ w1.toNat →
      exec (.linkQuery index tag w1) s = .next (s.answered { plainOrder 12 index tag with p1 := w1 } (.refused .badValue) s)) ∧
    ((w1, item) ∈ ([(0, .temp), (1, .outPower), (2, .feederRl), (3, .supply)] : List (Word × Item)) →
      ((s.link l).mgr.state ∉ ([.standby, .joining, .active, .quiescing] : List LinkState) →
        exec (.linkQuery index tag w1) s =
          .next (s.answered { plainOrder 12 index tag with p1 := w1 } (.refused .wrongState) s)) ∧
      ((s.link l).mgr.state ∈ ([.standby, .joining, .active, .quiescing] : List LinkState) →
        (8 ≤ (s.link l).mgr.pendingQueue.length →
          exec (.linkQuery index tag w1) s =
            .next (s.answered { plainOrder 12 index tag with p1 := w1 } (.refused .queueFull) s)) ∧
        ((s.link l).mgr.pendingQueue.length < 8 →
          (∀ g : Tag, (s.link l).mgr.outstanding[g] = none → (∀ g' : Tag, g' < g → (s.link l).mgr.outstanding[g'] ≠ none) →
            exec (.linkQuery index tag w1) s = .next (s.answered { plainOrder 12 index tag with p1 := w1 } .done
              (s.modMgr l (fun m => { m with
                outstanding := m.outstanding.set g (some { request := .query item tag, sentIn := none })
                txQueue := m.txQueue ++ [.request g (.query item tag)] })))) ∧
          ((∀ g : Tag, (s.link l).mgr.outstanding[g] ≠ none) →
            exec (.linkQuery index tag w1) s = .next (s.answered { plainOrder 12 index tag with p1 := w1 } .done
              (s.modMgr l (fun m => { m with pendingQueue := m.pendingQueue ++ [.query item tag] })))))))

/-- R2, R24, R34, R49: SET_LINK: the refusals, and the settings stored clamped, the SETUP it issues (in place of one waiting) and the path
it recomputes; a new path of an ACTIVE link re-evaluates its group. -/
def Obligations.SetLinkStoresClampedSettings : Prop :=
  SetupsReplaceOneAnother ∧
  ∀ (s : State) (index : BitVec 8) (tag : BitVec 16) (w1 w2 w3 w4 : Word) (l : LinkIx), s.ordersIdle → index.toNat = l.val →
    let o : Order := { plainOrder 5 index tag with p1 := w1, p2 := w2, p3 := w3, p4 := w4 }
    let x := s.link l
    let power := (w1.extractLsb' 16 16).toNat
    let a := (w2.extractLsb' 0 16).toInt
    let c := (w2.extractLsb' 16 16).toInt
    let j := (w3.extractLsb' 0 16).toNat
    let h := (w3.extractLsb' 16 16).toNat
    let gain := (w4.extractLsb' 0 16).toNat
    ((8 ≤ (w1.extractLsb' 0 8).toNat ∨ 4 ≤ (w1.extractLsb' 8 8).toNat) →
      exec (.setLink index tag w1 w2 w3 w4) s = .next (s.answered o (.refused .badIndex) s)) ∧
    (∀ (z : ZoneIx) (g : GroupIx), (w1.extractLsb' 0 8).toNat = z.val → (w1.extractLsb' 8 8).toNat = g.val →
      ((x.settings.zone ≠ z ∨ x.settings.group ≠ g) → x.mgr.state ∈ ([.joining, .active, .quiescing] : List LinkState) →
        exec (.setLink index tag w1 w2 w3 w4) s = .next (s.answered o (.refused .wrongState) s)) ∧
      (((x.settings.zone = z ∧ x.settings.group = g) ∨ x.mgr.state ∉ ([.joining, .active, .quiescing] : List LinkState)) →
        let y : Settings := { zone := z, group := g, power := min 100 power, asymmetry := max (-1024) (min 1023 a),
                              cable := max (-2048) (min 2047 c), jitter := min 255 j, gateHold := max 1 (min 255 h),
                              gain := min 32767 gain }
        let setup := (x.mgr.state = .standby ∧ (x.settings.zone ≠ z ∨ x.settings.group ≠ g)) ∨
          (x.mgr.state ∈ ([.standby, .joining, .active] : List LinkState) ∧ x.settings.power ≠ y.power)
        let path := ((x.rng.delay : Int) + x.rng.latency + y.cable).toNat
        let result : OrderResult :=
          if power ≤ 100 ∧ -1024 ≤ a ∧ a ≤ 1023 ∧ -2048 ≤ c ∧ c ≤ 2047 ∧ j ≤ 255 ∧ 1 ≤ h ∧ h ≤ 255 ∧ gain ≤ 32767 then .done else .clamped
        let stored := s.modLink l (fun x => { x with
            settings := y
            mgr := { x.mgr with txQueue := if setup then placeSetup x.mgr.txQueue { zone := z, group := g, power := y.power }
                                           else x.mgr.txQueue }
            rng := { x.rng with path := if x.rng.valid = true ∧ x.settings.cable ≠ y.cable then path else x.rng.path } })
        ((x.mgr.state ≠ .active ∨ x.rng.valid = false ∨ y.cable = x.settings.cable ∨ path = x.rng.path) →
          exec (.setLink index tag w1 w2 w3 w4) s = .next (s.answered o result stored)) ∧
        (x.mgr.state = .active → x.rng.valid = true → y.cable ≠ x.settings.cable → path ≠ x.rng.path → ∃ t : State,
          exec (.setLink index tag w1 w2 w3 w4) s = .next (s.answered o result t) ∧
          stored.reEvaluated t g (s.group g) (.path l path) [])))

/-- R46, R49 to R53, R55: SET_GROUP of a group without members leaves T and the hold absent; of a group whose longest member path is `p`
and whose T stood without a hold, T rises at once to p + G, or a hold starts and T stands; each member's K* follows T. Whatever stood
before, a hold running among it, it stores guard and slew and re-evaluates the group. -/
def Obligations.SetGroupStoresAndReEvaluates : Prop :=
  ∀ (s : State) (index : BitVec 8) (tag : BitVec 16) (w1 : Word) (g : GroupIx), s.ordersIdle → index.toNat = g.val →
    let guard := (w1.extractLsb' 0 16).toNat
    let slew := (w1.extractLsb' 16 16).toNat
    let r : OrderResult := if guard ≤ 255 ∧ 1 ≤ slew ∧ slew ≤ 80 then .done else .clamped
    let stored := s.modGroup g (fun x => { x with guard := min 255 guard, slew := max 1 (min 80 slew) })
    (∃ t : State, exec (.setGroup index tag w1) s = .next (s.answered { plainOrder 13 index tag with p1 := w1 } r t) ∧
      stored.reEvaluated t g (stored.group g) .setGroup []) ∧
    ((∀ l, (s.link l).mgr.state = .active → (s.link l).settings.group ≠ g) →
      exec (.setGroup index tag w1) s = .next (s.answered { plainOrder 13 index tag with p1 := w1 } r
        { s.modGroup g (fun x => { x with guard := min 255 guard, slew := max 1 (min 80 slew), target := none, hold := none }) with
          notices := if (s.group g).target = none ∧ (s.group g).hold = none then s.notices
            else s.notices.generate (.align g .setGroup (s.group g).target none none []) })) ∧
    (∀ (p t0 : Nat) (m : LinkIx), (s.link m).mgr.state = .active → (s.link m).settings.group = g → (s.link m).rng.path = p →
      (∀ l, (s.link l).mgr.state = .active → (s.link l).settings.group = g → (s.link l).rng.path ≤ p) →
      (s.group g).target = some t0 → (s.group g).hold = none → ∃ t : State,
      exec (.setGroup index tag w1) s = .next (s.answered { plainOrder 13 index tag with p1 := w1 } r t) ∧
      (t.group g).guard = min 255 guard ∧ (t.group g).slew = max 1 (min 80 slew) ∧
      (t0 ≤ p + min 255 guard → (t.group g).target = some (p + min 255 guard) ∧ (t.group g).hold = none) ∧
      (p + min 255 guard < t0 → (t.group g).target = some t0 ∧
        (t.group g).hold = some { candidate := p + min 255 guard, count := 0 }) ∧
      (∀ l, (s.link l).mgr.state = .active → (s.link l).settings.group = g →
        (t.link l).align.kStar = min 16383 (max t0 (p + min 255 guard) - (s.link l).rng.path)) ∧
      (∀ l, (t.link l).align.k = (s.link l).align.k ∧ (t.link l).mgr = (s.link l).mgr ∧ (t.link l).rng = (s.link l).rng ∧
        (t.link l).settings = (s.link l).settings) ∧
      (∀ g', g' ≠ g → t.group g' = s.group g') ∧
      t.time = s.time ∧ t.services = s.services ∧ t.zones = s.zones ∧ t.inputs = s.inputs ∧ t.arbiter = s.arbiter ∧
      t.combiner = s.combiner ∧ t.poster = s.poster)

/-- R110: SET_ZONE stores the crossfade setting; a setting other than 0 OFF or 1 ON is refused. -/
def Obligations.SetZoneStoresCrossfade : Prop :=
  ∀ (s : State) (index : BitVec 8) (tag : BitVec 16) (w1 : Word) (z : ZoneIx), s.ordersIdle → index.toNat = z.val →
    (w1.toNat ≤ 1 →
      exec (.setZone index tag w1) s = .next (s.answered { plainOrder 14 index tag with p1 := w1 } .done
        (s.modZone z (fun x => { x with crossfade := decide (w1 = 1) })))) ∧
    (2 ≤ w1.toNat →
      exec (.setZone index tag w1) s = .next (s.answered { plainOrder 14 index tag with p1 := w1 } (.refused .badValue) s))

/-- R84 to R89, R93, R105, R106, R107, R109: ZONE_INCIDENT sets or clears the host flag of the zones of its mask and works their derived
state out anew; in ascending index each changed zone posts INCIDENT and is replanned before the next is taken; plans in force, owners and
every other zone stand as they were. That the whole of w2 is the setting, so that every word from 2 on is refused,
is the model's reading of 10.5 (log 34). -/
def Obligations.ZoneIncidentSetsHostFlags : Prop :=
  ∀ (s : State) (index : BitVec 8) (tag : BitVec 16) (w1 w2 : Word), s.ordersIdle →
    (2 ≤ w2.toNat →
      exec (.zoneIncident index tag w1 w2) s =
        .next (s.answered { plainOrder 15 index tag with p1 := w1, p2 := w2 } (.refused .badValue) s)) ∧
    (w2.toNat ≤ 1 → ∃ t : State,
      exec (.zoneIncident index tag w1 w2) s = .next (s.answered { plainOrder 15 index tag with p1 := w1, p2 := w2 } .done t) ∧
      (∃ (u : State) (zs : List ZoneIx), zonesWith zs (fun z => w1.getLsbD z.val = true) ∧ u = { s with zones := u.zones } ∧
        (∀ z, u.zone z = if z ∈ zs then { s.zone z with hostFlag := decide (w2 = 1) } else s.zone z) ∧
        u.incidentsTaken t .order zs) ∧
      (∀ z : ZoneIx, w1.getLsbD z.val = true →
        (t.zone z).hostFlag = decide (w2 = 1) ∧
        ((t.zone z).incident = true ↔ (w2 = 1 ∨
          ∃ i, (s.input i).latch = true ∧ (s.input i).incidentFlag = true ∧ (s.input i).mask.getLsbD z.val = true)) ∧
        (t.zone z).planId = (s.zone z).planId ∧ (t.zone z).entries = (s.zone z).entries ∧ (t.zone z).shed = (s.zone z).shed ∧
        (t.zone z).owner = (s.zone z).owner ∧ (t.zone z).selection = (s.zone z).selection) ∧
      (∀ z : ZoneIx, w1.getLsbD z.val = false → t.zone z = s.zone z) ∧
      t.time = s.time ∧ t.groups = s.groups ∧ t.services = s.services ∧ t.inputs = s.inputs ∧ t.arbiter = s.arbiter ∧
      t.combiner = s.combiner ∧ t.poster = s.poster ∧
      (∀ l, (t.link l).mgr.state = (s.link l).mgr.state ∧ (t.link l).settings = (s.link l).settings ∧
        (t.link l).rng = (s.link l).rng ∧ (t.link l).align = (s.link l).align))

/-- R84 to R89, R105, R106, R109, R113, R116, R129: SET_LINE of an unlatched input that it does not latch stores the five settings; a
latched input accepts OFF alone, which clears the latch under the settings that stood; LEVEL on an active input latches it under the new
ones; bad modes and channels are refused first. A latch change is taken in R113's order (`latchTaken`): LINE_EVENT, INCIDENT, the
arbiter's share with BREAKIN_OWNER and its replans, then the replans of the zones whose derived state changed. -/
def Obligations.SetLineStoresSettings : Prop :=
  ∀ (s : State) (index : BitVec 8) (tag : BitVec 16) (w1 w2 : Word) (i : InputIx), s.ordersIdle → index.toNat = i.val →
    let o : Order := { plainOrder 16 index tag with p1 := w1, p2 := w2 }
    let mode := (w1.extractLsb' 0 8).toNat
    let mask : BitVec 8 := w1.extractLsb' 8 8
    let channel := (w1.extractLsb' 24 8).toNat
    let priority := (w1.extractLsb' 16 8).toNat
    let others (z : ZoneIx) : Prop := (s.zone z).hostFlag = true ∨
      ∃ j, j ≠ i ∧ (s.input j).latch = true ∧ (s.input j).incidentFlag = true ∧ (s.input j).mask.getLsbD z.val = true
    ((3 ≤ mode ∨ 2 ≤ channel) → exec (.setLine index tag w1 w2) s = .next (s.answered o (.refused .badValue) s)) ∧
    (mode < 3 → channel < 2 → (s.input i).latch = true → mode ≠ 0 →
      exec (.setLine index tag w1 w2) s = .next (s.answered o (.refused .active) s)) ∧
    (∀ (m : LineMode) (c : Channel), (mode, m) ∈ ([(0, .off), (1, .edge), (2, .level)] : List (Nat × LineMode)) →
      (channel, c) ∈ ([(0, .a), (1, .b)] : List (Nat × Channel)) → (s.input i).latch = false →
      (mode ≠ 2 ∨ (s.input i).level = false) →
      exec (.setLine index tag w1 w2) s = .next (s.answered o (if priority ≤ 7 then .done else .clamped)
        (s.modInput i (fun x => { x with mode := m, mask := mask, priority := min 7 priority, channel := c,
                                         incidentFlag := w2.getLsbD 0 })))) ∧
    (∀ c : Channel, (channel, c) ∈ ([(0, .a), (1, .b)] : List (Nat × Channel)) → (s.input i).latch = true → mode = 0 → ∃ t : State,
      exec (.setLine index tag w1 w2) s = .next (s.answered o (if priority ≤ 7 then .done else .clamped) t) ∧
      t.input i = { s.input i with latch := false, acked := false, mode := .off, mask := mask, priority := min 7 priority
                                   channel := c, incidentFlag := w2.getLsbD 0 } ∧
      t.arbiter.parts[contactSource i] = none ∧
      (∃ u : State, (s.modInput i (fun x => { x with latch := false, acked := false })).latchTaken u i false ∧
        t = u.modInput i (fun x => { x with mode := .off, mask := mask, priority := min 7 priority, channel := c
                                            incidentFlag := w2.getLsbD 0 })) ∧
      (∀ z : ZoneIx, (s.input i).mask.getLsbD z.val = true → ((t.zone z).incident = true ↔ others z)) ∧
      (∀ z : ZoneIx, (s.input i).mask.getLsbD z.val = false → (t.zone z).incident = (s.zone z).incident) ∧
      (∀ i', i' ≠ i → t.input i' = s.input i') ∧ t.time = s.time ∧ t.services = s.services ∧ t.groups = s.groups) ∧
    (∀ c : Channel, (channel, c) ∈ ([(0, .a), (1, .b)] : List (Nat × Channel)) → (s.input i).latch = false → mode = 2 →
      (s.input i).level = true → ∃ t : State,
      exec (.setLine index tag w1 w2) s = .next (s.answered o (if priority ≤ 7 then .done else .clamped) t) ∧
      t.input i = { s.input i with latch := true, acked := false, mode := .level, mask := mask, priority := min 7 priority
                                   channel := c, incidentFlag := w2.getLsbD 0 } ∧
      t.arbiter.parts[contactSource i] = some { mask := mask, priority := min 7 priority, channel := c,
                                                stamp := s.arbiter.counter } ∧
      t.arbiter.counter = s.arbiter.counter + 1 ∧
      ((s.modInput i (fun x => { x with latch := true, acked := false, mode := .level, mask := mask, priority := min 7 priority
                                        channel := c, incidentFlag := w2.getLsbD 0 })).plusNotice
        (.lineEvent i .level .setLine .latched true true false s.time.block)).latchTaken t i true ∧
      (∀ z : ZoneIx, mask.getLsbD z.val = true → ((t.zone z).incident = true ↔ w2.getLsbD 0 = true ∨ others z)) ∧
      (∀ z : ZoneIx, mask.getLsbD z.val = false → (t.zone z).incident = (s.zone z).incident) ∧
      s.noticesBegin t [.lineEvent i .level .setLine .latched true true false s.time.block] ∧
      (∀ i', i' ≠ i → t.input i' = s.input i') ∧ t.time = s.time ∧ t.services = s.services ∧ t.groups = s.groups)

/-- R84 to R89, R106, R109, R113, R117, R126, R129: the rows of LINE_ACK: NOT_LATCHED, ALREADY_ACKED, the ack noted, and the latch cleared
with the derived state of the zones of its mask worked out anew, its source withdrawn and the zones replanned, in R113's order, with the
INCIDENT and BREAKIN_OWNER notices (`latchTaken`). -/
def Obligations.LineAckFollowsItsTable : Prop :=
  ∀ (s : State) (index : BitVec 8) (tag : BitVec 16) (i : InputIx), s.ordersIdle → index.toNat = i.val →
    ((s.input i).latch = false →
      exec (.lineAck index tag) s = .next (s.answered (plainOrder 17 index tag) (.note .notLatched) s)) ∧
    ((s.input i).latch = true → (s.input i).mode = .level → (s.input i).level = true → (s.input i).acked = true →
      exec (.lineAck index tag) s = .next (s.answered (plainOrder 17 index tag) (.note .alreadyAcked) s)) ∧
    ((s.input i).latch = true → (s.input i).mode = .level → (s.input i).level = true → (s.input i).acked = false →
      exec (.lineAck index tag) s = .next (s.answered (plainOrder 17 index tag) .done
        (s.modInput i (fun x => { x with acked := true })))) ∧
    ((s.input i).latch = true → ((s.input i).mode = .edge ∨ ((s.input i).mode = .level ∧ (s.input i).level = false)) →
      ∃ t : State, exec (.lineAck index tag) s = .next (s.answered (plainOrder 17 index tag) .done t) ∧
      (s.modInput i (fun x => { x with latch := false, acked := false })).latchTaken t i false ∧
      t.input i = { s.input i with latch := false, acked := false } ∧ (∀ i', i' ≠ i → t.input i' = s.input i') ∧
      t.arbiter.parts[contactSource i] = none ∧
      (∀ z : ZoneIx, (s.input i).mask.getLsbD z.val = true → ((t.zone z).incident = true ↔ ((s.zone z).hostFlag = true ∨
        ∃ j, j ≠ i ∧ (s.input j).latch = true ∧ (s.input j).incidentFlag = true ∧ (s.input j).mask.getLsbD z.val = true))) ∧
      t.time = s.time ∧ t.services = s.services ∧ t.groups = s.groups ∧ t.combiner = s.combiner ∧ t.poster = s.poster)

/-- R84 to R89, R93, R122, R124, R127, R129: BREAKIN_START activates an inactive console source with the counter's stamp at the tail of the
list; it takes each zone of its mask that has no owner or one of lower priority; no other zone changes owner. Then BREAKIN_OWNER is posted
for each changed owner and each zone whose owner's channel changed is replanned, both in ascending index (`sourceActivated`). -/
def Obligations.BreakinStartActivatesSource : Prop :=
  ∀ (s : State) (index : BitVec 8) (tag : BitVec 16) (w1 : Word) (n : Fin 4), s.ordersIdle → index.toNat = n.val →
    let o : Order := { plainOrder 18 index tag with p1 := w1 }
    let x := consoleSource n
    let mask : BitVec 8 := w1.extractLsb' 0 8
    let priority := (w1.extractLsb' 8 8).toNat
    let channel := (w1.extractLsb' 16 8).toNat
    (2 ≤ channel → exec (.breakinStart index tag w1) s = .next (s.answered o (.refused .badValue) s)) ∧
    (channel < 2 → (s.arbiter.parts[x]).isSome = true →
      exec (.breakinStart index tag w1) s = .next (s.answered o (.refused .active) s)) ∧
    (∀ c : Channel, (channel, c) ∈ ([(0, .a), (1, .b)] : List (Nat × Channel)) → s.arbiter.parts[x] = none → ∃ t : State,
      exec (.breakinStart index tag w1) s = .next (s.answered o (if priority ≤ 7 then .done else .clamped) t) ∧
      s.sourceActivated t x mask (min 7 priority) c .start ∧
      t.arbiter.parts = s.arbiter.parts.set x (some { mask := mask, priority := min 7 priority, channel := c,
                                                      stamp := s.arbiter.counter }) ∧
      t.arbiter.counter = s.arbiter.counter + 1 ∧ t.arbiter.list = s.arbiter.list ++ [x] ∧
      (∀ z : ZoneIx, mask.getLsbD z.val = true → (s.zone z).owner = none → (t.zone z).owner = some x) ∧
      (∀ (z : ZoneIx) (y : SourceIx) (p : ActivePart), s.ownershipRight → mask.getLsbD z.val = true → (s.zone z).owner = some y →
        s.arbiter.parts[y] = some p → (t.zone z).owner = if p.priority < min 7 priority then some x else some y) ∧
      (∀ z : ZoneIx, mask.getLsbD z.val = false → (t.zone z).owner = (s.zone z).owner) ∧
      t.time = s.time ∧ t.services = s.services ∧ t.groups = s.groups ∧ t.inputs = s.inputs ∧ t.combiner = s.combiner ∧
      t.poster = s.poster ∧ (∀ z, (t.zone z).entries = (s.zone z).entries ∧ (t.zone z).incident = (s.zone z).incident))

/-- R84 to R89, R93, R122, R125, R128, R129: BREAKIN_STOP: BAD_INDEX, NOT_ACTIVE, or the source is deactivated and each zone of its mask
that it owned passes to the source that ranks first in it, or to none. Then BREAKIN_OWNER is posted for each changed owner and each zone
whose owner's channel changed is replanned, both in ascending index (`sourceDeactivated`). -/
def Obligations.BreakinStopPassesZonesOn : Prop :=
  (∀ (s : State) (index : BitVec 8) (tag : BitVec 16), s.ordersIdle → 4 ≤ index.toNat →
    exec (.breakinStop index tag) s = .next (s.answered (plainOrder 19 index tag) (.refused .badIndex) s)) ∧
  ∀ (s : State) (index : BitVec 8) (tag : BitVec 16) (n : Fin 4), s.ordersIdle → index.toNat = n.val →
    let x := consoleSource n
    (s.arbiter.parts[x] = none →
      exec (.breakinStop index tag) s = .next (s.answered (plainOrder 19 index tag) (.note .notActive) s)) ∧
    (∀ p, s.arbiter.parts[x] = some p → ∃ t : State,
      exec (.breakinStop index tag) s = .next (s.answered (plainOrder 19 index tag) .done t) ∧
      s.sourceDeactivated t x .stop ∧
      t.arbiter.parts = s.arbiter.parts.set x none ∧ t.arbiter.list = s.arbiter.list.filter (fun y => y != x) ∧
      t.arbiter.counter = s.arbiter.counter ∧
      (∀ z : ZoneIx, ((s.zone z).owner ≠ some x ∨ p.mask.getLsbD z.val = false) → (t.zone z).owner = (s.zone z).owner) ∧
      (∀ z : ZoneIx, (s.zone z).owner = some x → p.mask.getLsbD z.val = true →
        match (t.zone z).owner with
        | some y => t.arbiter.ranksFirst z y
        | none => ∀ y, y ∈ t.arbiter.list → t.arbiter.covers z y = false) ∧
      t.time = s.time ∧ t.services = s.services ∧ t.groups = s.groups ∧ t.inputs = s.inputs ∧ t.combiner = s.combiner ∧
      t.poster = s.poster ∧ (∀ z, (t.zone z).entries = (s.zone z).entries ∧ (t.zone z).incident = (s.zone z).incident))

/-- R176, R174, R175: SET_NOTICES clamps the resume threshold and then the hold threshold below it, stores all three settings, and the
hold state and NIRQ follow. -/
def Obligations.SetNoticesClampsThresholds : Prop :=
  ∀ (s : State) (index : BitVec 8) (tag : BitVec 16) (w1 w2 : Word), s.ordersIdle →
    let o : Order := { plainOrder 20 index tag with p1 := w1, p2 := w2 }
    let hold := (w1.extractLsb' 0 16).toNat
    let resume := max 1 (min 64 (w1.extractLsb' 16 16).toNat)
    (2 ≤ w2.toNat → exec (.setNotices index tag w1 w2) s = .next (s.answered o (.refused .badValue) s)) ∧
    (w2.toNat ≤ 1 →
      exec (.setNotices index tag w1 w2) s = .next (s.answered o
        (if (w1.extractLsb' 16 16).toNat = resume ∧ hold < resume then .done else .clamped)
        { s with notices := { s.notices with
          holdAt := min hold (resume - 1)
          resumeAt := resume
          irqEnable := decide (w2 = 1)
          holdState := if s.notices.holdState = .normal then
              (if s.notices.free ≤ min hold (resume - 1) then .hold else .normal)
            else if resume ≤ s.notices.free then .normal else .hold
          nirq := s.notices.posted != s.notices.consumed && decide (w2 = 1) } }))

/-- R64, R65: SET_SERVICE's refusals in their order, each spelled out, and the definition stored whole, the counters kept. -/
def Obligations.SetServiceStoresDefinition : Prop :=
  ∀ (s : State) (index : BitVec 8) (tag : BitVec 16) (w1 w2 w3 w4 w5 w6 : Word) (v : ServiceIx), s.ordersIdle → index.toNat = v.val →
    let o : Order := { code := 1, index := index, tag := tag, p1 := w1, p2 := w2, p3 := w3, p4 := w4, p5 := w5, p6 := w6 }
    let planned := ∃ z, v ∈ carriedOf (s.zone z).entries ∨ ∃ p, (s.zone z).staged = some p ∧ v ∈ carriedOf p.entries
    let cls := (w1.extractLsb' 8 8).toNat
    let area (w : Word) : Option Area := if w.getLsbD 31 = true then
      some { base := 32 * (w.extractLsb' 5 25).toNat, blocks := (w.extractLsb' 0 5).toNat } else none
    ((s.service v).state = .enabled →
      exec (.setService index tag w1 w2 w3 w4 w5 w6) s = .next (s.answered o (.refused .wrongState) s)) ∧
    ((s.service v).state ≠ .enabled → planned →
      exec (.setService index tag w1 w2 w3 w4 w5 w6) s = .next (s.answered o (.refused .busy) s)) ∧
    ((s.service v).state ≠ .enabled → ¬ planned → (w1.extractLsb' 0 2).toNat = 3 →
      exec (.setService index tag w1 w2 w3 w4 w5 w6) s = .next (s.answered o (.refused .badValue) s)) ∧
    (∀ k : Kind, (s.service v).state ≠ .enabled → ¬ planned →
      ((w1.extractLsb' 0 2).toNat, k) ∈ ([(0, .broadcast), (1, .mobile), (2, .rescue)] : List (Nat × Kind)) →
      let x : Service := { s.service v with
        state := .defined, kind := k, width := (w1.extractLsb' 4 4).toNat, cls := min 7 cls, incidentOnly := w1.getLsbD 16
        mask := w1.extractLsb' 24 8, radioTag := w2, bypass := w1.getLsbD 17, areas := ⟨area w3, area w4, area w5⟩
        ring := area w6 }
      let given : Vector (Option Area) 4 := #v[area w3, area w4, area w5, area w6]
      let size (a : Area) (w : Nat) : Nat := a.blocks * (32 + 6400 * w)
      let meets (base1 size1 base2 size2 : Nat) : Prop := base1 < base2 + size2 ∧ base2 < base1 + size1
      let badValue : Prop := area w3 = none ∨ x.width < 1 ∨ 8 < x.width ∨
        (∃ (n : Fin 4) (a : Area), given[n] = some a ∧
          (a.blocks < (if n = 3 then 2 else 3) ∨ 16 < a.blocks ∨ a.base % 4096 ≠ 0 ∨ 1073741824 < a.base + size a x.width)) ∨
        (k ≠ .broadcast ∧ ((area w4).isSome = true ∨ (area w5).isSome = true)) ∨ (k = .broadcast ∧ (area w6).isSome = true)
      let overlap : Prop := ∃ (n : Fin 4) (a : Area), given[n] = some a ∧
        (meets a.base (size a x.width) s.path.windowBase 65536 ∨
          (∃ (m : Fin 4) (a' : Area), m ≠ n ∧ given[m] = some a' ∧ meets a.base (size a x.width) a'.base (size a' x.width)) ∨
          (∃ (u : ServiceIx) (a' : Area), u ≠ v ∧ (s.service u).state ≠ .free ∧
            some a' ∈ [(s.service u).areas.normal, (s.service u).areas.a, (s.service u).areas.b, (s.service u).ring] ∧
            meets a.base (size a x.width) a'.base (size a' (s.service u).width)))
      (badValue →
        exec (.setService index tag w1 w2 w3 w4 w5 w6) s = .next (s.answered o (.refused .badValue) s)) ∧
      (¬ badValue → overlap →
        exec (.setService index tag w1 w2 w3 w4 w5 w6) s = .next (s.answered o (.refused .overlap) s)) ∧
      (¬ badValue → ¬ overlap →
        exec (.setService index tag w1 w2 w3 w4 w5 w6) s =
          .next (s.answered o (if cls ≤ 7 then .done else .clamped) (s.modService v (fun _ => x)))))

/-- R66, R70, R71, R84 to R89, R93: ENABLE_SERVICE's refusals in their order, and the service enabled with its counters at 0 and its streams
created for sequences b+1 and b+2, last appended absent and dropped-before 0; the rest of its record stands; only the zones of its
mask are replanned (`replanned`), and no plan in force changes. That STARVED set
at the creation is recorded as no STARVED change (`starvedSet`, `starvedCleared` false) is the model's choice (log 43), and so is the
ascending order of the replans (log 49). -/
def Obligations.EnableServiceCreatesStreams : Prop :=
  ∀ (s : State) (index : BitVec 8) (tag : BitVec 16) (v : ServiceIx), s.ordersIdle → index.toNat = v.val →
    let o := plainOrder 2 index tag
    let x := s.service v
    let streams := 1 + (if x.areas.a.isSome then 1 else 0) + (if x.areas.b.isSome then 1 else 0)
    let uplink := if x.ring.isSome then x.width else 0
    let record (n : StreamName) : StreamRec :=
      { launch := none, open1 := { seq := s.period + 1, committed := false, words := [] }
        open2 := { seq := s.period + 2, committed := false, words := [] }, starved := decide (n ≠ .normal), underrunRun := 0
        increments := ⟨0, 0, 0, 0, 0, 0⟩, starvedSet := false, starvedCleared := false }
    (x.state ≠ .defined → exec (.enableService index tag) s = .next (s.answered o (.refused .wrongState) s)) ∧
    (x.state = .defined → 80 < s.enabledSum Service.stagingDemand + x.width * streams →
      exec (.enableService index tag) s = .next (s.answered o (.refused .noStaging) s)) ∧
    (x.state = .defined → s.enabledSum Service.stagingDemand + x.width * streams ≤ 80 →
      48 < s.enabledSum Service.uplinkDemand + uplink →
      exec (.enableService index tag) s = .next (s.answered o (.refused .noUplinkCapacity) s)) ∧
    (x.state = .defined → s.enabledSum Service.stagingDemand + x.width * streams ≤ 80 →
      s.enabledSum Service.uplinkDemand + uplink ≤ 48 → ∃ t : State,
      exec (.enableService index tag) s = .next (s.answered o .done t) ∧
      (∃ zs, zonesWith zs (fun z => x.mask.getLsbD z.val = true) ∧ ({ s with services := t.services } : State).replannedAll t zs) ∧
      t.service v = { x with
        state := .enabled
        totals := ⟨⟨0, 0, 0, 0, 0, 0⟩, ⟨0, 0, 0, 0, 0, 0⟩, ⟨0, 0, 0, 0, 0, 0⟩⟩
        streams := ⟨some (record .normal), x.areas.a.map (fun _ => record .a), x.areas.b.map (fun _ => record .b)⟩
        lastAppended := none
        droppedBefore := 0 } ∧
      (∀ v', v' ≠ v → t.service v' = s.service v') ∧
      (∀ z : ZoneIx, x.mask.getLsbD z.val = false → t.zone z = s.zone z) ∧
      (∀ z, (t.zone z).planId = (s.zone z).planId ∧ (t.zone z).entries = (s.zone z).entries) ∧
      t.time = s.time ∧ t.groups = s.groups ∧ t.inputs = s.inputs ∧ t.arbiter = s.arbiter ∧ t.combiner = s.combiner ∧
      t.poster = s.poster)

/-- R67, R80, R84 to R89, R93, R150: DISABLE_SERVICE discards the streams, keeps their report, takes the service's block off the work list
and replans only the zones of its mask (`replanned`), in an ascending order that is the model's choice (log 49). The report holds each
stream's increments, totals, STARVED and its changes, added to a report still owed; that a sum of increments above 65,535 is held there is
the model's choice (log 51). Dropped-before is 0 and the sums are marked disabled; the rest of the service's record stands, its definition
and last appended with it. In the records of the blocks already begun the disabled service is withdrawn and nothing else changes; that
it is withdrawn there at once, so that those blocks are not combined after a quick enable either, is read from R150 (log 38). -/
def Obligations.DisableServiceDiscardsStreams : Prop :=
  ∀ (s : State) (index : BitVec 8) (tag : BitVec 16) (v : ServiceIx), s.ordersIdle → index.toNat = v.val →
    ((s.service v).state ≠ .enabled →
      exec (.disableService index tag) s = .next (s.answered (plainOrder 3 index tag) (.refused .wrongState) s)) ∧
    ((s.service v).state = .enabled → ∃ t : State,
      exec (.disableService index tag) s = .next (s.answered (plainOrder 3 index tag) .done t) ∧
      (∃ zs, zonesWith zs (fun z => (s.service v).mask.getLsbD z.val = true) ∧
        ({ s with services := t.services, combiner := t.combiner } : State).replannedAll t zs) ∧
      (∃ rep, t.service v = { s.service v with
          state := .defined, streams := ⟨none, none, none⟩, report := some rep, droppedBefore := 0
          sums := { (s.service v).sums with disabled := true } } ∧ ∀ n : StreamName,
        let old : Option StreamReport := (s.service v).report.bind (fun p => p.get n)
        ((s.service v).streams.get n = none → rep.get n = old) ∧
        (∀ r, (s.service v).streams.get n = some r → old = none → rep.get n = some
          { increments := r.increments, totals := (s.service v).totals.get n, starved := r.starved, starvedSet := r.starvedSet
            starvedCleared := r.starvedCleared }) ∧
        (∀ r q, (s.service v).streams.get n = some r → old = some q → rep.get n = some
          { increments :=
              { underrun := bumpBy16 q.increments.underrun r.increments.underrun, stale := bumpBy16 q.increments.stale r.increments.stale
                early := bumpBy16 q.increments.early r.increments.early
                misplaced := bumpBy16 q.increments.misplaced r.increments.misplaced
                duplicate := bumpBy16 q.increments.duplicate r.increments.duplicate
                lateWrite := bumpBy16 q.increments.lateWrite r.increments.lateWrite }
            totals := (s.service v).totals.get n, starved := r.starved, starvedSet := q.starvedSet || r.starvedSet
            starvedCleared := q.starvedCleared || r.starvedCleared })) ∧
      (let withdrawn (r : BlockRecord) : BlockRecord :=
          { r with enabled := Vector.ofFn (fun u : Fin 24 => if u = v then false else r.enabled[u]) }
       t.combiner = { prev := s.combiner.prev.map withdrawn, now := s.combiner.now.map withdrawn
                      workList := s.combiner.workList.filter (fun b => b.service != v) }) ∧
      (∀ v', v' ≠ v → t.service v' = s.service v') ∧
      (∀ z : ZoneIx, (s.service v).mask.getLsbD z.val = false → t.zone z = s.zone z) ∧
      (∀ z, (t.zone z).planId = (s.zone z).planId ∧ (t.zone z).entries = (s.zone z).entries) ∧
      t.time = s.time ∧ t.groups = s.groups ∧ t.inputs = s.inputs ∧ t.arbiter = s.arbiter ∧ t.poster = s.poster)

/-- R68: CLEAR_SERVICE's refusals in their order, and the record returned to the reset values of R63, the counters kept, and with
them what R80 and R137 keep of the service beside R63's record. -/
def Obligations.ClearServiceRestoresResetValues : Prop :=
  (∀ (s : State) (index : BitVec 8) (tag : BitVec 16), s.ordersIdle → 24 ≤ index.toNat →
    exec (.clearService index tag) s = .next (s.answered (plainOrder 4 index tag) (.refused .badIndex) s)) ∧
  ∀ (s : State) (index : BitVec 8) (tag : BitVec 16) (v : ServiceIx), s.ordersIdle → index.toNat = v.val →
    let planned := ∃ z, v ∈ carriedOf (s.zone z).entries ∨ ∃ p, (s.zone z).staged = some p ∧ v ∈ carriedOf p.entries
    ((s.service v).state ≠ .defined →
      exec (.clearService index tag) s = .next (s.answered (plainOrder 4 index tag) (.refused .wrongState) s)) ∧
    ((s.service v).state = .defined → planned →
      exec (.clearService index tag) s = .next (s.answered (plainOrder 4 index tag) (.refused .busy) s)) ∧
    ((s.service v).state = .defined → ¬ planned →
      exec (.clearService index tag) s = .next (s.answered (plainOrder 4 index tag) .done (s.modService v (fun x => { x with
        state := .free, kind := .broadcast, width := 1, cls := 0, incidentOnly := false, mask := 0, radioTag := 0, bypass := false
        areas := ⟨none, none, none⟩, ring := none, streams := ⟨none, none, none⟩ }))))

/-! ## Links: lock, timers, deadlines -/

/-- R4, R6, R12, R13, R15, R47, R49, R52: frame lock: gained in any state; lost in ATTACH it returns the link to the detection phase; lost
in a state with the control channel open it faults the link, with the teardown's notices in their order (LINK_STATE, QUERY_DONE, ALIGN);
lost in DARK, LISTEN or FAULT it only ends the condition. -/
def Obligations.LockEventsFollowTheirState : Prop :=
  ∀ (s : State) (l : LinkIx), s.path.inReset = false →
    exec (.lockGained l) s = .next (s.modMgr l (fun m => { m with lock := true })) ∧
    ((s.link l).mgr.state ∈ ([.dark, .listen, .fault] : List LinkState) →
      exec (.lockLost l) s = .next (s.modMgr l (fun m => { m with lock := false, attachDue := false }))) ∧
    ((s.link l).mgr.state = .attach →
      exec (.lockLost l) s = .next (s.modMgr l (fun m => { m with
        lock := false, attachDue := false, state := .listen, listenPhase := some .detect, attachPhase := none, phaseCount := 0 }))) ∧
    ((s.link l).mgr.state ∈ ([.standby, .joining, .active, .quiescing] : List LinkState) → ∃ t : State,
      exec (.lockLost l) s = .next t ∧
      TornDown (s.modMgr l (fun m => { m with lock := false, attachDue := false })) t l .fault (.fault .lockLost))

/-- R5, R6, R7, R10: what the timed events do where they fall: the settle period ends, ATTACH is entered, DEBOUNCE ends, the HELLO wait
runs out, QUIESCING ends. That a boundary found ATTACH or the end of QUIESCING due (`attachDue`, `quiesceDue`) is the model's
note (log 2). -/
def Obligations.LinkTimersAdvanceLink : Prop :=
  SetupsReplaceOneAnother ∧
  ∀ (s : State) (l : LinkIx), s.path.inReset = false →
    ((s.link l).mgr.state = .listen → (s.link l).mgr.listenPhase = some .settle → (s.link l).mgr.phaseCount = 100 →
      exec (.settlePeriodEnd l) s = .next (s.modMgr l (fun m => { m with listenPhase := some .detect, attachDue := m.lock }))) ∧
    ((s.link l).mgr.state = .listen → (s.link l).mgr.listenPhase = some .detect → (s.link l).mgr.lock = true →
      (s.link l).mgr.attachDue = true →
      exec (.attach l) s = .next (s.modMgr l (fun m => { m with
        state := .attach, attachPhase := some .debounce, listenPhase := none, phaseCount := 0, attachDue := false }))) ∧
    ((s.link l).mgr.state = .attach → (s.link l).mgr.attachPhase = some .debounce → (s.link l).mgr.phaseCount = 98 →
      exec (.debounceEnd l) s = .next (s.modMgr l (fun m => { m with attachPhase := some .helloWait, phaseCount := 0 }))) ∧
    ((s.link l).mgr.state = .attach → (s.link l).mgr.attachPhase = some .helloWait → (s.link l).mgr.phaseCount = 50 → ∃ t : State,
      exec (.helloWaitExpiry l) s = .next t ∧ TornDown s t l .fault (.fault .noHello)) ∧
    ((s.link l).mgr.state = .quiescing → (s.link l).mgr.quiesceDue = true → (∀ g : Tag, (s.link l).mgr.outstanding[g] = none) →
      (s.link l).mgr.pendingQueue = [] →
      exec (.quiescingEnd l) s = .next
        ((s.modLink l (fun x => { x with mgr := { x.mgr with
          state := .standby, erroredRun := 0, quiesceDue := false
          txQueue := placeSetup x.mgr.txQueue { zone := x.settings.zone, group := x.settings.group, power := x.settings.power } } })).plusNotice
          (.linkState l .quiescing .standby .quiesced (Vector.replicate 4 false) none)))

/-- R10, R13, R15, R19, R21, R95 to R97: a deadline reached 40 blocks after the sending, alone on its link: a query completes TIMEOUT and
its tag goes to the head of the pending queue; the current PLAN of a SWITCH exchange leaves the exchange failed; that of a JOIN exchange is
a failed attempt, the third of which faults the link; a superseded one frees its tag. Several queries at once complete in ascending tag
order before the freed tags are given on. A QUIESCING link that an expiry leaves with nothing outstanding or pending is noted as due to
leave QUIESCING at that boundary (`quiesceDue`, log 2). A link with nothing due takes the next boundary, where something is due there (log
2), and nothing happens where nothing is due there either (log 4). That a request frees its tag, is reported, and its tag is then given on,
so that the renewed PLAN of a JOIN exchange comes ahead of a waiting query, is the model's choice (log 16); so are the frame and the block
record of a link faulted at a boundary whose frames have started (log 20). -/
def Obligations.DeadlineExpiryFreesTag : Prop :=
  (∀ (s : State) (l : LinkIx) (g : Tag) (b : Seq16), s.path.inReset = false →
    let noted (t : State) : State := t.modMgr l (fun m =>
      if m.state = .quiescing ∧ (∀ g' : Tag, m.outstanding[g'] = none) ∧ m.pendingQueue = [] ∧ s.time.blockOwed = false then
        { m with quiesceDue := true } else m)
    40 ≤ (s.time.block - b).toNat →
    (∀ g' : Tag, g' ≠ g → ∀ o, (s.link l).mgr.outstanding[g'] = some o →
      ∀ b', o.sentIn = some b' → (s.time.block - b').toNat < 40) →
    (∀ (item : Item) (orderTag : BitVec 16),
      (s.link l).mgr.outstanding[g] = some { request := .query item orderTag, sentIn := some b } →
      ((s.link l).mgr.pendingQueue = [] →
        exec (.requestDeadlineExpiry l) s = .next
          (noted ((s.modMgr l (fun m => { m with outstanding := m.outstanding.set g none })).plusNotice
            (.queryDone l item .timeout orderTag 0)))) ∧
      (∀ r rest, (s.link l).mgr.pendingQueue = r :: rest → (∀ g' : Tag, g' ≠ g → (s.link l).mgr.outstanding[g'] ≠ none) →
        exec (.requestDeadlineExpiry l) s = .next
          ((s.modMgr l (fun m => { m with
            outstanding := m.outstanding.set g (some { request := r, sentIn := none })
            txQueue := m.txQueue ++ [.request g r]
            pendingQueue := rest })).plusNotice (.queryDone l item .timeout orderTag 0)))) ∧
    (∀ (n : Nat) (m : Seq16) (items : List PlanItem),
      (s.link l).mgr.outstanding[g] = some { request := .plan n m items, sentIn := some b } → s.tagIsNext l g →
      (∀ x, (s.link l).exchange = some x → x.current = some n → x.purpose = .switch →
        exec (.requestDeadlineExpiry l) s = .next (noted (s.modLink l (fun y => { y with
          mgr := y.mgr.tagPassedOn g
          exchange := some { x with standing := .failed } })))) ∧
      (∀ x target m2 entries (g2 : Tag), (s.link l).exchange = some x → x.current = some n → x.purpose = .join → x.attempts < 2 →
        s.offers (s.link l).settings.zone target m2 entries → (g2 = g ∨ (s.link l).mgr.outstanding[g2] = none) →
        (∀ g3 : Tag, g3 < g2 → g3 ≠ g ∧ (s.link l).mgr.outstanding[g3] ≠ none) →
        exec (.requestDeadlineExpiry l) s = .next (s.joinRetried l g g2 target m2 entries (x.attempts + 1))) ∧
      (∀ x, (s.link l).exchange = some x → x.current = some n → x.purpose = .join → 2 ≤ x.attempts →
        (s.link l).mgr.state = .joining → ∃ t u : State, exec (.requestDeadlineExpiry l) s = .next t ∧
        TornDown s u l .fault (.fault .planFail) ∧ s.governed u t ∧
        (s.time.blockOwed = true → t.combiner = s.combiner) ∧
        (s.time.blockOwed = false →
          (t.link l).mgr.frame = (s.link l).mgr.frame.map (fun _ => { messages := [], carriesLanes := false, k := 0 }) ∧
          t.combiner = { s.combiner with now := s.combiner.now.map (fun r => { r with
            applied := r.applied.set l 0, launched := r.launched.set l none }) })) ∧
      (((s.link l).exchange = none ∨ ∃ x, (s.link l).exchange = some x ∧ x.current ≠ some n) →
        exec (.requestDeadlineExpiry l) s = .next (noted (s.modMgr l (fun y => y.tagPassedOn g)))))) ∧
  (∀ (s : State) (l : LinkIx) (due free : List Tag) (query : Tag → Item × BitVec 16), s.path.inReset = false →
    due ≠ [] → due.Pairwise (· < ·) → free.Pairwise (· < ·) →
    (∀ g : Tag, g ∈ due ↔ ∃ o b, (s.link l).mgr.outstanding[g] = some o ∧ o.sentIn = some b ∧ 40 ≤ (s.time.block - b).toNat) →
    (∀ g : Tag, g ∈ due → ∃ b, (s.link l).mgr.outstanding[g] =
      some { request := .query (query g).1 (query g).2, sentIn := some b }) →
    (∀ g : Tag, g ∈ free ↔ g ∈ due ∨ (s.link l).mgr.outstanding[g] = none) →
    let given := free.zip (s.link l).mgr.pendingQueue
    let noted (t : State) : State := t.modMgr l (fun m =>
      if m.state = .quiescing ∧ (∀ g : Tag, m.outstanding[g] = none) ∧ m.pendingQueue = [] ∧ s.time.blockOwed = false then
        { m with quiesceDue := true } else m)
    exec (.requestDeadlineExpiry l) s = .next (noted { s.modMgr l (fun m => { m with
        outstanding := Vector.ofFn (fun g : Fin 4 => match given.find? (fun x => x.1 == g) with
          | some x => some { request := x.2, sentIn := none }
          | none => if g ∈ free then none else m.outstanding[g])
        txQueue := m.txQueue ++ given.map (fun x => .request x.1 x.2)
        pendingQueue := m.pendingQueue.drop free.length }) with
      notices := due.foldl (fun u g => u.generate (.queryDone l (query g).1 .timeout (query g).2 0)) s.notices })) ∧
  (∀ (s : State) (l : LinkIx), s.path.inReset = false →
    let due (u : State) : Prop := ∃ (g : Tag) (o : Outstanding) (b : Seq16), (u.link l).mgr.outstanding[g] = some o ∧
      o.sentIn = some b ∧ 40 ≤ (u.time.block - b).toNat
    ¬ due s →
    (s.time.blockOwed = false → due s.atBoundary →
      exec (.requestDeadlineExpiry l) s = exec (.requestDeadlineExpiry l) s.atBoundary) ∧
    ((s.time.blockOwed = true ∨ ¬ due s.atBoundary) → exec (.requestDeadlineExpiry l) s = .next s))

/-! ## Links: arriving frames -/

/-- R7, R12, R13, R15, R17, R24, R47, R49, R52, R138: a HELLO in the HELLO wait takes the link to STANDBY; anything else in ATTACH, and any
frame in DARK, LISTEN or FAULT, changes nothing; an errored frame is counted, the fourth in a row faults the link, and so does a HELLO while
the control channel is open. The messages of a frame are taken one after another, each in the state the one before leaves. The samples of a
frame of an ACTIVE link go into the received block of its number, the present period's or the one before, if that block has not been taken:
an errored frame poisons it; any other number changes nothing. -/
def Obligations.FramesMoveTheLink : Prop :=
  SetupsReplaceOneAnother ∧
  (∀ (h : RxHistory) (p : Seq16) (f : UplinkFrame),
    let took (b : RxBlock) : RxBlock := if b.taken then b else
      { samples := if f.errored then [] else f.samples, taken := true, valid := !f.errored }
    (f.number = p → h.take p f = { h with newest := took h.newest }) ∧
    (f.number = p - 1 → h.take p f = { h with middle := took h.middle }) ∧
    (f.number ≠ p → f.number ≠ p - 1 → h.take p f = h)) ∧
  (∀ (s : State) (l : LinkIx) (f : UplinkFrame) (first : List RxMsg) (m : RxMsg), s.path.inReset = false → frameOk f = true →
    f.errored = false → f.messages = first ++ [m] → ∃ u : State,
    exec (.uplinkFrameArrival l { f with messages := first }) s = .next u ∧
    exec (.uplinkFrameArrival l f) s = exec (.uplinkFrameArrival l { f with messages := [m] }) u) ∧
  ∀ (s : State) (l : LinkIx) (f : UplinkFrame), s.path.inReset = false → frameOk f = true →
    let openStates : List LinkState := [.standby, .joining, .active, .quiescing]
    (∀ (identity : BitVec 64) (firmware : BitVec 16), f.errored = false → f.messages = [.hello identity firmware] →
      (s.link l).mgr.state = .attach → (s.link l).mgr.attachPhase = some .helloWait →
      exec (.uplinkFrameArrival l f) s = .next
        ((s.modLink l (fun x => { x with mgr := { x.mgr with
          state := .standby, identity := some { identity := identity, firmware := firmware }, erroredRun := 0, attachPhase := none
          txQueue := placeSetup x.mgr.txQueue { zone := x.settings.zone, group := x.settings.group, power := x.settings.power } } })).plusNotice
          (.linkState l .attach .standby .hello (Vector.replicate 4 false) (some { identity := identity, firmware := firmware })))) ∧
    ((s.link l).mgr.state = .attach → (f.errored = true ∨ (s.link l).mgr.attachPhase ≠ some .helloWait ∨
        ∀ identity firmware, .hello identity firmware ∉ f.messages) →
      exec (.uplinkFrameArrival l f) s = .next s) ∧
    (f.errored = true → (s.link l).mgr.state ∈ openStates → (s.link l).mgr.erroredRun < 3 →
      exec (.uplinkFrameArrival l f) s = .next (s.modLink l (fun x => { x with
        mgr := { x.mgr with erroredFrames := bump16 x.mgr.erroredFrames, erroredRun := x.mgr.erroredRun + 1 }
        rx := if x.mgr.state = .active then x.rx.map (fun h => h.take s.period f) else x.rx }))) ∧
    (f.errored = true → (s.link l).mgr.state ∈ openStates → (s.link l).mgr.erroredRun = 3 → ∃ t : State,
      exec (.uplinkFrameArrival l f) s = .next t ∧
      TornDown (s.modMgr l (fun m => { m with erroredFrames := bump16 m.erroredFrames })) t l .fault (.fault .errors)) ∧
    (∀ (identity : BitVec 64) (firmware : BitVec 16), f.errored = false → f.messages = [.hello identity firmware] →
      (s.link l).mgr.state ∈ openStates → ∃ t : State,
      exec (.uplinkFrameArrival l f) s = .next t ∧ TornDown s t l .fault (.fault .ruRestart)) ∧
    ((s.link l).mgr.state ∈ ([.dark, .listen, .fault] : List LinkState) →
      exec (.uplinkFrameArrival l f) s = .next s)

/-- R17, R22, R23, R25, R95 to R97: the messages an unerrored frame brings while the control channel is open: alarm wires, the reply to
a query or to a PLAN, replies nothing waits for, kinds the part does not know. That the tag a refused PLAN frees goes to the renewed PLAN
ahead of a waiting query (`joinRetried`) is the model's choice (log 16). -/
def Obligations.MessagesAreTakenByKind : Prop :=
  ∀ (s : State) (l : LinkIx) (f : UplinkFrame), s.path.inReset = false → frameOk f = true → f.errored = false →
    (s.link l).mgr.state ∈ ([.standby, .joining, .active, .quiescing] : List LinkState) →
    let u := s.afterGoodFrame l f
    (f.messages = [] → exec (.uplinkFrameArrival l f) s = .next u) ∧
    (∀ (w : Wire) (i : Fin 4) (on : Bool), (w, i) ∈ ([(.power, 0), (.heat, 1), (.feeder, 2), (.door, 3)] : List (Wire × Fin 4)) →
      f.messages = [if on then .alarmOn w else .alarmOff w] →
      ((s.link l).mgr.wires[i] ≠ on → exec (.uplinkFrameArrival l f) s =
        .next ((u.modMgr l (fun m => { m with wires := m.wires.set i on })).plusNotice (.alarm l w on))) ∧
      ((s.link l).mgr.wires[i] = on → exec (.uplinkFrameArrival l f) s =
        .next (u.modMgr l (fun m => { m with violations := bump16 m.violations })))) ∧
    (∀ (g : Tag) (status : ReplyStatus) (data : BitVec 32), f.messages = [.reply g status data] →
      (((s.link l).mgr.outstanding[g] = none ∨ ∃ r, (s.link l).mgr.outstanding[g] = some { request := r, sentIn := none }) →
        exec (.uplinkFrameArrival l f) s = .next (u.modMgr l (fun m => { m with unexpected := bump16 m.unexpected }))) ∧
      (∀ (item : Item) (orderTag : BitVec 16) (b : Seq16),
        (s.link l).mgr.outstanding[g] = some { request := .query item orderTag, sentIn := some b } →
        let n : Notice := if status = .data then .queryDone l item .data orderTag data else .queryDone l item .rejected orderTag 0
        ((s.link l).mgr.pendingQueue = [] → exec (.uplinkFrameArrival l f) s =
          .next ((u.modMgr l (fun m => { m with outstanding := m.outstanding.set g none })).plusNotice n)) ∧
        (∀ r rest, (s.link l).mgr.pendingQueue = r :: rest → (∀ g' : Tag, g' ≠ g → (s.link l).mgr.outstanding[g'] ≠ none) →
          exec (.uplinkFrameArrival l f) s = .next ((u.modMgr l (fun m => { m with
            outstanding := m.outstanding.set g (some { request := r, sentIn := none })
            txQueue := m.txQueue ++ [.request g r]
            pendingQueue := rest })).plusNotice n))) ∧
      (∀ (n : Nat) (m : Seq16) (items : List PlanItem) (b : Seq16),
        (s.link l).mgr.outstanding[g] = some { request := .plan n m items, sentIn := some b } → s.tagIsNext l g →
        (∀ x, (s.link l).exchange = some x → x.current = some n → (status = .accept ∨ x.purpose = .switch) →
          exec (.uplinkFrameArrival l f) s = .next (u.modLink l (fun y => { y with
            mgr := y.mgr.tagPassedOn g
            exchange := some { x with standing := if status = .accept then .accepted else .failed } }))) ∧
        (∀ x target m2 entries (g2 : Tag), (s.link l).exchange = some x → x.current = some n → status ≠ .accept →
          x.purpose = .join → x.attempts < 2 → s.offers (s.link l).settings.zone target m2 entries →
          (g2 = g ∨ (s.link l).mgr.outstanding[g2] = none) →
          (∀ g3 : Tag, g3 < g2 → g3 ≠ g ∧ (s.link l).mgr.outstanding[g3] ≠ none) →
          exec (.uplinkFrameArrival l f) s = .next (u.joinRetried l g g2 target m2 entries (x.attempts + 1))) ∧
        (∀ x, (s.link l).exchange = some x → x.current = some n → status ≠ .accept → x.purpose = .join → 2 ≤ x.attempts →
          (s.link l).mgr.state = .joining → ∃ t : State, exec (.uplinkFrameArrival l f) s = .next t ∧
          TornDown s t l .fault (.fault .planFail)) ∧
        (((s.link l).exchange = none ∨ ∃ x, (s.link l).exchange = some x ∧ x.current ≠ some n) →
          exec (.uplinkFrameArrival l f) s = .next (u.modMgr l (fun y => y.tagPassedOn g))))) ∧
    (f.messages = [.unknown] →
      exec (.uplinkFrameArrival l f) s = .next (u.modMgr l (fun m => { m with unsupported := bump16 m.unsupported })))

/-! ## Ranging -/

/-- R30, R32 to R37, R40: the echoes of a run: an echo of mark 0, 1 or 2 is captured; one that matches nothing is counted unexpected;
the fourth settles the run: a spread within J gives D, TURN, L, P and SUSPECT by the arithmetic of R33 and R34, and a new path of an
ACTIVE link re-evaluates its group; a spread above J ends the run JITTER and keeps the range, in ACTIVE as a failure, the third of which
faults the link. -/
def Obligations.FourthEchoSettlesRun : Prop :=
  ∀ (s : State) (l : LinkIx) (f : UplinkFrame) (runId : BitVec 8) (m : Fin 4) (turn latency : BitVec 12),
    s.path.inReset = false → frameOk f = true → f.errored = false → f.messages = [.echo runId (.run m) turn latency] →
    (s.link l).mgr.state ∈ ([.standby, .joining, .active, .quiescing] : List LinkState) →
    let u := s.afterGoodFrame l f
    let old := s.link l
    let matching (r : RangingRun) : Prop := r.runId = runId ∧ m.val < r.marksSent ∧ s.period = r.firstBlock + BitVec.ofNat 16 m.val ∧
      f.arrivalStep ≤ 65535 ∧ r.roundTrips[m] = none
    (∀ r, old.rng.run = some r → matching r → m ≠ 3 → exec (.uplinkFrameArrival l f) s = .next (u.modRng l (fun y => { y with
      run := some { r with roundTrips := r.roundTrips.set m (some f.arrivalStep) } }))) ∧
    ((∀ r, old.rng.run = some r → ¬ matching r) →
      exec (.uplinkFrameArrival l f) s = .next (u.modMgr l (fun y => { y with unexpected := bump16 y.unexpected }))) ∧
    (∀ (r : RangingRun) (a b c : Nat), old.rng.run = some r → matching r → m = 3 →
      r.roundTrips = #v[some a, some b, some c, none] → a ≤ 65535 → b ≤ 65535 → c ≤ 65535 →
      let d := f.arrivalStep
      let spread := max (max (max a b) c) d - min (min (min a b) c) d
      let x : Int := (a + b + c + d : Nat) - 4 * (turn.toNat : Int) + 4 * r.asymmetry
      let delay := if x < 0 then 0 else ((x + 4) / 8).toNat
      let path := ((delay : Int) + latency.toNat + old.settings.cable).toNat
      let settled := (u.modRng l (fun y => { y with
          run := none, valid := true, delay := delay, turn := turn.toNat, latency := latency.toNat, path := path
          suspect := decide (x < 0), failures := 0, trackCount := if old.mgr.state = .active then 0 else y.trackCount })).plusNotice
        (.rangeResult l runId r.cause .ok old.mgr.state #v[some a, some b, some c, some d] (some spread) (some turn.toNat)
          (some latency.toNat) (some delay) (some path) (decide (x < 0)) true 0 none)
      let jitter (failures : Nat) : Notice := .rangeResult l runId r.cause .jitter old.mgr.state #v[some a, some b, some c, some d]
        (some spread) none none none none false old.rng.valid failures none
      (spread ≤ r.jitter → (old.mgr.state ≠ .active ∨ path = old.rng.path) → exec (.uplinkFrameArrival l f) s = .next settled) ∧
      (spread ≤ r.jitter → old.mgr.state = .active → path ≠ old.rng.path → ∃ t : State,
        exec (.uplinkFrameArrival l f) s = .next t ∧
        settled.reEvaluated t old.settings.group (s.group old.settings.group) (.path l path) []) ∧
      (r.jitter < spread → old.mgr.state ≠ .active → exec (.uplinkFrameArrival l f) s = .next
        ((u.modRng l (fun y => { y with run := none })).plusNotice (jitter old.rng.failures))) ∧
      (r.jitter < spread → old.mgr.state = .active → old.rng.failures < 2 → exec (.uplinkFrameArrival l f) s = .next
        ((u.modRng l (fun y => { y with run := none, trackCount := 0, failures := y.failures + 1 })).plusNotice
          (jitter (old.rng.failures + 1)))) ∧
      (r.jitter < spread → old.mgr.state = .active → old.rng.failures = 2 → ∃ t : State,
        exec (.uplinkFrameArrival l f) s = .next t ∧ TornDown (s.plusNotice (jitter 3)) t l .fault (.fault .rangeLost)))

/-- R31, R36, R37, R40: the close of an echo window with no echo captured ends the run TIMEOUT; in ACTIVE it is a failure, and the third
faults the link. -/
def Obligations.EchoWindowCloseEndsRun : Prop :=
  ∀ (s : State) (l : LinkIx) (r : RangingRun) (m : Fin 4), s.path.inReset = false → (s.link l).rng.run = some r →
    r.marksSent = m.val + 1 → s.period = r.firstBlock + BitVec.ofNat 16 m.val → r.roundTrips[m] = none →
    ((s.link l).mgr.state ≠ .active → exec (.echoWindowClose l) s = .next
      ((s.modRng l (fun x => { x with run := none })).plusNotice
        (.rangeResult l r.runId r.cause .timeout (s.link l).mgr.state r.roundTrips none none none none none false
          (s.link l).rng.valid (s.link l).rng.failures (some m.val)))) ∧
    ((s.link l).mgr.state = .active → (s.link l).rng.failures < 2 → exec (.echoWindowClose l) s = .next
      ((s.modRng l (fun x => { x with run := none, trackCount := 0, failures := x.failures + 1 })).plusNotice
        (.rangeResult l r.runId r.cause .timeout .active r.roundTrips none none none none none false
          (s.link l).rng.valid ((s.link l).rng.failures + 1) (some m.val)))) ∧
    ((s.link l).mgr.state = .active → (s.link l).rng.failures = 2 → ∃ t : State,
      exec (.echoWindowClose l) s = .next t ∧
      TornDown (s.plusNotice (.rangeResult l r.runId r.cause .timeout .active r.roundTrips none none none none none false
        (s.link l).rng.valid 3 (some m.val))) t l .fault (.fault .rangeLost))

/-- R41 to R44: a tracking count of 16 places a MARK TRACK first in the frame of the boundary and opens a marker, the unanswered one
before it counted missing. Where the boundary's own count is still owed and is the sixteenth, the mark takes it (log 2); where no mark is
due the event takes the next boundary if one is due there, and else does nothing (log 2, log 4). The close of a window leaves the marker
unanswered. A TRACK echo that matches the open marker removes it: an inlier moves D one step and the path with it, and a new path of an
ACTIVE link re-evaluates its group; an outlier is counted, the third starting a run of cause TRACKING; an echo that matches no marker is
counted unexpected. -/
def Obligations.TrackingMarksOpenAndClose : Prop :=
  ∀ (s : State) (l : LinkIx), s.path.inReset = false →
    let due (u : State) : Prop := (u.link l).mgr.state = .active ∧ (u.link l).rng.run = none ∧ (16 ≤ (u.link l).rng.trackCount ∨
      ((u.link l).rng.trackCount = 15 ∧ u.time.superframeOwed = true ∧ (u.link l).rng.skipCount = false))
    (due s → exec (.trackingMark l) s = .next (s.modLink l (fun x => { x with
        mgr := { x.mgr with
          markNext := if s.time.blockOwed then some (.mark x.rng.runCounter .track) else x.mgr.markNext
          frame := if s.time.blockOwed then x.mgr.frame
            else x.mgr.frame.map (fun f => { f with messages := .mark x.rng.runCounter .track :: f.messages }) }
        rng := { x.rng with
          trackCount := 0
          skipCount := x.rng.skipCount || decide (x.rng.trackCount = 15)
          marker := some { runId := x.rng.runCounter, block := s.time.block, isOpen := true }
          missingEchoes := if (∃ y, x.rng.marker = some y ∧ y.isOpen = false) then bump16 x.rng.missingEchoes
            else x.rng.missingEchoes } }))) ∧
    (¬ due s →
      (s.time.blockOwed = false → due s.atBoundary → exec (.trackingMark l) s = exec (.trackingMark l) s.atBoundary) ∧
      ((s.time.blockOwed = true ∨ ¬ due s.atBoundary) → exec (.trackingMark l) s = .next s)) ∧
    (∀ y, (s.link l).rng.marker = some y →
      exec (.trackWindowClose l) s = .next (s.modRng l (fun x => { x with marker := some { y with isOpen := false } }))) ∧
    (∀ (f : UplinkFrame) (runId : BitVec 8) (turn latency : BitVec 12), frameOk f = true → f.errored = false →
      f.messages = [.echo runId .track turn latency] →
      (s.link l).mgr.state ∈ ([.standby, .joining, .active, .quiescing] : List LinkState) →
      let u := s.afterGoodFrame l f
      let old := (s.link l).rng
      let matching (y : TrackMarker) : Prop := y.isOpen = true ∧ y.runId = runId ∧ y.block = s.period ∧ f.arrivalStep ≤ 65535
      let x1 : Int := f.arrivalStep - (turn.toNat : Int) + (s.link l).settings.asymmetry
      let d := if x1 < 0 then 0 else ((x1 + 1) / 2).toNat
      let delay := if old.delay < d then old.delay + 1 else if d < old.delay then old.delay - 1 else old.delay
      let path := if delay = old.delay then old.path else ((delay : Int) + old.latency + (s.link l).settings.cable).toNat
      let moved := u.modRng l (fun x => { x with marker := none, outliers := 0, delay := delay, path := path })
      ((∀ y, old.marker = some y → ¬ matching y) →
        exec (.uplinkFrameArrival l f) s = .next (u.modMgr l (fun x => { x with unexpected := bump16 x.unexpected }))) ∧
      (∀ y, old.marker = some y → matching y →
        (d ≤ old.delay + 64 → old.delay ≤ d + 64 → ((s.link l).mgr.state ≠ .active ∨ path = old.path) →
          exec (.uplinkFrameArrival l f) s = .next moved) ∧
        (d ≤ old.delay + 64 → old.delay ≤ d + 64 → (s.link l).mgr.state = .active → path ≠ old.path → ∃ t : State,
          exec (.uplinkFrameArrival l f) s = .next t ∧
          moved.reEvaluated t (s.link l).settings.group (s.group (s.link l).settings.group) (.path l path) []) ∧
        ((old.delay + 64 < d ∨ d + 64 < old.delay) → old.outliers < 2 → exec (.uplinkFrameArrival l f) s = .next
          (u.modRng l (fun x => { x with marker := none, outliers := x.outliers + 1 }))) ∧
        ((old.delay + 64 < d ∨ d + 64 < old.delay) → 2 ≤ old.outliers → exec (.uplinkFrameArrival l f) s = .next
          (u.modLink l (fun x => { x with rng := { x.rng with
            runCounter := x.rng.runCounter + 1
            run := some { runId := x.rng.runCounter + 1, cause := .tracking, firstBlock := s.time.block + 1, marksSent := 0,
                          roundTrips := Vector.replicate 4 none, turn3 := none, latency3 := none,
                          asymmetry := x.settings.asymmetry, jitter := x.settings.jitter }
            outliers := 0
            marker := none } })))))

/-! ## Alignment -/

/-- R51, R52, R53, R55: a hold that reaches 100 expires: T takes the candidate, every member's K*, OUT_OF_REACH and SLEWING follow, ALIGN
is posted with the flags that changed; K stands. Where the boundary's own count is still owed and is the hundredth, the expiry takes it
(log 2). Where nothing is due the event takes the next boundary if one is due there, and else does nothing (log 2, log 4). -/
def Obligations.HoldExpiryMovesTarget : Prop :=
  ∀ (s : State) (g : GroupIx), s.path.inReset = false →
    let due (u : State) (h : Hold) : Prop := (u.group g).hold = some h ∧
      (100 ≤ h.count ∨ (h.count = 99 ∧ u.time.superframeOwed = true ∧ (u.group g).counted = false))
    (∀ h : Hold, due s h → ∃ (t : State) (flags : List (LinkIx × Bool)), exec (.holdExpiry g) s = .next t ∧
      t.group g = { s.group g with target := some h.candidate, hold := none
                                   counted := (s.group g).counted || decide (h.count = 99) } ∧
      (∀ g', g' ≠ g → t.group g' = s.group g') ∧
      (∀ l, (s.link l).mgr.state = .active → (s.link l).settings.group = g →
        let kStar := min 16383 (h.candidate - (s.link l).rng.path)
        t.link l = { s.link l with align := { k := (s.link l).align.k, kStar := kStar, slewing := (s.link l).align.k != kStar
                                              outOfReach := decide (16383 < h.candidate - (s.link l).rng.path) } }) ∧
      (∀ l, ((s.link l).mgr.state ≠ .active ∨ (s.link l).settings.group ≠ g) → t.link l = s.link l) ∧
      t.notices = s.notices.generate (.align g .holdExpired (s.group g).target (some h.candidate) none flags) ∧
      (∀ l on, (l, on) ∈ flags ↔ ((t.link l).align.outOfReach = on ∧ (s.link l).align.outOfReach ≠ on)) ∧
      t.time = s.time ∧ t.services = s.services ∧ t.zones = s.zones ∧ t.inputs = s.inputs ∧ t.arbiter = s.arbiter ∧
      t.combiner = s.combiner ∧ t.path = s.path ∧ t.orders = s.orders ∧ t.poster = s.poster) ∧
    ((∀ h, ¬ due s h) →
      (∀ h, s.time.blockOwed = false → due s.atBoundary h → exec (.holdExpiry g) s = exec (.holdExpiry g) s.atBoundary) ∧
      ((s.time.blockOwed = true ∨ ∀ h, ¬ due s.atBoundary h) → exec (.holdExpiry g) s = .next s))

/-! ## Contact inputs -/

/-- R84 to R89, R93, R105, R106, R109, R112 to R115, R118, R122, R129: a registered change: in OFF only the level; a change that neither
latches nor clears is reported; a rise latches an unlatched input, activates its source and brings its zones' derived state up; a fall of
an acknowledged LEVEL input clears it; both in R113's order, with the LINE_EVENT, the INCIDENT and BREAKIN_OWNER notices and the replans
(`latchTaken`). That a boundary's sampling left the change due (`changeDue`) is the model's note (log 2). A change given before the
sampling of its boundary, where seven samples have differed, is the change that sampling would make, and stands for the sample (log 2);
with fewer nothing happens (log 4). -/
def Obligations.RegisteredChangeFollowsItsMode : Prop :=
  (∀ (s : State) (i : InputIx), s.path.inReset = false → (s.input i).changeDue = false →
    ((s.input i).stability = 7 → (s.input i).changeTaken = false → ∃ u : State,
      exec (.registeredChange i) (s.atBoundary.modInput i (fun x => { x with changeDue := true })) = .next u ∧
      exec (.registeredChange i) s = .next (u.modInput i (fun x => { x with changeTaken := true }))) ∧
    (((s.input i).stability ≠ 7 ∨ (s.input i).changeTaken = true) → exec (.registeredChange i) s = .next s)) ∧
  ∀ (s : State) (i : InputIx), s.path.inReset = false → (s.input i).changeDue = true →
    let c := s.input i
    let moved : ContactInput := { c with level := !c.level, stability := 0, changeDue := false }
    (c.mode = .off → exec (.registeredChange i) s = .next (s.modInput i (fun _ => moved))) ∧
    (((c.mode = .edge ∧ (c.level = true ∨ c.latch = true)) ∨
        (c.mode = .level ∧ ((c.level = false ∧ c.latch = true) ∨ (c.level = true ∧ ¬ (c.latch = true ∧ c.acked = true))))) →
      exec (.registeredChange i) s = .next ((s.modInput i (fun _ => moved)).plusNotice
        (.lineEvent i c.mode (if c.level then .released else .asserted) .reported (!c.level) c.latch c.acked s.time.block))) ∧
    (c.mode ≠ .off → c.level = false → c.latch = false → ∃ t : State, exec (.registeredChange i) s = .next t ∧
      ((s.modInput i (fun _ => { moved with latch := true, acked := false })).plusNotice
        (.lineEvent i c.mode .asserted .latched true true false s.time.block)).latchTaken t i true ∧
      t.input i = { moved with latch := true, acked := false } ∧
      t.arbiter.parts = s.arbiter.parts.set (contactSource i)
        (some { mask := c.mask, priority := c.priority, channel := c.channel, stamp := s.arbiter.counter }) ∧
      t.arbiter.counter = s.arbiter.counter + 1 ∧ t.arbiter.list = s.arbiter.list ++ [contactSource i] ∧
      (∀ z : ZoneIx, c.mask.getLsbD z.val = true → ((t.zone z).incident = true ↔ ((s.zone z).hostFlag = true ∨ c.incidentFlag = true ∨
        ∃ j, j ≠ i ∧ (s.input j).latch = true ∧ (s.input j).incidentFlag = true ∧ (s.input j).mask.getLsbD z.val = true))) ∧
      (∀ z : ZoneIx, c.mask.getLsbD z.val = false → t.zone z = s.zone z) ∧
      s.noticesBegin t [.lineEvent i c.mode .asserted .latched true true false s.time.block] ∧
      (∀ j, j ≠ i → t.input j = s.input j) ∧ t.time = s.time ∧ t.services = s.services ∧ t.groups = s.groups ∧
      t.combiner = s.combiner ∧ t.path = s.path ∧ t.orders = s.orders ∧ t.poster = s.poster) ∧
    (c.mode = .level → c.level = true → c.latch = true → c.acked = true → ∃ t : State, exec (.registeredChange i) s = .next t ∧
      ((s.modInput i (fun _ => { moved with latch := false, acked := false })).plusNotice
        (.lineEvent i .level .released .cleared false false false s.time.block)).latchTaken t i false ∧
      t.input i = { moved with latch := false, acked := false } ∧ t.arbiter.parts[contactSource i] = none ∧
      (∀ z : ZoneIx, c.mask.getLsbD z.val = true → ((t.zone z).incident = true ↔ ((s.zone z).hostFlag = true ∨
        ∃ j, j ≠ i ∧ (s.input j).latch = true ∧ (s.input j).incidentFlag = true ∧ (s.input j).mask.getLsbD z.val = true))) ∧
      s.noticesBegin t [.lineEvent i .level .released .cleared false false false s.time.block] ∧
      (∀ j, j ≠ i → t.input j = s.input j) ∧ t.time = s.time ∧ t.services = s.services ∧ t.groups = s.groups ∧
      t.combiner = s.combiner ∧ t.path = s.path ∧ t.orders = s.orders ∧ t.poster = s.poster)

/-! ## Plans -/

/-- R9, R20, R47 to R54, R62, R84 to R89, R92, R98 to R101, R143: the switch of a zone, step by step in `zoneSwitched` (the groups that
links leave and join re-evaluated, the deferred replan taken, the PLANs issued), and what comes of it: the staged plan becomes current; an
ACTIVE link stays if its SWITCH exchange stands accepted, with gate records for the services the plan adds, and else returns to JOINING; a
JOINING link whose exchange stands accepted enters ACTIVE with K at K*; another counts a miss where its PLAN was sent, the third faulting
it; PLAN_SWITCHED lists the links sent to JOINING; without a deferred replan every JOINING link is renewed on the new plan; other zones
and their links stand. Where the frames of the boundary have started, `governed` (last in `zoneSwitched`) says that the links whose state
changed are brought to it in their frames, their lanes and the block record, and that every other link's frame, lanes and part in the
record stand (log 20). A switch not due takes the next boundary if it is due there, and else does nothing (log 2, log 4). -/
def Obligations.PlanSwitchMakesStagedPlanCurrent : Prop :=
  (∀ (s : State) (z : ZoneIx) (p : StagedPlan), s.path.inReset = false → (s.zone z).staged = some p → p.n = s.time.superframe →
    let accepted (l : LinkIx) : Prop := ∃ x, (s.link l).exchange = some x ∧ x.purpose = .switch ∧ x.standing = .accepted
    let joins (l : LinkIx) : Prop := (s.link l).mgr.state = .joining ∧ ∃ x, (s.link l).exchange = some x ∧ x.standing = .accepted
    let leaves (l : LinkIx) : Prop := (s.link l).mgr.state = .active ∧ ¬ accepted l
    let renewed (t : State) (l : LinkIx) (attempts : Nat) : Prop :=
      s.joinRenewed t l p.planId (s.time.superframe + 3) p.entries attempts
    ∃ t : State, exec (.planSwitch z) s = .next t ∧ s.zoneSwitched t z p ∧
    (t.zone z).planId = p.planId ∧ (t.zone z).entries = p.entries ∧ (t.zone z).shed = p.shed ∧ (t.zone z).deferred = false ∧
    ((s.zone z).deferred = false → (t.zone z).staged = none) ∧
    (t.zone z).hostFlag = (s.zone z).hostFlag ∧ (t.zone z).incident = (s.zone z).incident ∧
    (t.zone z).crossfade = (s.zone z).crossfade ∧ (t.zone z).owner = (s.zone z).owner ∧
    (t.zone z).selection = (s.zone z).selection ∧
    (∀ l, (s.link l).settings.zone = z →
      ((s.link l).mgr.state = .active → accepted l →
        (t.link l).mgr.state = .active ∧ ((s.zone z).deferred = false → (t.link l).exchange = none) ∧
        ∀ v : ServiceIx, (t.link l).gates[v] = if v ∈ carriedOf p.entries ∧ (s.service v).ring.isSome = true then
          some ((s.link l).gates[v].getD { energy := 0, floor := 4294967295, isOpen := false, closeCount := 0 })
          else (s.link l).gates[v]) ∧
      (leaves l →
        (t.link l).mgr.state = .joining ∧ (t.link l).rx = none ∧ (t.link l).align.kStar = (s.link l).align.k ∧
        (t.link l).align.k = (s.link l).align.k ∧ (t.link l).align.slewing = false ∧ (t.link l).align.outOfReach = false ∧
        (∀ v : ServiceIx, (t.link l).gates[v] = none) ∧
        s.noticesInclude t (.linkState l .active .joining .planNotAccepted (Vector.replicate 4 false) none) ∧
        ((s.zone z).deferred = false → renewed t l 0)) ∧
      (joins l → ((s.zone z).deferred = false → (t.link l).exchange = none) ∧ s.enteredActive t l p.entries
        (∀ l', l < l' → (s.link l').settings.zone = z → (s.link l').settings.group = (s.link l).settings.group →
          ¬ joins l' ∧ ¬ leaves l')) ∧
      (∀ x, (s.link l).mgr.state = .joining → (s.link l).exchange = some x → x.standing ≠ .accepted →
        (s.planWasSent l x → 2 ≤ x.attempts → (t.link l).mgr.state = .fault ∧ (t.link l).exchange = none ∧
          s.noticesInclude t (.linkState l .joining .fault (.fault .planFail) (s.link l).mgr.wires none)) ∧
        (s.planWasSent l x → x.attempts < 2 → (s.zone z).deferred = false → renewed t l (x.attempts + 1)) ∧
        (¬ s.planWasSent l x → (s.zone z).deferred = false → renewed t l x.attempts))) ∧
    (∃ sent : List LinkIx, sent.Pairwise (· < ·) ∧ (∀ l, l ∈ sent ↔ ((s.link l).settings.zone = z ∧ leaves l)) ∧
      s.noticesInclude t (.planSwitched z p.planId p.entries p.shed sent)) ∧
    (∀ l, (s.link l).settings.zone ≠ z → (t.link l).mgr = (s.link l).mgr ∧ (t.link l).settings = (s.link l).settings ∧
      (t.link l).rng = (s.link l).rng ∧ (t.link l).exchange = (s.link l).exchange ∧ (t.link l).align.k = (s.link l).align.k) ∧
    (∀ z', z' ≠ z → t.zone z' = s.zone z') ∧ t.time = s.time ∧ t.services = s.services ∧ t.inputs = s.inputs ∧
    t.arbiter = s.arbiter ∧ t.combiner.workList = s.combiner.workList ∧ t.path = s.path ∧ t.orders = s.orders ∧ t.poster = s.poster) ∧
  (∀ (s : State) (z : ZoneIx), s.path.inReset = false →
    let due (u : State) : Prop := ∃ p, (u.zone z).staged = some p ∧ p.n = u.time.superframe
    ¬ due s →
    (s.time.blockOwed = false → due s.atBoundary → exec (.planSwitch z) s = exec (.planSwitch z) s.atBoundary) ∧
    ((s.time.blockOwed = true ∨ ¬ due s.atBoundary) → exec (.planSwitch z) s = .next s))

/-- R9, R20, R47, R49, R52, R54, R92, R94, R96, R102, R143: at the switch superframe of JOIN exchanges on current plans, link by link in
`joinsSettled` (the groups re-evaluated, the PLANs issued), and what comes of it: an accepted one takes its link to ACTIVE
with K at K*; an unanswered PLAN already sent counts an attempt, the third faulting the link; the others are renewed three superframes
on. Where the frames of the boundary have started, `governed` says what becomes of the changed links' frames, lanes and part in the block
record, and that every other link's stand (log 20). Where none is due the event takes the next boundary if one is due there, and else
does nothing (log 2, log 4, log 26). -/
def Obligations.JoinSwitchSettlesExchanges : Prop :=
  (∀ s : State, s.path.inReset = false → (∃ l, s.joinDue l = true) → ∃ t : State, exec .joinSwitchSuperframe s = .next t ∧
    s.joinsSettled t ∧
    (∀ (l : LinkIx) (x : Exchange), (s.link l).mgr.state = .joining → (s.zone (s.link l).settings.zone).staged = none →
      (s.link l).exchange = some x → x.purpose = .join → x.m = s.time.superframe →
      let z := (s.link l).settings.zone
      let joins (l' : LinkIx) : Prop := s.joinDue l' = true ∧ ∃ x', (s.link l').exchange = some x' ∧ x'.standing = .accepted
      let renewed (attempts : Nat) : Prop :=
        s.joinRenewed t l (s.zone z).planId (s.time.superframe + 3) (s.zone z).entries attempts
      (x.standing = .accepted → (t.link l).exchange = none ∧ s.enteredActive t l (s.zone z).entries
        (∀ l', l < l' → (s.link l').settings.group = (s.link l).settings.group → ¬ joins l')) ∧
      (x.standing ≠ .accepted → s.planWasSent l x → 2 ≤ x.attempts → (t.link l).mgr.state = .fault ∧
        (t.link l).exchange = none ∧
        s.noticesInclude t (.linkState l .joining .fault (.fault .planFail) (s.link l).mgr.wires none)) ∧
      (x.standing ≠ .accepted → s.planWasSent l x → x.attempts < 2 → renewed (x.attempts + 1)) ∧
      (x.standing ≠ .accepted → ¬ s.planWasSent l x → renewed x.attempts)) ∧
    (∀ l, s.joinDue l = true ↔ ((s.link l).mgr.state = .joining ∧ (s.zone (s.link l).settings.zone).staged = none ∧
      ∃ x, (s.link l).exchange = some x ∧ x.purpose = .join ∧ x.m = s.time.superframe)) ∧
    (∀ l, s.joinDue l = false → (t.link l).mgr = (s.link l).mgr ∧ (t.link l).settings = (s.link l).settings ∧
      (t.link l).rng = (s.link l).rng ∧ (t.link l).exchange = (s.link l).exchange ∧ (t.link l).align.k = (s.link l).align.k) ∧
    t.zones = s.zones ∧ t.time = s.time ∧ t.services = s.services ∧ t.inputs = s.inputs ∧ t.arbiter = s.arbiter ∧
    t.combiner.workList = s.combiner.workList ∧ t.path = s.path ∧ t.orders = s.orders ∧ t.poster = s.poster) ∧
  (∀ s : State, s.path.inReset = false → (∀ l, s.joinDue l = false) →
    (s.time.blockOwed = false → (∃ l, s.atBoundary.joinDue l = true) →
      exec .joinSwitchSuperframe s = exec .joinSwitchSuperframe s.atBoundary) ∧
    ((s.time.blockOwed = true ∨ ∀ l, s.atBoundary.joinDue l = false) → exec .joinSwitchSuperframe s = .next s))

/-! ## Boundaries -/

/-- 00_scope.md, The distribution timebase; R18, R137 to R149: the counters at a block boundary; the boundary's superframe work stays
owed where one falls (log 2). A boundary begins, where nothing of the last is left to be taken, by the counters and by every transmit
queue leaving in its frame, and by nothing else. Then the combine point: block b - 2 of each service to be combined, its gate records by
R144 to R146, its sum by R147, appended or dropped by R149, the other services' accounts as they stood (that a dropped
block is not counted PARTIAL is the model's reading, log 31); gate records of services in
neither plan discarded (log 25), the received histories moved on. -/
def Obligations.BlockBoundaryAdvancesTimebase : Prop :=
  ∀ (s : State) (levels : BitVec 4), s.path.inReset = false →
  (s.time.blockOwed = false → ∃ t : State,
    exec (.blockBoundary levels) s = .next t ∧ t.time.block = s.time.block + 1 ∧
    t.time.index = (if s.time.index = 9 then 0 else s.time.index + 1) ∧
    t.time.superframe = (if s.time.index = 9 then s.time.superframe + 1 else s.time.superframe) ∧
    t.time.blockOwed = false ∧ t.time.superframeOwed = (s.time.index == 9) ∧
    t.orders = s.orders ∧ t.path.queue = s.path.queue ∧ t.path.access = s.path.access ∧ t.path.port = s.path.port ∧
    t.pending = s.pending) ∧
  let b := s.atBoundary
  exec (.blockBoundary levels) s = exec (.blockBoundary levels) b ∧
  (s.time.blockOwed = true → b = s) ∧
  (s.time.blockOwed = false → ∀ l, (b.link l).mgr.txQueue = [] ∧ (b.link l).mgr.leaving = (s.settle.link l).mgr.txQueue) ∧
  (s.time.blockOwed = false → s.quiet →
    (∀ l, b.link l = { s.link l with mgr := { (s.link l).mgr with leaving := (s.link l).mgr.txQueue, txQueue := [] } }) ∧
    b = { s with
      links := b.links
      time := { block := s.time.block + 1, superframe := if s.time.index = 9 then s.time.superframe + 1 else s.time.superframe
                index := if s.time.index = 9 then 0 else s.time.index + 1, blockOwed := true
                superframeOwed := s.time.index == 9 } }) ∧
  ∃ t : State, exec (.blockBoundary levels) s = .next t ∧
  (∀ l, (t.link l).rx = (b.link l).rx.map (fun h =>
    { oldest := h.middle, middle := h.newest, newest := { samples := [], taken := false, valid := false } })) ∧
  (∀ r, b.combiner.prev = some r → (∀ l : LinkIx, r.applied[l] ≤ 16383) →
    (∀ v, b.combines r v → 1 ≤ (b.service v).width ∧ ∀ c, r.expects v c → c.2 + (b.service v).width ≤ 32) →
    (∀ v, b.combines r v → ∃ expected present opened : List (LinkIx × Nat),
      (expected.Pairwise (fun c d => c.1 < d.1) ∧ ∀ c, c ∈ expected ↔ r.expects v c) ∧
      (present.Pairwise (fun c d => c.1 < d.1) ∧ ∀ c, c ∈ present ↔ r.expects v c ∧ b.contributes v c.1) ∧
      (opened.Pairwise (fun c d => c.1 < d.1) ∧
        ∀ c, c ∈ opened ↔ r.expects v c ∧ b.contributes v c.1 ∧ b.countsOpen r v c) ∧
      ((∀ y, y ∈ b.combiner.workList → y.service ≠ v) → ∃ x, x ∈ t.combiner.workList ∧
        b.combinesTo r v (b.time.block - 2) expected present opened x ∧
        (t.service v).droppedBefore = 0 ∧ (t.service v).lastAppended = some (b.time.block - 2) ∧
        (t.service v).sums = { (b.service v).sums with
          appended := bump16 (b.service v).sums.appended
          clips := bumpBy16 (b.service v).sums.clips x.header.clips
          partials := if present.length < expected.length then bump16 (b.service v).sums.partials else (b.service v).sums.partials })) ∧
    (∀ v, b.combines r v → (∃ y, y ∈ b.combiner.workList ∧ y.service = v) →
      (t.service v).droppedBefore = bump16 (b.service v).droppedBefore ∧ (t.service v).lastAppended = (b.service v).lastAppended ∧
      (t.service v).sums = { (b.service v).sums with dropped := bump16 (b.service v).sums.dropped }) ∧
    (∀ v, ¬ b.combines r v → (t.service v).droppedBefore = (b.service v).droppedBefore ∧
      (t.service v).lastAppended = (b.service v).lastAppended ∧ (t.service v).sums = (b.service v).sums) ∧
    (∃ added, t.combiner.workList = b.combiner.workList ++ added ∧ added.Pairwise (fun x y => x.service < y.service) ∧
      ∀ v, (∃ x, x ∈ added ∧ x.service = v) ↔ (b.combines r v ∧ ∀ y, y ∈ b.combiner.workList → y.service ≠ v)) ∧
    (∀ (l : LinkIx) (v : ServiceIx), (∀ n, b.combiner.now = some n →
        v ∈ carriedOf n.plans[(b.link l).settings.zone] ∨ v ∈ carriedOf (b.planInForce (b.link l).settings.zone)) →
      (∀ f g, b.combines r v → r.expects v (l, f) → b.contributes v l → (b.link l).gates[v] = some g →
        (t.link l).gates[v] = some (g.after (b.inputEnergy r (l, f) (b.service v).width) (b.link l).settings.gateHold)) ∧
      ((¬ b.combines r v ∨ (∀ f, ¬ r.expects v (l, f)) ∨ ¬ b.contributes v l) → (t.link l).gates[v] = (b.link l).gates[v]))) ∧
  (b.combiner.prev = none → t.combiner.workList = b.combiner.workList ∧
    ∀ v, (t.service v).droppedBefore = (b.service v).droppedBefore ∧ (t.service v).lastAppended = (b.service v).lastAppended ∧
      (t.service v).sums = (b.service v).sums) ∧
  (∀ (l : LinkIx) (v : ServiceIx) (n : BlockRecord), b.combiner.now = some n →
    v ∉ carriedOf n.plans[(b.link l).settings.zone] → v ∉ carriedOf (b.planInForce (b.link l).settings.zone) →
    (t.link l).gates[v] = none)

/-- R3, R5 to R7, R10, R18, R21, R29, R55, R58, R59, R112, R137: the frames a block boundary starts, with the waiting messages, their
deadlines, the slew step, the last samples each delay line keeps, the contact samples and the block record it takes. A boundary that
finds lock held in the detection phase of LISTEN leaves ATTACH due (`attachDue`, R5), and one that finds a QUIESCING link with nothing
outstanding and an empty pending queue leaves the end of QUIESCING due (`quiesceDue`, R10); every other boundary leaves neither due. That
these findings stand as notes until ATTACH and QUIESCING_END are given is the model's choice (log 2). A contact sample
comes with the command (log 28), and a registered change taken early stands for its own sample (log 2). -/
def Obligations.BlockBoundaryStartsFrames : Prop :=
  ∀ (s : State) (levels : BitVec 4), s.path.inReset = false →
    let b := s.atBoundary
    ∃ t : State,
    exec (.blockBoundary levels) s = .next t ∧ t.time = { b.time with blockOwed := false } ∧
    (∀ l : LinkIx, let x := b.link l
      let y := t.link l
      let slew := (b.group x.settings.group).slew
      let openStates : List LinkState := [.standby, .joining, .active, .quiescing]
      let counts (n : Nat) : Prop := x.mgr.state = .listen ∧ x.mgr.listenPhase = some .settle ∧ n = 100 ∨
        x.mgr.state = .attach ∧ x.mgr.attachPhase = some .debounce ∧ n = 98 ∨
        x.mgr.state = .attach ∧ x.mgr.attachPhase = some .helloWait ∧ n = 50
      let carries (messages : List DownMsg) : Frame := { messages := messages, carriesLanes := x.mgr.state == .active, k := y.align.k }
      let markFalls (r : RangingRun) (m : Fin 4) : Prop :=
        r.marksSent = m.val ∧ b.time.block = r.firstBlock + BitVec.ofNat 16 m.val
      (y.settings = x.settings ∧ y.exchange = x.exchange ∧ y.planSerial = x.planSerial ∧ y.rng = { x.rng with run := y.rng.run } ∧
        y.mgr = { x.mgr with
          phaseCount := y.mgr.phaseCount, outstanding := y.mgr.outstanding, frame := y.mgr.frame, leaving := [], markNext := none
          attachDue := y.mgr.attachDue, quiesceDue := y.mgr.quiesceDue }) ∧
      (y.mgr.attachDue = true ↔ x.mgr.state = .listen ∧ x.mgr.listenPhase = some .detect ∧ x.mgr.lock = true) ∧
      (y.mgr.quiesceDue = true ↔ x.mgr.state = .quiescing ∧ (∀ g : Tag, x.mgr.outstanding[g] = none) ∧ x.mgr.pendingQueue = []) ∧
      (∀ (g : Tag) (o : Outstanding) (q : Request), x.mgr.state ∈ openStates → .request g q ∈ x.mgr.leaving →
        x.mgr.outstanding[g] = some o → y.mgr.outstanding[g] = some { o with sentIn := some b.time.block }) ∧
      (∀ g : Tag, (x.mgr.state ∉ openStates ∨ (∀ q : Request, .request g q ∉ x.mgr.leaving) ∨ x.mgr.outstanding[g] = none) →
        y.mgr.outstanding[g] = x.mgr.outstanding[g]) ∧
      (∀ n, counts n → y.mgr.phaseCount = if x.mgr.phaseCount < n then x.mgr.phaseCount + 1 else x.mgr.phaseCount) ∧
      ((∀ n, ¬ counts n) → y.mgr.phaseCount = x.mgr.phaseCount) ∧
      (x.mgr.state ≠ .active → y.align = x.align) ∧
      (x.mgr.state = .active → y.align.kStar = x.align.kStar ∧ y.align.outOfReach = x.align.outOfReach ∧
        y.align.k = (if x.align.k < x.align.kStar then min x.align.kStar (x.align.k + slew)
          else max x.align.kStar (x.align.k - slew)) ∧
        y.align.slewing = (y.align.k != y.align.kStar)) ∧
      (x.mgr.state = .dark → y.mgr.frame = none) ∧
      (x.mgr.state ∈ ([.listen, .attach, .fault] : List LinkState) → y.mgr.frame = some (carries [])) ∧
      ((∀ r m, x.rng.run = some r → ¬ markFalls r m) → y.rng = x.rng ∧
        (x.mgr.state ∈ openStates → y.mgr.frame = some (carries (x.mgr.markNext.toList ++ x.mgr.leaving)))) ∧
      (∀ (r : RangingRun) (m : Fin 4), x.rng.run = some r → markFalls r m → x.mgr.state ∈ openStates →
        y.rng.run = some { r with marksSent := m.val + 1 } ∧
        y.mgr.frame = some (carries (.mark r.runId (.run m) :: (x.mgr.markNext.toList ++ x.mgr.leaving)))) ∧
      (∀ lane j, lane < 32 → j < 1600 →
        sampleAt y.line.before (32 * j + lane) = if 1395 ≤ j then sampleAt x.line.now (32 * j + lane) else 0)) ∧
    (∀ i : InputIx, (b.input i).changeTaken = true → t.input i = { b.input i with changeTaken := false }) ∧
    (∀ i : InputIx, (b.input i).changeTaken = false → (b.input i).stability ≤ 7 → t.input i = { b.input i with
      stability := if levels.getLsbD i.val = (b.input i).level then 0 else min 7 ((b.input i).stability + 1)
      changeDue := (b.input i).changeDue || decide (levels.getLsbD i.val ≠ (b.input i).level ∧ (b.input i).stability = 7) }) ∧
    t.combiner.prev = b.combiner.now ∧
    (∃ r, t.combiner.now = some r ∧
      (∀ z : ZoneIx, r.plans[z] = b.planInForce z ∧ r.incident[z] = (b.zone z).incident) ∧
      (∀ l : LinkIx, r.applied[l] = (t.link l).align.k ∧
        r.launched[l] = if (b.link l).mgr.state = .active then some (b.link l).settings.zone else none) ∧
      ∀ v : ServiceIx, r.enabled[v] = decide ((b.service v).state = .enabled)) ∧
    t.groups = b.groups ∧ t.arbiter = b.arbiter ∧ t.notices = b.notices ∧ t.path = b.path ∧ t.orders = b.orders ∧
    t.poster = b.poster ∧ t.pending = s.pending

/-- R58, R59, R71, R77, R78, R81, R82, R131 to R133: the launch of block b at the boundary that begins it: the launch slot takes b+1's
words or zeros, the open slots move on, and the underrun and STARVED accounts follow; the selection made from it; the lanes each ACTIVE
link enters for its zone's plan, crossfaded where the selection changed; and the delayed samples its frame carries. The stream a block is
crossfaded from is noted in the zone record (`fadeFrom`, the model's own note, log 20). -/
def Obligations.BlockBoundaryLaunchesStreams : Prop :=
  ∀ (s : State) (levels : BitVec 4), s.path.inReset = false →
    let b := s.atBoundary
    ∃ t : State,
    exec (.blockBoundary levels) s = .next t ∧
    (∀ (v : ServiceIx) (n : StreamName) (r : StreamRec), (b.service v).state = .enabled → (b.service v).streams.get n = some r →
      ∃ r' : StreamRec, (t.service v).streams.get n = some r' ∧ r'.open1 = r.open2 ∧
      r'.open2 = { seq := b.time.block + 2, committed := false, words := [] } ∧
      (r.open1.committed = true → r'.launch = some r.open1 ∧ r'.increments = r.increments ∧
        (t.service v).totals.get n = (b.service v).totals.get n ∧
        (n ≠ .normal → r'.starved = false ∧ r'.underrunRun = 0 ∧ r'.starvedCleared = (r.starvedCleared || r.starved))) ∧
      (r.open1.committed = false → r'.launch = some { r.open1 with words := [] } ∧
        ((n = .normal ∨ r.starved = false) → ((b.service v).totals.get n).underrun < 65535 →
          r'.increments = { r.increments with underrun := bump16 r.increments.underrun } ∧
          (t.service v).totals.get n = { (b.service v).totals.get n with underrun := ((b.service v).totals.get n).underrun + 1 }) ∧
        (((n ≠ .normal ∧ r.starved = true) ∨ 65535 ≤ ((b.service v).totals.get n).underrun) → r'.increments = r.increments ∧
          (t.service v).totals.get n = (b.service v).totals.get n) ∧
        (n ≠ .normal → r.starved = true → r'.starved = true) ∧
        (n ≠ .normal → r.starved = false → r.underrunRun < 2 → r'.starved = false ∧ r'.underrunRun = r.underrunRun + 1 ∧
          r'.starvedSet = r.starvedSet) ∧
        (n ≠ .normal → r.starved = false → r.underrunRun = 2 → r'.starved = true ∧ r'.underrunRun = 0 ∧ r'.starvedSet = true))) ∧
    (∀ v, (b.service v).state ≠ .enabled → (t.service v).streams = (b.service v).streams ∧
      (t.service v).totals = (b.service v).totals) ∧
    (∀ v, t.service v = { b.service v with
      streams := (t.service v).streams, totals := (t.service v).totals, lastAppended := (t.service v).lastAppended
      droppedBefore := (t.service v).droppedBefore, sums := (t.service v).sums }) ∧
    (∀ z, t.zone z = { b.zone z with selection := (t.zone z).selection, fadeFrom := (t.zone z).fadeFrom }) ∧
    (∀ (z : ZoneIx) (plan : List Entry), b.putsInForce z plan →
      let launched (v : ServiceIx) (n : StreamName) (x : Slot) : Prop :=
        ∃ r', (t.service v).streams.get n = some r' ∧ r'.launch = some x
      let breakIn (v : ServiceIx) (c : Channel) : Prop := (b.service v).kind = .broadcast ∧
        (∃ y q, (b.zone z).owner = some y ∧ b.arbiter.parts[y] = some q ∧ q.channel = c) ∧
        ∃ r', (t.service v).streams.get (if c = .a then .a else .b) = some r' ∧ r'.starved = false
      (∀ v : ServiceIx,
        ((v ∉ carriedOf plan ∨ (b.service v).state ≠ .enabled) → (t.zone z).selection[v] = none) ∧
        (v ∈ carriedOf plan → (b.service v).state = .enabled →
          (∀ c, breakIn v c → (t.zone z).selection[v] = some (if c = .a then .a else .b)) ∧
          ((∀ c, ¬ breakIn v c) → (t.zone z).selection[v] = some .normal))) ∧
      (∀ v : ServiceIx,
        let fades (old new : StreamName) : Prop := (b.zone z).selection[v] = some old ∧ (t.zone z).selection[v] = some new ∧
          old ≠ new ∧ (b.zone z).crossfade = true ∧ (∃ x, launched v old x ∧ x.committed = true) ∧
          ∃ x, launched v new x ∧ x.committed = true
        (∀ old new, fades old new → (t.zone z).fadeFrom[v] = some old) ∧
        ((∀ old new, ¬ fades old new) → (t.zone z).fadeFrom[v] = none)) ∧
      (∀ l, (b.link l).mgr.state = .active → (b.link l).settings.zone = z → t.buildsLanes z plan (t.link l).line.now) ∧
      (∀ l, (b.link l).mgr.state = .active → (b.link l).settings.zone = z → planFits 0 plan → (∀ e, e ∈ plan → 1 ≤ e.width) →
        (∀ (e : Entry) (j i : Nat), e ∈ plan → j < 1600 → i < e.width →
          let out := sampleAt (t.link l).line.now (32 * j + e.first + i)
          ((t.zone z).selection[e.service] = none → out = 0) ∧
          (∀ (new : StreamName) (x : Slot), (t.zone z).selection[e.service] = some new → launched e.service new x →
            ((∀ (old : StreamName) (x' : Slot), (b.zone z).selection[e.service] = some old → launched e.service old x' →
                old = new ∨ (b.zone z).crossfade = false ∨ x'.committed = false ∨ x.committed = false) →
              ((b.zone z).selection[e.service] = none ∨
                ∃ old x', (b.zone z).selection[e.service] = some old ∧ launched e.service old x') →
              out = sampleAt x.words (j * e.width + i)) ∧
            (∀ (old : StreamName) (x' : Slot), (b.zone z).selection[e.service] = some old → launched e.service old x' → old ≠ new →
              (b.zone z).crossfade = true → x'.committed = true → x.committed = true →
              (∀ component, component ∈ ([sampleI, sampleQ] : List (Word → Int)) → component out =
                (component (sampleAt x'.words (j * e.width + i)) * (1600 - (j : Int)) +
                  component (sampleAt x.words (j * e.width + i)) * (j : Int) + 800) / 1600)))) ∧
        (∀ lane j, lane < 32 → j < 1600 → (∀ e, e ∈ plan → lane < e.first ∨ e.first + e.width ≤ lane) →
          sampleAt (t.link l).line.now (32 * j + lane) = 0))) ∧
    (∀ l, (b.link l).mgr.state ≠ .active → ∀ n, sampleAt (t.link l).line.now n = 0) ∧
    (∀ l lane j, lane < 32 → j < 1600 →
      ((b.link l).mgr.state = .dark → (t.link l).downlinkSample lane j = none) ∧
      ((b.link l).mgr.state ≠ .dark → (b.link l).mgr.state ≠ .active → (t.link l).downlinkSample lane j = some 0) ∧
      ((b.link l).mgr.state = .active → ∃ w, (t.link l).downlinkSample lane j = some w ∧
        ∀ component, component ∈ ([sampleI, sampleQ] : List (Word → Int)) → component w =
          delayedComponent component (t.link l).line.before (t.link l).line.now (t.link l).align.k lane j))

/-- R41, R51, R80, R151, R158, R167, R177: the work of a superframe boundary, begun already or begun by this event: every hold counts,
unless HOLD_EXPIRY has taken that count (log 2), and tracking counts advance, but for a link that entered ACTIVE there or whose
TRACKING_MARK has taken that count (`skipCount`, log 2); a STREAM notice for each disabled report and each enabled
service with news, an UPLINK for each service with drops, clips or a disable, an OWNED_WRITE where any count is above 0, in that order
(log 19) and each kind in ascending service index (log 46), and what they report is cleared, every service's sums too (log 32); the page
in progress is abandoned and counted, and the snapshot taken. Of the page's words, what fills an absent field (log 35), the identity in
link words 4 and 5 (log 36), masks that have a word to themselves (log 41), the break-in channels (log 44), two-valued fields (log 45), the
position in the activation list (log 47) and the alarm wires as a mask (log 48) are the model's choices; their bits are free (log 8). Where
no superframe boundary falls nothing happens (log 4). -/
def Obligations.SuperframeBoundaryReportsAndSnapshots : Prop :=
  ∀ s : State, s.path.inReset = false →
  (s.time.superframeOwed = true ∨ (s.time.blockOwed = false ∧ s.time.index = 9) →
    let b := if s.time.superframeOwed then s else s.beginBoundary
    let zero : Counters := ⟨0, 0, 0, 0, 0, 0⟩
    let news (x : Service) : Bool := ([.normal, .a, .b] : List StreamName).any (fun n => match x.streams.get n with
      | some r => r.increments != zero || r.starvedSet || r.starvedCleared
      | none => false)
    let account (x : Service) (n : StreamName) : Option StreamReport := (x.streams.get n).map (fun r =>
      { increments := r.increments, totals := x.totals.get n, starved := r.starved, starvedSet := r.starvedSet
        starvedCleared := r.starvedCleared })
    let streamNotices (v : ServiceIx) : List Notice :=
      (match (b.service v).report with
        | some r => [.stream v true r]
        | none => []) ++
      (if (b.service v).state = .enabled ∧ news (b.service v) = true then
        [.stream v false ⟨account (b.service v) .normal, account (b.service v) .a, account (b.service v) .b⟩] else [])
    let uplinkNotices (v : ServiceIx) : List Notice :=
      if (b.service v).sums.dropped ≠ 0 ∨ (b.service v).sums.clips ≠ 0 ∨ (b.service v).sums.disabled = true then
        [.uplink v (b.service v).sums] else []
    let rings := allServices.filterMap (fun v => if b.path.ownedUplink[v] = 0 then none else some (v, b.path.ownedUplink[v]))
    let none_ := b.path.ownedPage = 0 ∧ b.path.ownedRing = 0 ∧ ∀ v : ServiceIx, b.path.ownedUplink[v] = 0
    ∃ (t : State) (owned : List Notice),
    exec .superframeBoundary s = .next t ∧
    t.time = { b.time with superframeOwed := false } ∧
    (s.time.superframeOwed = false → t.time =
      { block := s.time.block + 1, superframe := s.time.superframe + 1, index := 0, blockOwed := true, superframeOwed := false }) ∧
    (∀ g, t.group g = if (b.group g).counted = true then { b.group g with counted := false } else
      { b.group g with hold := (b.group g).hold.map (fun h => { h with count := if h.count < 100 then h.count + 1 else h.count }) }) ∧
    (∀ l, (t.link l).mgr = (b.link l).mgr ∧ (t.link l).align = (b.link l).align ∧ (t.link l).settings = (b.link l).settings ∧
      (t.link l).exchange = (b.link l).exchange ∧ (t.link l).rx = (b.link l).rx ∧ (t.link l).gates = (b.link l).gates ∧
      (t.link l).line = (b.link l).line ∧
      ((b.link l).mgr.state = .active → (b.link l).rng.run = none → (b.link l).rng.skipCount = false → (t.link l).rng =
        { (b.link l).rng with trackCount := if (b.link l).rng.trackCount < 16 then (b.link l).rng.trackCount + 1
            else (b.link l).rng.trackCount }) ∧
      (((b.link l).mgr.state ≠ .active ∨ (b.link l).rng.run.isSome = true ∨ (b.link l).rng.skipCount = true) →
        (t.link l).rng = { (b.link l).rng with skipCount := false })) ∧
    (none_ → owned = []) ∧
    (¬ none_ → owned = [.ownedWrite b.path.ownedPage b.path.ownedRing rings b.path.firstOwned]) ∧
    t.notices = ((allServices.map streamNotices).flatten ++ (allServices.map uplinkNotices).flatten ++ owned).foldl
      (fun u n => u.generate n) b.notices ∧
    (∀ v, (t.service v).state = (b.service v).state ∧ (t.service v).totals = (b.service v).totals ∧ (t.service v).report = none ∧
      (t.service v).droppedBefore = (b.service v).droppedBefore ∧ (t.service v).lastAppended = (b.service v).lastAppended ∧
      (t.service v).sums = { appended := 0, dropped := 0, clips := 0, partials := 0, disabled := false } ∧
      ((b.service v).state ≠ .enabled → (t.service v).streams = (b.service v).streams) ∧
      (∀ n r, (b.service v).state = .enabled → (b.service v).streams.get n = some r → (t.service v).streams.get n = some
        { r with increments := zero, starvedSet := false, starvedCleared := false })) ∧
    (∃ page, t.poster.page = some page ∧ page.handed = 0 ∧ t.pageShows b.path.largest page) ∧
    t.poster.pagesCut = (if s.poster.page.isSome then s.poster.pagesCut + 1 else s.poster.pagesCut) ∧
    t.path = { b.path with ownedPage := 0, ownedRing := 0, ownedUplink := Vector.replicate 24 0
                           firstOwned := if none_ then b.path.firstOwned else none
                           largest := b.path.queue.length } ∧
    t.zones = b.zones ∧ t.inputs = b.inputs ∧ t.arbiter = b.arbiter ∧ t.combiner = b.combiner ∧ t.orders = s.orders ∧
    t.pending = s.pending) ∧
  (s.time.superframeOwed = false → (s.time.blockOwed = true ∨ s.time.index ≠ 9) → exec .superframeBoundary s = .next s)

/-! ## Host accesses -/

/-- R154, R155, R156, R160, R162: a host access is classified word by word, its tapped words reach their units, it stands in the part, and
the memory port is granted by R160's table. A write with no owned word goes on whole; where the path is idle it, a read, and a read of
the flush word (R163) are granted at once. The rows that name a write by its place are that write. An access while another is in the part
(log 7), and one of 0 or more than 8 words (log 15), are the model's own account, and so is that a read's words stand with byte enables 0
(log 52). -/
def Obligations.HostAccessesAreGranted : Prop :=
  (∀ s : State, s.pathIdle →
    (∀ (a : BitVec 28) (ws : List BusWord), 1 ≤ ws.length → ws.length ≤ 8 →
      (∀ i, i < ws.length → s.placeOf (a + BitVec.ofNat 28 i) ∈ ([.flushWord, .windowRest, .elsewhere] : List Place)) →
      exec (.hostWrite a ws) s = .next (s.withAccess true (s.writeWords a ws))) ∧
    (∀ (a : BitVec 28) (n : Nat), 1 ≤ n → n ≤ 8 → exec (.hostRead a n) s = .next (s.withAccess false (s.readWords a n))) ∧
    exec .flushWordRead s = .next (s.withAccess false (s.readWords (s.windowWord 0x408) 1))) ∧
  (∀ (s : State) (a : BitVec 28) (ws : List BusWord), s.path.inReset = false → s.path.access = none → 1 ≤ ws.length → ws.length ≤ 8 →
    (∀ i, i < ws.length → ∀ v, s.placeOf (a + BitVec.ofNat 28 i) ∉ ([.statusPage, .noticeRing, .ring v] : List Place)) →
    let words := s.writeWords a ws
    let u := words.foldl State.tapWord s
    ∀ x, u.stands (words.map (fun w => w.addr)) x → exec (.hostWrite a ws) s = .next (u.withArrival true words x)) ∧
  (∀ (s : State) (a : BitVec 28) (ws : List BusWord) (n i : Nat),
    (s.writeWords a ws)[i]? = (ws[i]?).map (fun w =>
      { addr := a + BitVec.ofNat 28 i, place := s.placeOf (a + BitVec.ofNat 28 i), data := w.data, enables := w.enables }) ∧
    (s.readWords a n)[i]? = if i < n then some
      { addr := a + BitVec.ofNat 28 i, place := s.placeOf (a + BitVec.ofNat 28 i), data := 0, enables := 0 } else none) ∧
  (∀ (s : State) (off : Nat), s.windowAligned → off < 65536 → off % 4 = 0 → s.placeOf (s.windowWord off) =
    if off < 0x400 then .orderRing else if off = 0x400 then .producerIndex else if off = 0x404 then .consumerIndex
    else if off = 0x408 then .flushWord else if 0x1000 ≤ off ∧ off < 0x1800 then .statusPage
    else if 0x2000 ≤ off ∧ off < 0x2800 then .noticeRing else .windowRest) ∧
  (∀ (s : State) (a : BitVec 28), (4 * a.toNat < s.path.windowBase ∨ s.path.windowBase + 65536 ≤ 4 * a.toNat) →
    let inside (v : ServiceIx) (x : Option Area) : Prop := (s.service v).state = .enabled ∧ ∃ ar, x = some ar ∧
      ar.base ≤ 4 * a.toNat ∧ 4 * a.toNat < ar.base + ar.blocks * (32 + 6400 * (s.service v).width)
    (∀ v n, s.placeOf a = .stream v n → inside v ((s.service v).areas.get n)) ∧
    (∀ v, s.placeOf a = .ring v → inside v (s.service v).ring) ∧
    ((∃ v, (∃ n, inside v ((s.service v).areas.get n)) ∨ inside v (s.service v).ring) →
      ∃ v, (∃ n, s.placeOf a = .stream v n) ∨ s.placeOf a = .ring v) ∧
    ((∀ v, (∀ n, ¬ inside v ((s.service v).areas.get n)) ∧ ¬ inside v (s.service v).ring) → s.placeOf a = .elsewhere)) ∧
  (∀ m : MemPath,
    let waiting := ∃ a, m.access = some a ∧ a.standing = .waiting
    (m.port ≠ .idle → m.arbitrate = m) ∧
    (m.port = .idle → ¬ waiting → m.queue = [] → m.arbitrate = m) ∧
    (∀ a, m.port = .idle → m.access = some a → a.standing = .waiting → (m.queue = [] ∨ m.pressure = false) →
      m.arbitrate = { m with port := .host, access := some { a with standing := .inMemory } }) ∧
    (m.port = .idle → m.queue ≠ [] → (¬ waiting ∨ m.pressure = true) → m.arbitrate = { m with port := .posting })) ∧
  (∀ (s : State) (a : BitVec 28) (w : BusWord) (ws : List BusWord) (slot : Fin 32) (word : Fin 8),
    exec (.orderSlotWrite slot word ws) s = exec (.hostWrite (s.windowWord (32 * slot.val + 4 * word.val)) ws) s ∧
    exec (.orderProducerIndexWrite w) s = exec (.hostWrite (s.windowWord 0x400) [w]) s ∧
    exec (.noticeConsumerIndexWrite w) s = exec (.hostWrite (s.windowWord 0x404) [w]) s ∧
    exec .flushWordRead s = exec (.hostRead (s.windowWord 0x408) 1) s ∧
    exec (.commitWordWrite a ws) s = exec (.hostWrite a ws) s ∧ exec (.streamSampleWrite a ws) s = exec (.hostWrite a ws) s ∧
    exec (.ownedAreaWrite a ws) s = exec (.hostWrite a ws) s ∧
    (s.path.access.isSome = true → 1 ≤ ws.length → ws.length ≤ 8 → exec (.hostWrite a ws) s = .next s) ∧
    ((ws = [] ∨ 8 < ws.length) → exec (.hostWrite a ws) s = .refused .malformedAccess) ∧
    (∀ n : Nat, (s.path.access.isSome = true → 1 ≤ n → n ≤ 8 → exec (.hostRead a n) s = .next s) ∧
      ((n = 0 ∨ 8 < n) → exec (.hostRead a n) s = .refused .malformedAccess)))

/-- R162, R163: a read of a word that a queued posting writes is HELD behind the youngest such posting; a read of the flush word is HELD
behind the youngest posting of all; every other read is WAITING. That a read's words stand with byte enables 0 is the model's choice
(log 52). -/
def Obligations.ReadsAreHeldBehindPostings : Prop :=
  ∀ s : State, s.path.inReset = false → s.path.access = none →
    let arrived (words : List AccessWord) (standing : AccessStanding) : State := { s with path := ({ s.path with
      access := some { isWrite := false, passThrough := false, words := words, standing := standing } } : MemPath).arbitrate }
    let shares (p : Posting) (a : BitVec 28) (n : Nat) : Prop :=
      ∃ i j, i < n ∧ j < p.words.length ∧ a + BitVec.ofNat 28 i = BitVec.ofNat 28 (p.addr / 4) + BitVec.ofNat 28 j
    (∀ (a : BitVec 28) (n k : Nat) (p : Posting), 1 ≤ n → n ≤ 8 →
      (∀ i, i < n → s.placeOf (a + BitVec.ofNat 28 i) ≠ .flushWord) → s.path.queue[k]? = some p → shares p a n →
      (∀ j q, k < j → s.path.queue[j]? = some q → ¬ shares q a n) →
      exec (.hostRead a n) s = .next (arrived (s.readWords a n) (.held k))) ∧
    (∀ (a : BitVec 28) (n : Nat), 1 ≤ n → n ≤ 8 → (∀ i, i < n → s.placeOf (a + BitVec.ofNat 28 i) ≠ .flushWord) →
      (∀ q, q ∈ s.path.queue → ¬ shares q a n) → exec (.hostRead a n) s = .next (arrived (s.readWords a n) .waiting)) ∧
    (s.windowAligned → s.path.queue ≠ [] →
      exec .flushWordRead s = .next (arrived [{ addr := s.windowWord 0x408, place := .flushWord, data := 0, enables := 0 }]
        (.held (s.path.queue.length - 1))))

/-- R157, R162: a write wholly inside one owned area counts once, is noted first if none was, and stands nowhere; one that reaches outside
goes to memory with the enables of its owned words cleared: its tapped words reach their units, it counts at the place of its first owned
word, and it stands in the part by the words left of it (log 39). -/
def Obligations.OwnedWritesAreWithheld : Prop :=
  ∀ (s : State) (a : BitVec 28) (ws : List BusWord), s.path.inReset = false → s.path.access = none → 1 ≤ ws.length → ws.length ≤ 8 →
    let first : Option Nat := some (s.path.firstOwned.getD (4 * a.toNat))
    ((∀ i, i < ws.length → s.placeOf (a + BitVec.ofNat 28 i) = .statusPage) → exec (.ownedAreaWrite a ws) s = .next { s with
      path := ({ s.path with ownedPage := bump16 s.path.ownedPage, firstOwned := first } : MemPath).arbitrate }) ∧
    ((∀ i, i < ws.length → s.placeOf (a + BitVec.ofNat 28 i) = .noticeRing) → exec (.ownedAreaWrite a ws) s = .next { s with
      path := ({ s.path with ownedRing := bump16 s.path.ownedRing, firstOwned := first } : MemPath).arbitrate }) ∧
    (∀ v : ServiceIx, (∀ i, i < ws.length → s.placeOf (a + BitVec.ofNat 28 i) = .ring v) → exec (.ownedAreaWrite a ws) s = .next { s with
      path := ({ s.path with
        ownedUplink := s.path.ownedUplink.set v (bump16 s.path.ownedUplink[v]), firstOwned := first } : MemPath).arbitrate }) ∧
    (∀ k, s.path.queue = [] → s.path.port = .idle → k < ws.length → 0 < k →
      (∀ i, i < k → s.placeOf (a + BitVec.ofNat 28 i) = .noticeRing) →
      (∀ i, k ≤ i → i < ws.length → s.placeOf (a + BitVec.ofNat 28 i) ∈ ([.windowRest, .elsewhere] : List Place)) →
      exec (.ownedAreaWrite a ws) s = .next
        ((s.modPath (fun m => { m with ownedRing := bump16 m.ownedRing, firstOwned := first })).withAccess true
          (((s.writeWords a ws).take k).map (fun x => { x with enables := 0 }) ++ (s.writeWords a ws).drop k))) ∧
    (∀ k : Nat,
      let at_ (i : Nat) : BitVec 28 := a + BitVec.ofNat 28 i
      let own (i : Nat) : Prop := ∃ v, s.placeOf (at_ i) ∈ ([.statusPage, .noticeRing, .ring v] : List Place)
      k < ws.length → own k → (∀ i, i < k → ¬ own i) → (∃ i, i < ws.length ∧ ¬ own i) →
      let u := (s.writeWords a ws).foldl State.tapWord s
      ∀ (t : State) (words left : List AccessWord) (x : AccessStanding),
        (s.placeOf (at_ k) = .statusPage → t = u.modPath (fun m => { m with
          ownedPage := bump16 m.ownedPage, firstOwned := some (m.firstOwned.getD (4 * (at_ k).toNat)) })) →
        (s.placeOf (at_ k) = .noticeRing → t = u.modPath (fun m => { m with
          ownedRing := bump16 m.ownedRing, firstOwned := some (m.firstOwned.getD (4 * (at_ k).toNat)) })) →
        (∀ v : ServiceIx, s.placeOf (at_ k) = .ring v → t = u.modPath (fun m => { m with
          ownedUplink := m.ownedUplink.set v (bump16 m.ownedUplink[v])
          firstOwned := some (m.firstOwned.getD (4 * (at_ k).toNat)) })) →
        words.length = ws.length →
        (∀ i w, (s.writeWords a ws)[i]? = some w →
          (own i → words[i]? = some { w with enables := 0 }) ∧ (¬ own i → words[i]? = some w)) →
        (∀ w, w ∈ left ↔ ∃ i, (s.writeWords a ws)[i]? = some w ∧ ¬ own i) →
        t.stands (left.map (fun w => w.addr)) x → exec (.ownedAreaWrite a ws) s = .next (t.withArrival true words x))

/-- R72, R73, R75: a sample word written to an open slot is captured under its byte enables, in the nearer slot where both have its block
index and the nearer is not committed, else in the further; written to a committed slot it is a late write; written to a block of neither
slot, or to words 1 to 7 of a block, it changes nothing in the part. All of them go on to memory, held behind what they overlap (R162). -/
def Obligations.SampleWritesAreCaptured : Prop :=
  (∀ (old data : Word) (enables : BitVec 4) (i : Nat), i < 32 → (mergeBytes old data enables).getLsbD i =
    if enables.getLsbD (i / 8) = true then data.getLsbD i else old.getLsbD i) ∧
  ∀ (s : State) (a : BitVec 28) (w : BusWord) (v : ServiceIx) (n : StreamName) (y : Service) (ar : Area) (r : StreamRec)
    (x : AccessStanding), s.path.inReset = false → s.path.access = none → s.stands [a] x →
    s.placeOf a = .stream v n → s.service v = y → y.areas.get n = some ar → y.streams.get n = some r → ar.base ≤ 4 * a.toNat →
    let block := 32 + 6400 * y.width
    let i := (4 * a.toNat - ar.base) / block
    let at_ := ((4 * a.toNat - ar.base) % block) / 4
    let word := at_ - 8
    let merged (z : Slot) : Slot := { z with words := setSample z.words word (mergeBytes (sampleAt z.words word) w.data w.enables) }
    let sent (z : Service) : Host.Outcome State Fault Refusal := .next ((s.modService v (fun _ => z)).withArrival true
      [{ addr := a, place := .stream v n, data := w.data, enables := w.enables }] x)
    (1 ≤ at_ → at_ < 8 → exec (.streamSampleWrite a [w]) s = sent y) ∧
    (8 ≤ at_ →
      (r.open1.seq.toNat % ar.blocks = i → r.open1.committed = false →
        exec (.streamSampleWrite a [w]) s = sent { y with streams := y.streams.set n (some { r with open1 := merged r.open1 }) }) ∧
      ((r.open1.seq.toNat % ar.blocks ≠ i ∨ r.open1.committed = true) → r.open2.seq.toNat % ar.blocks = i →
        r.open2.committed = false →
        exec (.streamSampleWrite a [w]) s = sent { y with streams := y.streams.set n (some { r with open2 := merged r.open2 }) }) ∧
      ((r.open1.seq.toNat % ar.blocks = i ∨ r.open2.seq.toNat % ar.blocks = i) →
        (r.open1.seq.toNat % ar.blocks = i → r.open1.committed = true) →
        (r.open2.seq.toNat % ar.blocks = i → r.open2.committed = true) →
        exec (.streamSampleWrite a [w]) s = sent (y.count n .lateWrite)) ∧
      (r.open1.seq.toNat % ar.blocks ≠ i → r.open2.seq.toNat % ar.blocks ≠ i → exec (.streamSampleWrite a [w]) s = sent y))

/-- R63, R72, R74: a commit word: during period b a commit for b+1 or b+2 at its own block index commits the slot, at another index is
MISPLACED, of a committed slot DUPLICATE; for b or the past STALE; for b+3 on EARLY. A write without bytes 0 and 1 commits nothing. All
of them go on to memory, held behind what they overlap (R162). What is counted goes up in the totals and in the superframe increments,
and stays at 65,535. -/
def Obligations.CommitWritesAreJudged : Prop :=
  (∀ (y : Service) (n : StreamName) (c : CounterName),
    let held := (y.totals.get n).get c
    let z := y.count n c
    (65535 ≤ held → z = y) ∧
    (held < 65535 → z = { y with totals := z.totals, streams := z.streams } ∧
      (∀ n' c', (z.totals.get n').get c' = (y.totals.get n').get c' + if n' = n ∧ c' = c then 1 else 0) ∧
      (∀ n', n' ≠ n → z.streams.get n' = y.streams.get n') ∧ (y.streams.get n = none → z.streams.get n = none) ∧
      (∀ r, y.streams.get n = some r → ∃ r', z.streams.get n = some r' ∧ r' = { r with increments := r'.increments } ∧
        ∀ c', r'.increments.get c' = if c' = c then bump16 (r.increments.get c) else r.increments.get c'))) ∧
  ∀ (s : State) (a : BitVec 28) (w : BusWord) (v : ServiceIx) (n : StreamName) (y : Service) (ar : Area) (r : StreamRec)
    (x : AccessStanding), s.path.inReset = false → s.path.access = none → s.stands [a] x →
    s.placeOf a = .stream v n → s.service v = y → y.areas.get n = some ar → y.streams.get n = some r → ar.base ≤ 4 * a.toNat →
    let block := 32 + 6400 * y.width
    let i := (4 * a.toNat - ar.base) / block
    let seq : Seq16 := w.data.extractLsb' 0 16
    let ahead := (seq - s.period).toNat
    let sent (z : Service) : Host.Outcome State Fault Refusal := .next ((s.modService v (fun _ => z)).withArrival true
      [{ addr := a, place := .stream v n, data := w.data, enables := w.enables }] x)
    ((4 * a.toNat - ar.base) % block) / 4 = 0 →
    (¬ (w.enables.getLsbD 0 = true ∧ w.enables.getLsbD 1 = true) → exec (.commitWordWrite a [w]) s = sent y) ∧
    (w.enables.getLsbD 0 = true → w.enables.getLsbD 1 = true →
      (ahead = 1 → r.open1.committed = false → seq.toNat % ar.blocks = i → exec (.commitWordWrite a [w]) s =
        sent { y with streams := y.streams.set n (some { r with open1 := { r.open1 with committed := true } }) }) ∧
      (ahead = 2 → r.open2.committed = false → seq.toNat % ar.blocks = i → exec (.commitWordWrite a [w]) s =
        sent { y with streams := y.streams.set n (some { r with open2 := { r.open2 with committed := true } }) }) ∧
      (((ahead = 1 ∧ r.open1.committed = false) ∨ (ahead = 2 ∧ r.open2.committed = false)) → seq.toNat % ar.blocks ≠ i →
        exec (.commitWordWrite a [w]) s = sent (y.count n .misplaced)) ∧
      (((ahead = 1 ∧ r.open1.committed = true) ∨ (ahead = 2 ∧ r.open2.committed = true)) →
        exec (.commitWordWrite a [w]) s = sent (y.count n .duplicate)) ∧
      ((ahead = 0 ∨ 32768 ≤ ahead) → exec (.commitWordWrite a [w]) s = sent (y.count n .stale)) ∧
      (3 ≤ ahead → ahead < 32768 → exec (.commitWordWrite a [w]) s = sent (y.count n .early)))

/-- R156, R169 to R172: writes of the order ring: a slot word is merged into the shadow unless its slot is frozen or it is word 7; a new
producer index is taken, repeated or rejected by what it makes pending; taken while no order executes, the order at the consumer index is
taken with it, as its own row says (log 6), and its result word is posted or, with 64 entries queued, waits. All of them go on to memory,
held behind what they overlap (R162). -/
def Obligations.OrderRingWritesAreTapped : Prop :=
  (∀ (s : State) (w : BusWord), s.path.inReset = false → s.path.access = none → s.windowAligned →
    let u := s.orders
    let pendingNow := (u.producer - u.consumer).val
    let sent (t : State) (a : BitVec 28) (p : Place) (x : AccessStanding) : Host.Outcome State Fault Refusal :=
      .next (t.withArrival true [{ addr := a, place := p, data := w.data, enables := w.enables }] x)
    (∀ (slot : Fin 32) (word : Fin 8) (x : AccessStanding), let a := s.windowWord (32 * slot.val + 4 * word.val)
      s.stands [a] x →
      (∀ i : Fin 7, i.val = word.val → pendingNow ≤ (slot - u.consumer).val →
        let written := u.shadow[slot].set i (mergeBytes u.shadow[slot][i] w.data w.enables)
        exec (.orderSlotWrite slot word [w]) s =
          sent (s.modOrders (fun u => { u with shadow := u.shadow.set slot written })) a .orderRing x) ∧
      ((word = 7 ∨ (slot - u.consumer).val < pendingNow) → exec (.orderSlotWrite slot word [w]) s = sent s a .orderRing x)) ∧
    (∀ p : Fin 32, p.val = (w.data.extractLsb' 0 5).toNat → let a := s.windowWord 0x400
      let ahead := (p - u.consumer).val
      (∀ x, s.stands [a] x →
        (w.enables.getLsbD 0 = false → exec (.orderProducerIndexWrite w) s = sent s a .producerIndex x) ∧
        (w.enables.getLsbD 0 = true → pendingNow < ahead → u.executing.isSome = true → exec (.orderProducerIndexWrite w) s =
          sent (s.modOrders (fun u => { u with producer := p })) a .producerIndex x) ∧
        (w.enables.getLsbD 0 = true → ahead = pendingNow → exec (.orderProducerIndexWrite w) s = sent s a .producerIndex x) ∧
        (w.enables.getLsbD 0 = true → ahead < pendingNow → exec (.orderProducerIndexWrite w) s =
          sent (s.modOrders (fun u => { u with rejected := bump16 u.rejected })) a .producerIndex x)) ∧
      (w.enables.getLsbD 0 = true → pendingNow < ahead → u.executing = none →
        let o := orderOfWords u.shadow[u.consumer]
        let r := takeByCode o (s.modOrders (fun u => { u with producer := p }))
        let result := resultPosting s.path.windowBase u.consumer r.2 o.tag
        let taken (waiting : Option Posting) (path : MemPath) : State := { r.1 with
          orders := { u with producer := p, executing := some u.consumer, result := waiting }, path := path }
        (∀ x, s.path.queue.length < 64 → (taken u.result (s.path.push result)).stands [a] x →
          exec (.orderProducerIndexWrite w) s = sent (taken u.result (s.path.push result)) a .producerIndex x) ∧
        (∀ x, 64 ≤ s.path.queue.length → s.stands [a] x →
          exec (.orderProducerIndexWrite w) s = sent (taken (some result) s.path) a .producerIndex x)))) ∧
  (∀ (s : State) (c : Instr) (o : Order), s.ordersIdle → commandOrder c = some o →
    let r := takeByCode o (s.modOrders (fun u => { u with shadow := u.shadow.set u.producer (wordsOfOrder o), producer := u.producer + 1 }))
    exec c s = .next (s.answered o r.2 r.1)) ∧
  (∀ ws : Vector Word 7, orderOfWords ws = { code := ws[0].extractLsb' 0 8, index := ws[0].extractLsb' 8 8, tag := ws[0].extractLsb' 16 16
                                             p1 := ws[1], p2 := ws[2], p3 := ws[3], p4 := ws[4], p5 := ws[5], p6 := ws[6] }) ∧
  (∀ (base : Nat) (slot : Fin 32) (r : OrderResult) (tag : BitVec 16) (kind code : BitVec 8),
    (r, kind, code) ∈ ([(.done, 1, 0), (.clamped, 2, 0), (.note .notLatched, 3, 1), (.note .alreadyAcked, 3, 2), (.note .notActive, 3, 3),
      (.refused .badIndex, 4, 1), (.refused .badValue, 4, 2), (.refused .wrongState, 4, 3), (.refused .busy, 4, 4),
      (.refused .overlap, 4, 5), (.refused .noStaging, 4, 6), (.refused .noUplinkCapacity, 4, 7), (.refused .queueFull, 4, 8),
      (.refused .active, 4, 9), (.refused .unknownOrder, 4, 10)] : List (OrderResult × BitVec 8 × BitVec 8)) →
    resultPosting base slot r tag = { producer := .orderUnit, addr := base + 32 * slot.val + 28, words := [.bits (tag ++ code ++ kind)] })

/-- R175, R176: a write of the notice consumer index within the posted records is taken: NC moves, HOLD ends where the free space reaches
the resume threshold, NIRQ follows; another is counted rejected. All of them go on to memory, held behind what they overlap (R162). -/
def Obligations.ConsumerIndexWriteFreesSpace : Prop :=
  ∀ (s : State) (w : BusWord) (x : AccessStanding), s.path.inReset = false → s.path.access = none → s.windowAligned →
    let a := s.windowWord 0x404
    s.stands [a] x →
    let u := s.notices
    let c : Seq16 := w.data.extractLsb' 0 16
    let sent (t : State) : Host.Outcome State Fault Refusal := .next (t.withArrival true
      [{ addr := a, place := .consumerIndex, data := w.data, enables := w.enables }] x)
    (¬ (w.enables.getLsbD 0 = true ∧ w.enables.getLsbD 1 = true) → exec (.noticeConsumerIndexWrite w) s = sent s) ∧
    (w.enables.getLsbD 0 = true → w.enables.getLsbD 1 = true →
      ((c - u.consumed).toNat ≤ (u.posted - u.consumed).toNat → exec (.noticeConsumerIndexWrite w) s = sent
        (s.modNotices (fun u => { u with
          consumed := c
          holdState := if u.resumeAt ≤ 64 - (u.written - c).toNat then .normal else u.holdState
          nirq := u.posted != c && u.irqEnable }))) ∧
      ((u.posted - u.consumed).toNat < (c - u.consumed).toNat → exec (.noticeConsumerIndexWrite w) s = sent
        (s.modNotices (fun u => { u with rejected := bump16 u.rejected }))))

/-! ## The memory port and the posting queue -/

/-- R155, R159 to R162, R171, R176: what completes at the memory port: a host access leaves the part; a posting leaves the queue, is
reported to its producer, and lets a HELD access behind it go; an order's result ends its execution and takes the next order, if one is
pending; the entry a full queue frees goes to the producer of the first rank that has a posting. That HELD_ACCESS_RELEASE completes the
entry under way, where that is the release mark, as MEMORY_PORT_COMPLETION does is the model's reading (log 11); so is what completes
after RESET (log 27), and that an idle port completes nothing (log 4). -/
def Obligations.MemoryPortCompletionEndsAccess : Prop :=
  ∀ s : State,
    (s.path.port = .host →
      exec .memoryPortCompletion s = .next { s with path := ({ s.path with port := .idle, access := none } : MemPath).arbitrate }) ∧
    (∀ p, s.path.port = .orphan p →
      exec .memoryPortCompletion s = .next { s with path := ({ s.path with port := .idle } : MemPath).arbitrate }) ∧
    (s.path.port = .idle → exec .memoryPortCompletion s = .next { s with path := s.path.arbitrate }) ∧
    (∀ p rest, s.path.port = .posting → s.path.queue = p :: rest →
      let left : MemPath := { s.path with
        queue := rest, port := .idle, pressure := s.path.pressure && decide (rest.length ≠ 16)
        access := s.path.access.map (fun a => { a with standing := match a.standing with
          | .held 0 => .waiting
          | .held (k + 1) => .held k
          | .waiting => .waiting
          | .inMemory => .inMemory }) }
      let silent := p.producer = .statusPoster ∨ p.producer = .combiner
      (rest.length < 63 → silent → exec .memoryPortCompletion s = .next { s with path := left.arbitrate }) ∧
      (rest.length < 63 → p.producer = .noticeUnit → exec .memoryPortCompletion s = .next { s with
        path := left.arbitrate
        notices := { s.notices with posted := s.notices.posted + 1
                                    nirq := s.notices.posted + 1 != s.notices.consumed && s.notices.irqEnable } }) ∧
      (rest.length < 63 → p.producer = .orderUnit → s.orders.producer = s.orders.consumer + 1 →
        exec .memoryPortCompletion s = .next { s with
          path := left.arbitrate
          orders := { s.orders with executing := none, consumer := s.orders.consumer + 1 } }) ∧
      (rest.length ≤ 63 → p.producer = .orderUnit → s.orders.producer ≠ s.orders.consumer + 1 →
        let next := s.orders.consumer + 1
        let o := orderOfWords s.orders.shadow[next]
        let r := takeByCode o { s with path := left, orders := { s.orders with executing := none, consumer := next } }
        exec .memoryPortCompletion s = .next { r.1 with
          path := (left.push (resultPosting s.path.windowBase next r.2 o.tag)).arbitrate
          orders := { s.orders with executing := some next, consumer := next } }) ∧
      (∀ x, rest.length = 63 → silent → s.orders.result = some x → exec .memoryPortCompletion s = .next { s with
        path := (left.push x).arbitrate
        orders := { s.orders with result := none } }) ∧
      (let has (q : Producer) : Prop := match q with
          | .orderUnit => s.orders.result.isSome = true
          | .noticeUnit => s.notices.handing.isSome = true
          | .statusPoster => s.poster.page.isSome = true
          | .combiner => ∃ b more ring, s.combiner.workList = b :: more ∧ (s.service b.service).ring = some ring
        rest.length = 63 → s.path.inReset = false → ∀ t : State,
        (silent → t = { s with path := left }) →
        (p.producer = .noticeUnit → t = { s with
          path := left
          notices := { s.notices with posted := s.notices.posted + 1
                                      nirq := s.notices.posted + 1 != s.notices.consumed && s.notices.irqEnable } }) →
        (p.producer = .orderUnit → s.orders.producer = s.orders.consumer + 1 ∧ t = { s with
          path := left
          orders := { s.orders with executing := none, consumer := s.orders.consumer + 1 } }) →
        (∀ before q after, ([.orderUnit, .noticeUnit, .statusPoster, .combiner] : List Producer) = before ++ q :: after →
          has q → (∀ q', q' ∈ before → ¬ has q') →
          exec .memoryPortCompletion s = exec (.postingEnqueue q) t) ∧
        ((∀ q, ¬ has q) → exec .memoryPortCompletion s = .next { t with path := left.arbitrate })) ∧
      (∀ a, rest.length < 63 → silent → s.path.access = some a → a.standing = .held 0 →
        exec .heldAccessRelease s = .next { s with path := ({ left with
          access := some { a with standing := .waiting } } : MemPath).arbitrate }) ∧
      (∀ a, s.path.access = some a → a.standing = .held 0 → exec .heldAccessRelease s = exec .memoryPortCompletion s))

/-- R148, R149, R159, R161, R174, R177: a producer's next posting joins the queue where it has room: the order unit's waiting result, the
next record of the notice being handed over, the next 8 words of the page, the next posting of the oldest combined block; with 64 entries
queued the producer waits. The posting stands at the tail; the count reaching 48 with pressure OFF turns it ON and is counted; the
largest occupancy follows. When it is handed over is the sender's to say (log 9). The words of a notice's record are `Notice.body`'s, the
model's choices among them (log 8, 35, 36, 40, 41, 45, 48, and log 50 for the order of a STREAM notice's records). -/
def Obligations.PostingEnqueueHandsOver : Prop :=
  (∀ (m : MemPath) (p : Posting), m.push p = { m with
    queue := m.queue ++ [p]
    pressure := m.pressure || decide (m.queue.length = 47)
    pressureEntries := if m.pressure = false ∧ m.queue.length = 47 then bump16 m.pressureEntries else m.pressureEntries
    largest := if m.largest ≤ m.queue.length then m.queue.length + 1 else m.largest }) ∧
  ∀ s : State, s.path.inReset = false →
    (s.path.queue.length < 64 →
      (∀ x, s.orders.result = some x → exec (.postingEnqueue .orderUnit) s =
        .next (({ s with orders := { s.orders with result := none } } : State).plusPosting s x)) ∧
      (∀ n k, s.notices.handing = some (n, k) → exec (.postingEnqueue .noticeUnit) s = .next ((s.modNotices (fun u => { u with
          written := u.written + 1
          handing := if k + 1 < n.records then some (n, k + 1) else none
          holdState := if 64 - (u.written + 1 - u.consumed).toNat ≤ u.holdAt then .hold else u.holdState })).plusPosting s
        { producer := .noticeUnit, addr := s.path.windowBase + 0x2000 + 32 * (s.notices.written.toNat % 64)
          words := .bits (n.header k s.notices.written) :: n.body k })) ∧
      (∀ page, s.poster.page = some page → exec (.postingEnqueue .statusPoster) s =
        .next (({ s with poster := { s.poster with
          page := if page.handed < 63 then some { page with handed := page.handed + 1 } else none } } : State).plusPosting s
        { producer := .statusPoster, addr := s.path.windowBase + 0x1000 + 32 * page.handed
          words := (page.words.drop (8 * page.handed)).take 8 })) ∧
      (∀ b rest ring, s.combiner.workList = b :: rest → (s.service b.service).ring = some ring →
        let w := (s.service b.service).width
        let at0 := ring.base + (b.header.seq.toNat % ring.blocks) * (32 + 6400 * w)
        (b.handed < 200 * w → exec (.postingEnqueue .combiner) s =
          .next (({ s with combiner := { s.combiner with workList := { b with handed := b.handed + 1 } :: rest } } : State).plusPosting s
            { producer := .combiner, addr := at0 + 32 + 32 * b.handed
              words := [0, 1, 2, 3, 4, 5, 6, 7].map (fun j => PostWord.bits (sampleAt b.words (8 * b.handed + j))) })) ∧
        (200 * w ≤ b.handed → exec (.postingEnqueue .combiner) s =
          .next (({ s with combiner := { s.combiner with workList := rest } } : State).plusPosting s
            { producer := .combiner, addr := at0, words := b.header.words })))) ∧
    (∀ p : Producer, 64 ≤ s.path.queue.length → exec (.postingEnqueue p) s = .next { s with path := s.path.arbitrate })

/-- R173, R174, R175, 10.5: a generated notice joins the internal queue, or is lost and counted for its kind where the queue holds 16; the
notice at the head is handed over or lost by the free space, the hold state and its urgency; NOTICES_LOST, where counts are owed, is
handed over first and clears them. The class, the kind, the records and word 0 of each record are spelled out. When a notice is taken is
the sender's to say (log 10). The other words of a record are `Notice.body`'s, the model's choices among them (log 8, 35, 36, 40, 41, 45,
48, and log 50 for the order of a STREAM notice's records). -/
def Obligations.NoticeHandoverTakesOrLoses : Prop :=
  (∀ n : Notice,
    let intoFault : Bool := match n with
      | .linkState _ _ new _ _ _ => new == .fault
      | _ => false
    let kind : Nat := match n with
      | .linkState .. => 1
      | .rangeResult .. => 2
      | .align .. => 3
      | .alarm .. => 4
      | .queryDone .. => 5
      | .planSwitched .. => 6
      | .stream .. => 7
      | .uplink .. => 8
      | .ownedWrite .. => 9
      | .incident .. => 10
      | .lineEvent .. => 11
      | .breakinOwner .. => 12
      | .noticesLost .. => 13
    (n.urgent = true ↔ intoFault = true ∨ 10 ≤ kind) ∧
    (∀ (u : NoticeUnit) (k : Fin 13), kind ≠ 13 → k.val = (if intoFault then 12 else kind - 1) →
      (u.queue.length < 16 → u.generate n = { u with queue := u.queue ++ [n] }) ∧
      (16 ≤ u.queue.length → u.generate n = { u with lost := u.lost.set k (bump16 u.lost[k]) }) ∧ n.lostIx = k) ∧
    (kind ≠ 7 → kind ≠ 9 → n.records = 1) ∧
    (∀ v disabled reports, n = .stream v disabled reports → (reports.normal).isSome = true →
      n.records = 1 + (if reports.a.isSome then 1 else 0) + (if reports.b.isSome then 1 else 0)) ∧
    (∀ page ring uplinks first, n = .ownedWrite page ring uplinks first →
      1 ≤ n.records ∧ uplinks.length ≤ 5 + 7 * (n.records - 1) ∧ (2 ≤ n.records → 5 + 7 * (n.records - 2) < uplinks.length)) ∧
    (∀ (k : Nat) (q : Seq16), k < n.records → n.records ≤ 4 →
      (n.header k q).extractLsb' 0 16 = q ∧ ((n.header k q).extractLsb' 16 8).toNat = kind ∧
      (n.header k q).getLsbD 24 = n.urgent ∧ ((n.header k q).extractLsb' 25 2).toNat = k ∧
      ((n.header k q).extractLsb' 27 3).toNat = n.records ∧ (n.header k q).extractLsb' 30 2 = 0)) ∧
  ∀ s : State, s.path.inReset = false → s.notices.handing = none → s.path.queue.length < 64 →
    let u := s.notices
    let lost : Prop := u.holdState = .normal ∧ ∃ k : Fin 13, u.lost[k] ≠ 0
    let after : HoldState := if 64 - (u.written + 1 - u.consumed).toNat ≤ u.holdAt then .hold else u.holdState
    let record (n : Notice) : Posting :=
      { producer := .noticeUnit, addr := s.path.windowBase + 0x2000 + 32 * (u.written.toNat % 64)
        words := .bits (n.header 0 u.written) :: n.body 0 }
    (∀ n rest, ¬ lost → u.queue = n :: rest → n.records ≤ 64 - (u.written - u.consumed).toNat → (u.holdState = .normal ∨ n.urgent = true) →
      exec .noticeHandover s = .next ((s.modNotices (fun u => { u with
        queue := rest, written := u.written + 1, handing := if 1 < n.records then some (n, 1) else none
        holdState := after })).plusPosting s (record n))) ∧
    (∀ n rest, ¬ lost → u.queue = n :: rest →
      (64 - (u.written - u.consumed).toNat < n.records ∨ (u.holdState = .hold ∧ n.urgent = false)) →
      exec .noticeHandover s = .next { s with
        notices := { u with queue := rest, lost := u.lost.set n.lostIx (bump16 u.lost[n.lostIx]) }, path := s.path.arbitrate }) ∧
    (lost → 0 < 64 - (u.written - u.consumed).toNat →
      exec .noticesLost s = .next ((s.modNotices (fun u => { u with
        written := u.written + 1, lost := Vector.replicate 13 0, holdState := after })).plusPosting s (record (.noticesLost u.lost))))

/-! ## RESET -/

/-- R165, R166: at the assertion of RESET the posting queue and the account of the memory path are emptied, a posting under way keeps the
port (log 27), a HELD access is released and NIRQ falls; at the release every record takes its reset value but the access and the port,
and the control window base is 65,536 times the number the straps give (R153), nothing handed over in it (R166).
While RESET is asserted a host access passes straight through: nothing is tapped, withheld or held, and the port goes to it where it is
idle. Every other event but the completion of an access leaves the part as it is (log 13). A release with RESET not asserted does nothing
(log 4). That a read's words stand with byte enables 0 is the model's choice (log 52). -/
def Obligations.ResetEmptiesAndRestores : Prop :=
  ∀ s : State,
    (∃ t : State, exec .resetAssert s = .next t ∧ t.path.inReset = true ∧ t.path.queue = [] ∧ t.path.pressure = false ∧
      t.path.ownedPage = 0 ∧ t.path.ownedRing = 0 ∧ (∀ v : ServiceIx, t.path.ownedUplink[v] = 0) ∧ t.path.firstOwned = none ∧
      (∀ p rest, s.path.port = .posting → s.path.queue = p :: rest → t.path.port = .orphan p) ∧
      (s.path.port = .host → t.path.port = .host) ∧
      (s.path.port = .idle → s.path.access = none → t.path.port = .idle) ∧
      (s.path.access = none → t.path.access = none) ∧
      (∀ a, s.path.access = some a → ∃ b, t.path.access = some b ∧ b.words = a.words ∧ b.isWrite = a.isWrite ∧
        (∀ k, b.standing ≠ .held k) ∧ (s.path.port = .idle → a.standing ≠ .inMemory → t.path.port = .host ∧ b.standing = .inMemory)) ∧
      t.notices.nirq = false ∧ t.notices.handing = none ∧ t.orders.result = none ∧ t.poster.page = none ∧
      t.links = s.links ∧ t.services = s.services ∧ t.zones = s.zones ∧ t.time = s.time) ∧
    (∀ straps : BitVec 14, s.path.inReset = true → exec (.resetRelease straps) s = .next { State.reset with
      path := { State.reset.path with windowBase := 65536 * straps.toNat, access := s.path.access, port := s.path.port }
      pending := s.pending }) ∧
    (∀ straps : BitVec 14, s.path.inReset = false → exec (.resetRelease straps) s = .next s) ∧
    (let access (isWrite : Bool) (words : List AccessWord) : HostAccess :=
        { isWrite := isWrite, passThrough := true, words := words.map (fun x => { x with place := .elsewhere }), standing := .waiting }
      let passing (isWrite : Bool) (words : List AccessWord) : State :=
        { s with path := ({ s.path with access := some (access isWrite words) } : MemPath).arbitrate }
      s.path.inReset = true → s.path.access = none →
      (∀ (a : BitVec 28) (ws : List BusWord), 1 ≤ ws.length → ws.length ≤ 8 →
        exec (.hostWrite a ws) s = .next (passing true (s.writeWords a ws))) ∧
      (∀ (a : BitVec 28) (n : Nat), 1 ≤ n → n ≤ 8 → exec (.hostRead a n) s = .next (passing false (s.readWords a n)))) ∧
    (∀ c : Instr,
      let acts : Bool := match c with
        | .resetAssert => true
        | .resetRelease _ => true
        | .orderSlotWrite .. => true
        | .orderProducerIndexWrite _ => true
        | .noticeConsumerIndexWrite _ => true
        | .flushWordRead => true
        | .commitWordWrite .. => true
        | .streamSampleWrite .. => true
        | .ownedAreaWrite .. => true
        | .hostWrite .. => true
        | .hostRead .. => true
        | .heldAccessRelease => true
        | .memoryPortCompletion => true
        | .uplinkFrameArrival _ f => !frameOk f
        | _ => false
      s.path.inReset = true → acts = false → exec c s = .next s)

/-! ## Invariants every step keeps -/

/-- R159, R173: "The posting queue never holds more than 64 entries", and the internal queue of notices never more than 16. -/
def Obligations.StepKeepsQueuesBounded : Prop :=
  ∀ s t : State, s.postingQueueBounded → s.noticeQueueBounded → step s = .next t → t.postingQueueBounded ∧ t.noticeQueueBounded

/-- R153, R165, R171: the control window stays where the straps put it, nothing is queued during RESET, the executing order is the one
at the consumer index, and it executes exactly while its one result is queued or waiting, with none pending while none executes. -/
def Obligations.StepKeepsPathPlaced : Prop :=
  ∀ s t : State, s.windowAligned → s.emptyInReset → s.executingAtConsumer → s.ordersInStep → step s = .next t →
    t.windowAligned ∧ t.emptyInReset ∧ t.executingAtConsumer ∧ t.ordersInStep

/-- R174, R176: the notice ring never overruns the records the host has not consumed, and NIRQ says whether there are any. -/
def Obligations.StepKeepsNoticeRing : Prop :=
  ∀ s t : State, s.emptyInReset → s.nirqRight → s.noticeRingRight → step s = .next t → t.nirqRight ∧ t.noticeRingRight

/-- R3, R18, R19, R20, R91: the laser is on outside DARK, exchanges exist in JOINING and ACTIVE alone, a closed control channel holds
nothing, and the pending queue keeps its bounds. -/
def Obligations.StepKeepsLinkRecords : Prop :=
  ∀ s t : State, s.laserRight → s.exchangesPlaced → s.closedChannelsEmpty → s.pendingBounded → step s = .next t →
    t.laserRight ∧ t.exchangesPlaced ∧ t.closedChannelsEmpty ∧ t.pendingBounded

/-- R49, R53, R55: K and K* keep their range and every member's K*, OUT_OF_REACH and SLEWING follow its group's target. -/
def Obligations.StepKeepsMembersAligned : Prop :=
  ∀ s t : State, s.delaysBounded → s.membersAligned → step s = .next t → t.delaysBounded ∧ t.membersAligned

/-- R105, R122, R127: every zone's derived incident state is the one its terms give, and its owner the source that ranks first in it. -/
def Obligations.StepKeepsZonesOwned : Prop :=
  ∀ s t : State, s.incidentRight → s.ownershipRight → step s = .next t → t.incidentRight ∧ t.ownershipRight

/-- R63, R66, R86, R87, R137: the enabled services keep within the staging and uplink capacity, every class within 0..7, every plan within
its 32 lanes, and the work list holds at most one block of a service. -/
def Obligations.StepKeepsPlansAndCapacity : Prop :=
  ∀ s t : State, s.capacityHeld → s.classesBounded → s.plansFit → s.oneBlockPerService → step s = .next t →
    t.capacityHeld ∧ t.classesBounded ∧ t.plansFit ∧ t.oneBlockPerService

/-- R58, R70, R71, R137: every sample store stays in its one form, so that equal contents are equal data (log 24). -/
def Obligations.StepKeepsStoresCanonical : Prop :=
  ∀ s t : State, s.storesCanonical → step s = .next t → t.storesCanonical
end

