-- ==== Sys2Proof/Laws/State.lean ====
section
/-! SUPPORT. One lemma per field per update of `State`: what a named update leaves of every other field, and what it makes of its own. -/

namespace Sys2Proof.Machine

open Sys2Proof

/-! ### modLink: the fields it leaves -/

@[simp] theorem State.modLink_time (s : State) (l : LinkIx) (f : Link → Link) : (s.modLink l f).time = s.time := rfl
@[simp] theorem State.modLink_groups (s : State) (l : LinkIx) (f : Link → Link) : (s.modLink l f).groups = s.groups := rfl
@[simp] theorem State.modLink_services (s : State) (l : LinkIx) (f : Link → Link) : (s.modLink l f).services = s.services := rfl
@[simp] theorem State.modLink_zones (s : State) (l : LinkIx) (f : Link → Link) : (s.modLink l f).zones = s.zones := rfl
@[simp] theorem State.modLink_inputs (s : State) (l : LinkIx) (f : Link → Link) : (s.modLink l f).inputs = s.inputs := rfl
@[simp] theorem State.modLink_arbiter (s : State) (l : LinkIx) (f : Link → Link) : (s.modLink l f).arbiter = s.arbiter := rfl
@[simp] theorem State.modLink_combiner (s : State) (l : LinkIx) (f : Link → Link) : (s.modLink l f).combiner = s.combiner := rfl
@[simp] theorem State.modLink_path (s : State) (l : LinkIx) (f : Link → Link) : (s.modLink l f).path = s.path := rfl
@[simp] theorem State.modLink_orders (s : State) (l : LinkIx) (f : Link → Link) : (s.modLink l f).orders = s.orders := rfl
@[simp] theorem State.modLink_notices (s : State) (l : LinkIx) (f : Link → Link) : (s.modLink l f).notices = s.notices := rfl
@[simp] theorem State.modLink_poster (s : State) (l : LinkIx) (f : Link → Link) : (s.modLink l f).poster = s.poster := rfl
@[simp] theorem State.modLink_pending (s : State) (l : LinkIx) (f : Link → Link) : (s.modLink l f).pending = s.pending := rfl
@[simp] theorem State.modLink_group (s : State) (l : LinkIx) (f : Link → Link) (g' : GroupIx) : (s.modLink l f).group g' = s.group g' := rfl
@[simp] theorem State.modLink_service (s : State) (l : LinkIx) (f : Link → Link) (v' : ServiceIx) : (s.modLink l f).service v' = s.service v' := rfl
@[simp] theorem State.modLink_zone (s : State) (l : LinkIx) (f : Link → Link) (z' : ZoneIx) : (s.modLink l f).zone z' = s.zone z' := rfl
@[simp] theorem State.modLink_input (s : State) (l : LinkIx) (f : Link → Link) (i' : InputIx) : (s.modLink l f).input i' = s.input i' := rfl

theorem State.modLink_link_eq (s : State) (l x : LinkIx) (f : Link → Link) :
    (s.modLink l f).link x = if l = x then f (s.link l) else s.link x := by
  simp only [State.modLink, State.link, Fin.getElem_fin, Vector.getElem_set, Fin.val_inj]

@[simp] theorem State.modLink_link_same (s : State) (l : LinkIx) (f : Link → Link) : (s.modLink l f).link l = f (s.link l) := by
  simp [State.modLink_link_eq]

theorem State.modLink_link_other (s : State) (l x : LinkIx) (f : Link → Link) (h : l ≠ x) : (s.modLink l f).link x = s.link x := by
  simp [State.modLink_link_eq, h]

/-- Two changes of one record are one. -/
@[simp] theorem State.modLink_modLink (s : State) (l : LinkIx) (f k : Link → Link) :
    (s.modLink l f).modLink l k = s.modLink l (fun x => k (f x)) := by
  simp [State.modLink, Vector.set_set]

/-! ### modGroup: the fields it leaves -/

@[simp] theorem State.modGroup_time (s : State) (g : GroupIx) (f : Group → Group) : (s.modGroup g f).time = s.time := rfl
@[simp] theorem State.modGroup_links (s : State) (g : GroupIx) (f : Group → Group) : (s.modGroup g f).links = s.links := rfl
@[simp] theorem State.modGroup_services (s : State) (g : GroupIx) (f : Group → Group) : (s.modGroup g f).services = s.services := rfl
@[simp] theorem State.modGroup_zones (s : State) (g : GroupIx) (f : Group → Group) : (s.modGroup g f).zones = s.zones := rfl
@[simp] theorem State.modGroup_inputs (s : State) (g : GroupIx) (f : Group → Group) : (s.modGroup g f).inputs = s.inputs := rfl
@[simp] theorem State.modGroup_arbiter (s : State) (g : GroupIx) (f : Group → Group) : (s.modGroup g f).arbiter = s.arbiter := rfl
@[simp] theorem State.modGroup_combiner (s : State) (g : GroupIx) (f : Group → Group) : (s.modGroup g f).combiner = s.combiner := rfl
@[simp] theorem State.modGroup_path (s : State) (g : GroupIx) (f : Group → Group) : (s.modGroup g f).path = s.path := rfl
@[simp] theorem State.modGroup_orders (s : State) (g : GroupIx) (f : Group → Group) : (s.modGroup g f).orders = s.orders := rfl
@[simp] theorem State.modGroup_notices (s : State) (g : GroupIx) (f : Group → Group) : (s.modGroup g f).notices = s.notices := rfl
@[simp] theorem State.modGroup_poster (s : State) (g : GroupIx) (f : Group → Group) : (s.modGroup g f).poster = s.poster := rfl
@[simp] theorem State.modGroup_pending (s : State) (g : GroupIx) (f : Group → Group) : (s.modGroup g f).pending = s.pending := rfl
@[simp] theorem State.modGroup_link (s : State) (g : GroupIx) (f : Group → Group) (l' : LinkIx) : (s.modGroup g f).link l' = s.link l' := rfl
@[simp] theorem State.modGroup_service (s : State) (g : GroupIx) (f : Group → Group) (v' : ServiceIx) : (s.modGroup g f).service v' = s.service v' := rfl
@[simp] theorem State.modGroup_zone (s : State) (g : GroupIx) (f : Group → Group) (z' : ZoneIx) : (s.modGroup g f).zone z' = s.zone z' := rfl
@[simp] theorem State.modGroup_input (s : State) (g : GroupIx) (f : Group → Group) (i' : InputIx) : (s.modGroup g f).input i' = s.input i' := rfl

theorem State.modGroup_group_eq (s : State) (g x : GroupIx) (f : Group → Group) :
    (s.modGroup g f).group x = if g = x then f (s.group g) else s.group x := by
  simp only [State.modGroup, State.group, Fin.getElem_fin, Vector.getElem_set, Fin.val_inj]

@[simp] theorem State.modGroup_group_same (s : State) (g : GroupIx) (f : Group → Group) : (s.modGroup g f).group g = f (s.group g) := by
  simp [State.modGroup_group_eq]

theorem State.modGroup_group_other (s : State) (g x : GroupIx) (f : Group → Group) (h : g ≠ x) : (s.modGroup g f).group x = s.group x := by
  simp [State.modGroup_group_eq, h]

/-- Two changes of one record are one. -/
@[simp] theorem State.modGroup_modGroup (s : State) (g : GroupIx) (f k : Group → Group) :
    (s.modGroup g f).modGroup g k = s.modGroup g (fun x => k (f x)) := by
  simp [State.modGroup, Vector.set_set]

/-! ### modService: the fields it leaves -/

@[simp] theorem State.modService_time (s : State) (v : ServiceIx) (f : Service → Service) : (s.modService v f).time = s.time := rfl
@[simp] theorem State.modService_links (s : State) (v : ServiceIx) (f : Service → Service) : (s.modService v f).links = s.links := rfl
@[simp] theorem State.modService_groups (s : State) (v : ServiceIx) (f : Service → Service) : (s.modService v f).groups = s.groups := rfl
@[simp] theorem State.modService_zones (s : State) (v : ServiceIx) (f : Service → Service) : (s.modService v f).zones = s.zones := rfl
@[simp] theorem State.modService_inputs (s : State) (v : ServiceIx) (f : Service → Service) : (s.modService v f).inputs = s.inputs := rfl
@[simp] theorem State.modService_arbiter (s : State) (v : ServiceIx) (f : Service → Service) : (s.modService v f).arbiter = s.arbiter := rfl
@[simp] theorem State.modService_combiner (s : State) (v : ServiceIx) (f : Service → Service) : (s.modService v f).combiner = s.combiner := rfl
@[simp] theorem State.modService_path (s : State) (v : ServiceIx) (f : Service → Service) : (s.modService v f).path = s.path := rfl
@[simp] theorem State.modService_orders (s : State) (v : ServiceIx) (f : Service → Service) : (s.modService v f).orders = s.orders := rfl
@[simp] theorem State.modService_notices (s : State) (v : ServiceIx) (f : Service → Service) : (s.modService v f).notices = s.notices := rfl
@[simp] theorem State.modService_poster (s : State) (v : ServiceIx) (f : Service → Service) : (s.modService v f).poster = s.poster := rfl
@[simp] theorem State.modService_pending (s : State) (v : ServiceIx) (f : Service → Service) : (s.modService v f).pending = s.pending := rfl
@[simp] theorem State.modService_link (s : State) (v : ServiceIx) (f : Service → Service) (l' : LinkIx) : (s.modService v f).link l' = s.link l' := rfl
@[simp] theorem State.modService_group (s : State) (v : ServiceIx) (f : Service → Service) (g' : GroupIx) : (s.modService v f).group g' = s.group g' := rfl
@[simp] theorem State.modService_zone (s : State) (v : ServiceIx) (f : Service → Service) (z' : ZoneIx) : (s.modService v f).zone z' = s.zone z' := rfl
@[simp] theorem State.modService_input (s : State) (v : ServiceIx) (f : Service → Service) (i' : InputIx) : (s.modService v f).input i' = s.input i' := rfl

theorem State.modService_service_eq (s : State) (v x : ServiceIx) (f : Service → Service) :
    (s.modService v f).service x = if v = x then f (s.service v) else s.service x := by
  simp only [State.modService, State.service, Fin.getElem_fin, Vector.getElem_set, Fin.val_inj]

@[simp] theorem State.modService_service_same (s : State) (v : ServiceIx) (f : Service → Service) : (s.modService v f).service v = f (s.service v) := by
  simp [State.modService_service_eq]

theorem State.modService_service_other (s : State) (v x : ServiceIx) (f : Service → Service) (h : v ≠ x) : (s.modService v f).service x = s.service x := by
  simp [State.modService_service_eq, h]

/-- Two changes of one record are one. -/
@[simp] theorem State.modService_modService (s : State) (v : ServiceIx) (f k : Service → Service) :
    (s.modService v f).modService v k = s.modService v (fun x => k (f x)) := by
  simp [State.modService, Vector.set_set]

/-! ### modZone: the fields it leaves -/

@[simp] theorem State.modZone_time (s : State) (z : ZoneIx) (f : Zone → Zone) : (s.modZone z f).time = s.time := rfl
@[simp] theorem State.modZone_links (s : State) (z : ZoneIx) (f : Zone → Zone) : (s.modZone z f).links = s.links := rfl
@[simp] theorem State.modZone_groups (s : State) (z : ZoneIx) (f : Zone → Zone) : (s.modZone z f).groups = s.groups := rfl
@[simp] theorem State.modZone_services (s : State) (z : ZoneIx) (f : Zone → Zone) : (s.modZone z f).services = s.services := rfl
@[simp] theorem State.modZone_inputs (s : State) (z : ZoneIx) (f : Zone → Zone) : (s.modZone z f).inputs = s.inputs := rfl
@[simp] theorem State.modZone_arbiter (s : State) (z : ZoneIx) (f : Zone → Zone) : (s.modZone z f).arbiter = s.arbiter := rfl
@[simp] theorem State.modZone_combiner (s : State) (z : ZoneIx) (f : Zone → Zone) : (s.modZone z f).combiner = s.combiner := rfl
@[simp] theorem State.modZone_path (s : State) (z : ZoneIx) (f : Zone → Zone) : (s.modZone z f).path = s.path := rfl
@[simp] theorem State.modZone_orders (s : State) (z : ZoneIx) (f : Zone → Zone) : (s.modZone z f).orders = s.orders := rfl
@[simp] theorem State.modZone_notices (s : State) (z : ZoneIx) (f : Zone → Zone) : (s.modZone z f).notices = s.notices := rfl
@[simp] theorem State.modZone_poster (s : State) (z : ZoneIx) (f : Zone → Zone) : (s.modZone z f).poster = s.poster := rfl
@[simp] theorem State.modZone_pending (s : State) (z : ZoneIx) (f : Zone → Zone) : (s.modZone z f).pending = s.pending := rfl
@[simp] theorem State.modZone_link (s : State) (z : ZoneIx) (f : Zone → Zone) (l' : LinkIx) : (s.modZone z f).link l' = s.link l' := rfl
@[simp] theorem State.modZone_group (s : State) (z : ZoneIx) (f : Zone → Zone) (g' : GroupIx) : (s.modZone z f).group g' = s.group g' := rfl
@[simp] theorem State.modZone_service (s : State) (z : ZoneIx) (f : Zone → Zone) (v' : ServiceIx) : (s.modZone z f).service v' = s.service v' := rfl
@[simp] theorem State.modZone_input (s : State) (z : ZoneIx) (f : Zone → Zone) (i' : InputIx) : (s.modZone z f).input i' = s.input i' := rfl

theorem State.modZone_zone_eq (s : State) (z x : ZoneIx) (f : Zone → Zone) :
    (s.modZone z f).zone x = if z = x then f (s.zone z) else s.zone x := by
  simp only [State.modZone, State.zone, Fin.getElem_fin, Vector.getElem_set, Fin.val_inj]

@[simp] theorem State.modZone_zone_same (s : State) (z : ZoneIx) (f : Zone → Zone) : (s.modZone z f).zone z = f (s.zone z) := by
  simp [State.modZone_zone_eq]

theorem State.modZone_zone_other (s : State) (z x : ZoneIx) (f : Zone → Zone) (h : z ≠ x) : (s.modZone z f).zone x = s.zone x := by
  simp [State.modZone_zone_eq, h]

/-- Two changes of one record are one. -/
@[simp] theorem State.modZone_modZone (s : State) (z : ZoneIx) (f k : Zone → Zone) :
    (s.modZone z f).modZone z k = s.modZone z (fun x => k (f x)) := by
  simp [State.modZone, Vector.set_set]

/-! ### modInput: the fields it leaves -/

@[simp] theorem State.modInput_time (s : State) (i : InputIx) (f : ContactInput → ContactInput) : (s.modInput i f).time = s.time := rfl
@[simp] theorem State.modInput_links (s : State) (i : InputIx) (f : ContactInput → ContactInput) : (s.modInput i f).links = s.links := rfl
@[simp] theorem State.modInput_groups (s : State) (i : InputIx) (f : ContactInput → ContactInput) : (s.modInput i f).groups = s.groups := rfl
@[simp] theorem State.modInput_services (s : State) (i : InputIx) (f : ContactInput → ContactInput) : (s.modInput i f).services = s.services := rfl
@[simp] theorem State.modInput_zones (s : State) (i : InputIx) (f : ContactInput → ContactInput) : (s.modInput i f).zones = s.zones := rfl
@[simp] theorem State.modInput_arbiter (s : State) (i : InputIx) (f : ContactInput → ContactInput) : (s.modInput i f).arbiter = s.arbiter := rfl
@[simp] theorem State.modInput_combiner (s : State) (i : InputIx) (f : ContactInput → ContactInput) : (s.modInput i f).combiner = s.combiner := rfl
@[simp] theorem State.modInput_path (s : State) (i : InputIx) (f : ContactInput → ContactInput) : (s.modInput i f).path = s.path := rfl
@[simp] theorem State.modInput_orders (s : State) (i : InputIx) (f : ContactInput → ContactInput) : (s.modInput i f).orders = s.orders := rfl
@[simp] theorem State.modInput_notices (s : State) (i : InputIx) (f : ContactInput → ContactInput) : (s.modInput i f).notices = s.notices := rfl
@[simp] theorem State.modInput_poster (s : State) (i : InputIx) (f : ContactInput → ContactInput) : (s.modInput i f).poster = s.poster := rfl
@[simp] theorem State.modInput_pending (s : State) (i : InputIx) (f : ContactInput → ContactInput) : (s.modInput i f).pending = s.pending := rfl
@[simp] theorem State.modInput_link (s : State) (i : InputIx) (f : ContactInput → ContactInput) (l' : LinkIx) : (s.modInput i f).link l' = s.link l' := rfl
@[simp] theorem State.modInput_group (s : State) (i : InputIx) (f : ContactInput → ContactInput) (g' : GroupIx) : (s.modInput i f).group g' = s.group g' := rfl
@[simp] theorem State.modInput_service (s : State) (i : InputIx) (f : ContactInput → ContactInput) (v' : ServiceIx) : (s.modInput i f).service v' = s.service v' := rfl
@[simp] theorem State.modInput_zone (s : State) (i : InputIx) (f : ContactInput → ContactInput) (z' : ZoneIx) : (s.modInput i f).zone z' = s.zone z' := rfl

theorem State.modInput_input_eq (s : State) (i x : InputIx) (f : ContactInput → ContactInput) :
    (s.modInput i f).input x = if i = x then f (s.input i) else s.input x := by
  simp only [State.modInput, State.input, Fin.getElem_fin, Vector.getElem_set, Fin.val_inj]

@[simp] theorem State.modInput_input_same (s : State) (i : InputIx) (f : ContactInput → ContactInput) : (s.modInput i f).input i = f (s.input i) := by
  simp [State.modInput_input_eq]

theorem State.modInput_input_other (s : State) (i x : InputIx) (f : ContactInput → ContactInput) (h : i ≠ x) : (s.modInput i f).input x = s.input x := by
  simp [State.modInput_input_eq, h]

/-- Two changes of one record are one. -/
@[simp] theorem State.modInput_modInput (s : State) (i : InputIx) (f k : ContactInput → ContactInput) :
    (s.modInput i f).modInput i k = s.modInput i (fun x => k (f x)) := by
  simp [State.modInput, Vector.set_set]

/-! ### modMgr: the fields it leaves -/

@[simp] theorem State.modMgr_time (s : State) (l : LinkIx) (f : Manager → Manager) : (s.modMgr l f).time = s.time := rfl
@[simp] theorem State.modMgr_groups (s : State) (l : LinkIx) (f : Manager → Manager) : (s.modMgr l f).groups = s.groups := rfl
@[simp] theorem State.modMgr_services (s : State) (l : LinkIx) (f : Manager → Manager) : (s.modMgr l f).services = s.services := rfl
@[simp] theorem State.modMgr_zones (s : State) (l : LinkIx) (f : Manager → Manager) : (s.modMgr l f).zones = s.zones := rfl
@[simp] theorem State.modMgr_inputs (s : State) (l : LinkIx) (f : Manager → Manager) : (s.modMgr l f).inputs = s.inputs := rfl
@[simp] theorem State.modMgr_arbiter (s : State) (l : LinkIx) (f : Manager → Manager) : (s.modMgr l f).arbiter = s.arbiter := rfl
@[simp] theorem State.modMgr_combiner (s : State) (l : LinkIx) (f : Manager → Manager) : (s.modMgr l f).combiner = s.combiner := rfl
@[simp] theorem State.modMgr_path (s : State) (l : LinkIx) (f : Manager → Manager) : (s.modMgr l f).path = s.path := rfl
@[simp] theorem State.modMgr_orders (s : State) (l : LinkIx) (f : Manager → Manager) : (s.modMgr l f).orders = s.orders := rfl
@[simp] theorem State.modMgr_notices (s : State) (l : LinkIx) (f : Manager → Manager) : (s.modMgr l f).notices = s.notices := rfl
@[simp] theorem State.modMgr_poster (s : State) (l : LinkIx) (f : Manager → Manager) : (s.modMgr l f).poster = s.poster := rfl
@[simp] theorem State.modMgr_pending (s : State) (l : LinkIx) (f : Manager → Manager) : (s.modMgr l f).pending = s.pending := rfl
@[simp] theorem State.modMgr_group (s : State) (l : LinkIx) (f : Manager → Manager) (g' : GroupIx) : (s.modMgr l f).group g' = s.group g' := rfl
@[simp] theorem State.modMgr_service (s : State) (l : LinkIx) (f : Manager → Manager) (v' : ServiceIx) : (s.modMgr l f).service v' = s.service v' := rfl
@[simp] theorem State.modMgr_zone (s : State) (l : LinkIx) (f : Manager → Manager) (z' : ZoneIx) : (s.modMgr l f).zone z' = s.zone z' := rfl
@[simp] theorem State.modMgr_input (s : State) (l : LinkIx) (f : Manager → Manager) (i' : InputIx) : (s.modMgr l f).input i' = s.input i' := rfl

theorem State.modMgr_link_eq (s : State) (l x : LinkIx) (f : Manager → Manager) :
    (s.modMgr l f).link x = if l = x then { s.link l with mgr := f (s.link l).mgr } else s.link x := State.modLink_link_eq s l x _

@[simp] theorem State.modMgr_link_same (s : State) (l : LinkIx) (f : Manager → Manager) :
    (s.modMgr l f).link l = { s.link l with mgr := f (s.link l).mgr } := State.modLink_link_same s l _

theorem State.modMgr_link_other (s : State) (l x : LinkIx) (f : Manager → Manager) (h : l ≠ x) : (s.modMgr l f).link x = s.link x :=
  State.modLink_link_other s l x _ h

@[simp] theorem State.modMgr_modMgr (s : State) (l : LinkIx) (f k : Manager → Manager) :
    (s.modMgr l f).modMgr l k = s.modMgr l (fun x => k (f x)) := State.modLink_modLink s l _ _

/-! ### modSettings: the fields it leaves -/

@[simp] theorem State.modSettings_time (s : State) (l : LinkIx) (f : Settings → Settings) : (s.modSettings l f).time = s.time := rfl
@[simp] theorem State.modSettings_groups (s : State) (l : LinkIx) (f : Settings → Settings) : (s.modSettings l f).groups = s.groups := rfl
@[simp] theorem State.modSettings_services (s : State) (l : LinkIx) (f : Settings → Settings) : (s.modSettings l f).services = s.services := rfl
@[simp] theorem State.modSettings_zones (s : State) (l : LinkIx) (f : Settings → Settings) : (s.modSettings l f).zones = s.zones := rfl
@[simp] theorem State.modSettings_inputs (s : State) (l : LinkIx) (f : Settings → Settings) : (s.modSettings l f).inputs = s.inputs := rfl
@[simp] theorem State.modSettings_arbiter (s : State) (l : LinkIx) (f : Settings → Settings) : (s.modSettings l f).arbiter = s.arbiter := rfl
@[simp] theorem State.modSettings_combiner (s : State) (l : LinkIx) (f : Settings → Settings) : (s.modSettings l f).combiner = s.combiner := rfl
@[simp] theorem State.modSettings_path (s : State) (l : LinkIx) (f : Settings → Settings) : (s.modSettings l f).path = s.path := rfl
@[simp] theorem State.modSettings_orders (s : State) (l : LinkIx) (f : Settings → Settings) : (s.modSettings l f).orders = s.orders := rfl
@[simp] theorem State.modSettings_notices (s : State) (l : LinkIx) (f : Settings → Settings) : (s.modSettings l f).notices = s.notices := rfl
@[simp] theorem State.modSettings_poster (s : State) (l : LinkIx) (f : Settings → Settings) : (s.modSettings l f).poster = s.poster := rfl
@[simp] theorem State.modSettings_pending (s : State) (l : LinkIx) (f : Settings → Settings) : (s.modSettings l f).pending = s.pending := rfl
@[simp] theorem State.modSettings_group (s : State) (l : LinkIx) (f : Settings → Settings) (g' : GroupIx) : (s.modSettings l f).group g' = s.group g' := rfl
@[simp] theorem State.modSettings_service (s : State) (l : LinkIx) (f : Settings → Settings) (v' : ServiceIx) : (s.modSettings l f).service v' = s.service v' := rfl
@[simp] theorem State.modSettings_zone (s : State) (l : LinkIx) (f : Settings → Settings) (z' : ZoneIx) : (s.modSettings l f).zone z' = s.zone z' := rfl
@[simp] theorem State.modSettings_input (s : State) (l : LinkIx) (f : Settings → Settings) (i' : InputIx) : (s.modSettings l f).input i' = s.input i' := rfl

theorem State.modSettings_link_eq (s : State) (l x : LinkIx) (f : Settings → Settings) :
    (s.modSettings l f).link x = if l = x then { s.link l with settings := f (s.link l).settings } else s.link x := State.modLink_link_eq s l x _

@[simp] theorem State.modSettings_link_same (s : State) (l : LinkIx) (f : Settings → Settings) :
    (s.modSettings l f).link l = { s.link l with settings := f (s.link l).settings } := State.modLink_link_same s l _

theorem State.modSettings_link_other (s : State) (l x : LinkIx) (f : Settings → Settings) (h : l ≠ x) : (s.modSettings l f).link x = s.link x :=
  State.modLink_link_other s l x _ h

@[simp] theorem State.modSettings_modSettings (s : State) (l : LinkIx) (f k : Settings → Settings) :
    (s.modSettings l f).modSettings l k = s.modSettings l (fun x => k (f x)) := State.modLink_modLink s l _ _

/-! ### modRng: the fields it leaves -/

@[simp] theorem State.modRng_time (s : State) (l : LinkIx) (f : Ranging → Ranging) : (s.modRng l f).time = s.time := rfl
@[simp] theorem State.modRng_groups (s : State) (l : LinkIx) (f : Ranging → Ranging) : (s.modRng l f).groups = s.groups := rfl
@[simp] theorem State.modRng_services (s : State) (l : LinkIx) (f : Ranging → Ranging) : (s.modRng l f).services = s.services := rfl
@[simp] theorem State.modRng_zones (s : State) (l : LinkIx) (f : Ranging → Ranging) : (s.modRng l f).zones = s.zones := rfl
@[simp] theorem State.modRng_inputs (s : State) (l : LinkIx) (f : Ranging → Ranging) : (s.modRng l f).inputs = s.inputs := rfl
@[simp] theorem State.modRng_arbiter (s : State) (l : LinkIx) (f : Ranging → Ranging) : (s.modRng l f).arbiter = s.arbiter := rfl
@[simp] theorem State.modRng_combiner (s : State) (l : LinkIx) (f : Ranging → Ranging) : (s.modRng l f).combiner = s.combiner := rfl
@[simp] theorem State.modRng_path (s : State) (l : LinkIx) (f : Ranging → Ranging) : (s.modRng l f).path = s.path := rfl
@[simp] theorem State.modRng_orders (s : State) (l : LinkIx) (f : Ranging → Ranging) : (s.modRng l f).orders = s.orders := rfl
@[simp] theorem State.modRng_notices (s : State) (l : LinkIx) (f : Ranging → Ranging) : (s.modRng l f).notices = s.notices := rfl
@[simp] theorem State.modRng_poster (s : State) (l : LinkIx) (f : Ranging → Ranging) : (s.modRng l f).poster = s.poster := rfl
@[simp] theorem State.modRng_pending (s : State) (l : LinkIx) (f : Ranging → Ranging) : (s.modRng l f).pending = s.pending := rfl
@[simp] theorem State.modRng_group (s : State) (l : LinkIx) (f : Ranging → Ranging) (g' : GroupIx) : (s.modRng l f).group g' = s.group g' := rfl
@[simp] theorem State.modRng_service (s : State) (l : LinkIx) (f : Ranging → Ranging) (v' : ServiceIx) : (s.modRng l f).service v' = s.service v' := rfl
@[simp] theorem State.modRng_zone (s : State) (l : LinkIx) (f : Ranging → Ranging) (z' : ZoneIx) : (s.modRng l f).zone z' = s.zone z' := rfl
@[simp] theorem State.modRng_input (s : State) (l : LinkIx) (f : Ranging → Ranging) (i' : InputIx) : (s.modRng l f).input i' = s.input i' := rfl

theorem State.modRng_link_eq (s : State) (l x : LinkIx) (f : Ranging → Ranging) :
    (s.modRng l f).link x = if l = x then { s.link l with rng := f (s.link l).rng } else s.link x := State.modLink_link_eq s l x _

@[simp] theorem State.modRng_link_same (s : State) (l : LinkIx) (f : Ranging → Ranging) :
    (s.modRng l f).link l = { s.link l with rng := f (s.link l).rng } := State.modLink_link_same s l _

theorem State.modRng_link_other (s : State) (l x : LinkIx) (f : Ranging → Ranging) (h : l ≠ x) : (s.modRng l f).link x = s.link x :=
  State.modLink_link_other s l x _ h

@[simp] theorem State.modRng_modRng (s : State) (l : LinkIx) (f k : Ranging → Ranging) :
    (s.modRng l f).modRng l k = s.modRng l (fun x => k (f x)) := State.modLink_modLink s l _ _

/-! ### modAlign: the fields it leaves -/

@[simp] theorem State.modAlign_time (s : State) (l : LinkIx) (f : Align → Align) : (s.modAlign l f).time = s.time := rfl
@[simp] theorem State.modAlign_groups (s : State) (l : LinkIx) (f : Align → Align) : (s.modAlign l f).groups = s.groups := rfl
@[simp] theorem State.modAlign_services (s : State) (l : LinkIx) (f : Align → Align) : (s.modAlign l f).services = s.services := rfl
@[simp] theorem State.modAlign_zones (s : State) (l : LinkIx) (f : Align → Align) : (s.modAlign l f).zones = s.zones := rfl
@[simp] theorem State.modAlign_inputs (s : State) (l : LinkIx) (f : Align → Align) : (s.modAlign l f).inputs = s.inputs := rfl
@[simp] theorem State.modAlign_arbiter (s : State) (l : LinkIx) (f : Align → Align) : (s.modAlign l f).arbiter = s.arbiter := rfl
@[simp] theorem State.modAlign_combiner (s : State) (l : LinkIx) (f : Align → Align) : (s.modAlign l f).combiner = s.combiner := rfl
@[simp] theorem State.modAlign_path (s : State) (l : LinkIx) (f : Align → Align) : (s.modAlign l f).path = s.path := rfl
@[simp] theorem State.modAlign_orders (s : State) (l : LinkIx) (f : Align → Align) : (s.modAlign l f).orders = s.orders := rfl
@[simp] theorem State.modAlign_notices (s : State) (l : LinkIx) (f : Align → Align) : (s.modAlign l f).notices = s.notices := rfl
@[simp] theorem State.modAlign_poster (s : State) (l : LinkIx) (f : Align → Align) : (s.modAlign l f).poster = s.poster := rfl
@[simp] theorem State.modAlign_pending (s : State) (l : LinkIx) (f : Align → Align) : (s.modAlign l f).pending = s.pending := rfl
@[simp] theorem State.modAlign_group (s : State) (l : LinkIx) (f : Align → Align) (g' : GroupIx) : (s.modAlign l f).group g' = s.group g' := rfl
@[simp] theorem State.modAlign_service (s : State) (l : LinkIx) (f : Align → Align) (v' : ServiceIx) : (s.modAlign l f).service v' = s.service v' := rfl
@[simp] theorem State.modAlign_zone (s : State) (l : LinkIx) (f : Align → Align) (z' : ZoneIx) : (s.modAlign l f).zone z' = s.zone z' := rfl
@[simp] theorem State.modAlign_input (s : State) (l : LinkIx) (f : Align → Align) (i' : InputIx) : (s.modAlign l f).input i' = s.input i' := rfl

theorem State.modAlign_link_eq (s : State) (l x : LinkIx) (f : Align → Align) :
    (s.modAlign l f).link x = if l = x then { s.link l with align := f (s.link l).align } else s.link x := State.modLink_link_eq s l x _

@[simp] theorem State.modAlign_link_same (s : State) (l : LinkIx) (f : Align → Align) :
    (s.modAlign l f).link l = { s.link l with align := f (s.link l).align } := State.modLink_link_same s l _

theorem State.modAlign_link_other (s : State) (l x : LinkIx) (f : Align → Align) (h : l ≠ x) : (s.modAlign l f).link x = s.link x :=
  State.modLink_link_other s l x _ h

@[simp] theorem State.modAlign_modAlign (s : State) (l : LinkIx) (f k : Align → Align) :
    (s.modAlign l f).modAlign l k = s.modAlign l (fun x => k (f x)) := State.modLink_modLink s l _ _

/-! ### setExchange: the fields it leaves -/

@[simp] theorem State.setExchange_time (s : State) (l : LinkIx) (e : Option Exchange) : (s.setExchange l e).time = s.time := rfl
@[simp] theorem State.setExchange_groups (s : State) (l : LinkIx) (e : Option Exchange) : (s.setExchange l e).groups = s.groups := rfl
@[simp] theorem State.setExchange_services (s : State) (l : LinkIx) (e : Option Exchange) : (s.setExchange l e).services = s.services := rfl
@[simp] theorem State.setExchange_zones (s : State) (l : LinkIx) (e : Option Exchange) : (s.setExchange l e).zones = s.zones := rfl
@[simp] theorem State.setExchange_inputs (s : State) (l : LinkIx) (e : Option Exchange) : (s.setExchange l e).inputs = s.inputs := rfl
@[simp] theorem State.setExchange_arbiter (s : State) (l : LinkIx) (e : Option Exchange) : (s.setExchange l e).arbiter = s.arbiter := rfl
@[simp] theorem State.setExchange_combiner (s : State) (l : LinkIx) (e : Option Exchange) : (s.setExchange l e).combiner = s.combiner := rfl
@[simp] theorem State.setExchange_path (s : State) (l : LinkIx) (e : Option Exchange) : (s.setExchange l e).path = s.path := rfl
@[simp] theorem State.setExchange_orders (s : State) (l : LinkIx) (e : Option Exchange) : (s.setExchange l e).orders = s.orders := rfl
@[simp] theorem State.setExchange_notices (s : State) (l : LinkIx) (e : Option Exchange) : (s.setExchange l e).notices = s.notices := rfl
@[simp] theorem State.setExchange_poster (s : State) (l : LinkIx) (e : Option Exchange) : (s.setExchange l e).poster = s.poster := rfl
@[simp] theorem State.setExchange_pending (s : State) (l : LinkIx) (e : Option Exchange) : (s.setExchange l e).pending = s.pending := rfl
@[simp] theorem State.setExchange_group (s : State) (l : LinkIx) (e : Option Exchange) (g' : GroupIx) : (s.setExchange l e).group g' = s.group g' := rfl
@[simp] theorem State.setExchange_service (s : State) (l : LinkIx) (e : Option Exchange) (v' : ServiceIx) : (s.setExchange l e).service v' = s.service v' := rfl
@[simp] theorem State.setExchange_zone (s : State) (l : LinkIx) (e : Option Exchange) (z' : ZoneIx) : (s.setExchange l e).zone z' = s.zone z' := rfl
@[simp] theorem State.setExchange_input (s : State) (l : LinkIx) (e : Option Exchange) (i' : InputIx) : (s.setExchange l e).input i' = s.input i' := rfl

theorem State.setExchange_link_eq (s : State) (l x : LinkIx) (e : Option Exchange) :
    (s.setExchange l e).link x = if l = x then { s.link l with exchange := e } else s.link x := State.modLink_link_eq s l x _

@[simp] theorem State.setExchange_link_same (s : State) (l : LinkIx) (e : Option Exchange) :
    (s.setExchange l e).link l = { s.link l with exchange := e } := State.modLink_link_same s l _

/-! ### modPath: the fields it leaves -/

@[simp] theorem State.modPath_time (s : State) (f : MemPath → MemPath) : (s.modPath f).time = s.time := rfl
@[simp] theorem State.modPath_links (s : State) (f : MemPath → MemPath) : (s.modPath f).links = s.links := rfl
@[simp] theorem State.modPath_groups (s : State) (f : MemPath → MemPath) : (s.modPath f).groups = s.groups := rfl
@[simp] theorem State.modPath_services (s : State) (f : MemPath → MemPath) : (s.modPath f).services = s.services := rfl
@[simp] theorem State.modPath_zones (s : State) (f : MemPath → MemPath) : (s.modPath f).zones = s.zones := rfl
@[simp] theorem State.modPath_inputs (s : State) (f : MemPath → MemPath) : (s.modPath f).inputs = s.inputs := rfl
@[simp] theorem State.modPath_arbiter (s : State) (f : MemPath → MemPath) : (s.modPath f).arbiter = s.arbiter := rfl
@[simp] theorem State.modPath_combiner (s : State) (f : MemPath → MemPath) : (s.modPath f).combiner = s.combiner := rfl
@[simp] theorem State.modPath_orders (s : State) (f : MemPath → MemPath) : (s.modPath f).orders = s.orders := rfl
@[simp] theorem State.modPath_notices (s : State) (f : MemPath → MemPath) : (s.modPath f).notices = s.notices := rfl
@[simp] theorem State.modPath_poster (s : State) (f : MemPath → MemPath) : (s.modPath f).poster = s.poster := rfl
@[simp] theorem State.modPath_pending (s : State) (f : MemPath → MemPath) : (s.modPath f).pending = s.pending := rfl
@[simp] theorem State.modPath_link (s : State) (f : MemPath → MemPath) (l' : LinkIx) : (s.modPath f).link l' = s.link l' := rfl
@[simp] theorem State.modPath_group (s : State) (f : MemPath → MemPath) (g' : GroupIx) : (s.modPath f).group g' = s.group g' := rfl
@[simp] theorem State.modPath_service (s : State) (f : MemPath → MemPath) (v' : ServiceIx) : (s.modPath f).service v' = s.service v' := rfl
@[simp] theorem State.modPath_zone (s : State) (f : MemPath → MemPath) (z' : ZoneIx) : (s.modPath f).zone z' = s.zone z' := rfl
@[simp] theorem State.modPath_input (s : State) (f : MemPath → MemPath) (i' : InputIx) : (s.modPath f).input i' = s.input i' := rfl

@[simp] theorem State.modPath_path (s : State) (f : MemPath → MemPath) : (s.modPath f).path = f s.path := rfl

/-! ### modOrders: the fields it leaves -/

@[simp] theorem State.modOrders_time (s : State) (f : OrderUnit → OrderUnit) : (s.modOrders f).time = s.time := rfl
@[simp] theorem State.modOrders_links (s : State) (f : OrderUnit → OrderUnit) : (s.modOrders f).links = s.links := rfl
@[simp] theorem State.modOrders_groups (s : State) (f : OrderUnit → OrderUnit) : (s.modOrders f).groups = s.groups := rfl
@[simp] theorem State.modOrders_services (s : State) (f : OrderUnit → OrderUnit) : (s.modOrders f).services = s.services := rfl
@[simp] theorem State.modOrders_zones (s : State) (f : OrderUnit → OrderUnit) : (s.modOrders f).zones = s.zones := rfl
@[simp] theorem State.modOrders_inputs (s : State) (f : OrderUnit → OrderUnit) : (s.modOrders f).inputs = s.inputs := rfl
@[simp] theorem State.modOrders_arbiter (s : State) (f : OrderUnit → OrderUnit) : (s.modOrders f).arbiter = s.arbiter := rfl
@[simp] theorem State.modOrders_combiner (s : State) (f : OrderUnit → OrderUnit) : (s.modOrders f).combiner = s.combiner := rfl
@[simp] theorem State.modOrders_path (s : State) (f : OrderUnit → OrderUnit) : (s.modOrders f).path = s.path := rfl
@[simp] theorem State.modOrders_notices (s : State) (f : OrderUnit → OrderUnit) : (s.modOrders f).notices = s.notices := rfl
@[simp] theorem State.modOrders_poster (s : State) (f : OrderUnit → OrderUnit) : (s.modOrders f).poster = s.poster := rfl
@[simp] theorem State.modOrders_pending (s : State) (f : OrderUnit → OrderUnit) : (s.modOrders f).pending = s.pending := rfl
@[simp] theorem State.modOrders_link (s : State) (f : OrderUnit → OrderUnit) (l' : LinkIx) : (s.modOrders f).link l' = s.link l' := rfl
@[simp] theorem State.modOrders_group (s : State) (f : OrderUnit → OrderUnit) (g' : GroupIx) : (s.modOrders f).group g' = s.group g' := rfl
@[simp] theorem State.modOrders_service (s : State) (f : OrderUnit → OrderUnit) (v' : ServiceIx) : (s.modOrders f).service v' = s.service v' := rfl
@[simp] theorem State.modOrders_zone (s : State) (f : OrderUnit → OrderUnit) (z' : ZoneIx) : (s.modOrders f).zone z' = s.zone z' := rfl
@[simp] theorem State.modOrders_input (s : State) (f : OrderUnit → OrderUnit) (i' : InputIx) : (s.modOrders f).input i' = s.input i' := rfl

@[simp] theorem State.modOrders_orders (s : State) (f : OrderUnit → OrderUnit) : (s.modOrders f).orders = f s.orders := rfl

/-! ### modNotices: the fields it leaves -/

@[simp] theorem State.modNotices_time (s : State) (f : NoticeUnit → NoticeUnit) : (s.modNotices f).time = s.time := rfl
@[simp] theorem State.modNotices_links (s : State) (f : NoticeUnit → NoticeUnit) : (s.modNotices f).links = s.links := rfl
@[simp] theorem State.modNotices_groups (s : State) (f : NoticeUnit → NoticeUnit) : (s.modNotices f).groups = s.groups := rfl
@[simp] theorem State.modNotices_services (s : State) (f : NoticeUnit → NoticeUnit) : (s.modNotices f).services = s.services := rfl
@[simp] theorem State.modNotices_zones (s : State) (f : NoticeUnit → NoticeUnit) : (s.modNotices f).zones = s.zones := rfl
@[simp] theorem State.modNotices_inputs (s : State) (f : NoticeUnit → NoticeUnit) : (s.modNotices f).inputs = s.inputs := rfl
@[simp] theorem State.modNotices_arbiter (s : State) (f : NoticeUnit → NoticeUnit) : (s.modNotices f).arbiter = s.arbiter := rfl
@[simp] theorem State.modNotices_combiner (s : State) (f : NoticeUnit → NoticeUnit) : (s.modNotices f).combiner = s.combiner := rfl
@[simp] theorem State.modNotices_path (s : State) (f : NoticeUnit → NoticeUnit) : (s.modNotices f).path = s.path := rfl
@[simp] theorem State.modNotices_orders (s : State) (f : NoticeUnit → NoticeUnit) : (s.modNotices f).orders = s.orders := rfl
@[simp] theorem State.modNotices_poster (s : State) (f : NoticeUnit → NoticeUnit) : (s.modNotices f).poster = s.poster := rfl
@[simp] theorem State.modNotices_pending (s : State) (f : NoticeUnit → NoticeUnit) : (s.modNotices f).pending = s.pending := rfl
@[simp] theorem State.modNotices_link (s : State) (f : NoticeUnit → NoticeUnit) (l' : LinkIx) : (s.modNotices f).link l' = s.link l' := rfl
@[simp] theorem State.modNotices_group (s : State) (f : NoticeUnit → NoticeUnit) (g' : GroupIx) : (s.modNotices f).group g' = s.group g' := rfl
@[simp] theorem State.modNotices_service (s : State) (f : NoticeUnit → NoticeUnit) (v' : ServiceIx) : (s.modNotices f).service v' = s.service v' := rfl
@[simp] theorem State.modNotices_zone (s : State) (f : NoticeUnit → NoticeUnit) (z' : ZoneIx) : (s.modNotices f).zone z' = s.zone z' := rfl
@[simp] theorem State.modNotices_input (s : State) (f : NoticeUnit → NoticeUnit) (i' : InputIx) : (s.modNotices f).input i' = s.input i' := rfl

@[simp] theorem State.modNotices_notices (s : State) (f : NoticeUnit → NoticeUnit) : (s.modNotices f).notices = f s.notices := rfl

/-! ### modTime: the fields it leaves -/

@[simp] theorem State.modTime_links (s : State) (f : Timebase → Timebase) : (s.modTime f).links = s.links := rfl
@[simp] theorem State.modTime_groups (s : State) (f : Timebase → Timebase) : (s.modTime f).groups = s.groups := rfl
@[simp] theorem State.modTime_services (s : State) (f : Timebase → Timebase) : (s.modTime f).services = s.services := rfl
@[simp] theorem State.modTime_zones (s : State) (f : Timebase → Timebase) : (s.modTime f).zones = s.zones := rfl
@[simp] theorem State.modTime_inputs (s : State) (f : Timebase → Timebase) : (s.modTime f).inputs = s.inputs := rfl
@[simp] theorem State.modTime_arbiter (s : State) (f : Timebase → Timebase) : (s.modTime f).arbiter = s.arbiter := rfl
@[simp] theorem State.modTime_combiner (s : State) (f : Timebase → Timebase) : (s.modTime f).combiner = s.combiner := rfl
@[simp] theorem State.modTime_path (s : State) (f : Timebase → Timebase) : (s.modTime f).path = s.path := rfl
@[simp] theorem State.modTime_orders (s : State) (f : Timebase → Timebase) : (s.modTime f).orders = s.orders := rfl
@[simp] theorem State.modTime_notices (s : State) (f : Timebase → Timebase) : (s.modTime f).notices = s.notices := rfl
@[simp] theorem State.modTime_poster (s : State) (f : Timebase → Timebase) : (s.modTime f).poster = s.poster := rfl
@[simp] theorem State.modTime_pending (s : State) (f : Timebase → Timebase) : (s.modTime f).pending = s.pending := rfl
@[simp] theorem State.modTime_link (s : State) (f : Timebase → Timebase) (l' : LinkIx) : (s.modTime f).link l' = s.link l' := rfl
@[simp] theorem State.modTime_group (s : State) (f : Timebase → Timebase) (g' : GroupIx) : (s.modTime f).group g' = s.group g' := rfl
@[simp] theorem State.modTime_service (s : State) (f : Timebase → Timebase) (v' : ServiceIx) : (s.modTime f).service v' = s.service v' := rfl
@[simp] theorem State.modTime_zone (s : State) (f : Timebase → Timebase) (z' : ZoneIx) : (s.modTime f).zone z' = s.zone z' := rfl
@[simp] theorem State.modTime_input (s : State) (f : Timebase → Timebase) (i' : InputIx) : (s.modTime f).input i' = s.input i' := rfl

@[simp] theorem State.modTime_time (s : State) (f : Timebase → Timebase) : (s.modTime f).time = f s.time := rfl

/-! ### notify: the fields it leaves -/

@[simp] theorem State.notify_time (s : State) (n : Notice) : (s.notify n).time = s.time := rfl
@[simp] theorem State.notify_links (s : State) (n : Notice) : (s.notify n).links = s.links := rfl
@[simp] theorem State.notify_groups (s : State) (n : Notice) : (s.notify n).groups = s.groups := rfl
@[simp] theorem State.notify_services (s : State) (n : Notice) : (s.notify n).services = s.services := rfl
@[simp] theorem State.notify_zones (s : State) (n : Notice) : (s.notify n).zones = s.zones := rfl
@[simp] theorem State.notify_inputs (s : State) (n : Notice) : (s.notify n).inputs = s.inputs := rfl
@[simp] theorem State.notify_arbiter (s : State) (n : Notice) : (s.notify n).arbiter = s.arbiter := rfl
@[simp] theorem State.notify_combiner (s : State) (n : Notice) : (s.notify n).combiner = s.combiner := rfl
@[simp] theorem State.notify_path (s : State) (n : Notice) : (s.notify n).path = s.path := rfl
@[simp] theorem State.notify_orders (s : State) (n : Notice) : (s.notify n).orders = s.orders := rfl
@[simp] theorem State.notify_poster (s : State) (n : Notice) : (s.notify n).poster = s.poster := rfl
@[simp] theorem State.notify_pending (s : State) (n : Notice) : (s.notify n).pending = s.pending := rfl
@[simp] theorem State.notify_link (s : State) (n : Notice) (l' : LinkIx) : (s.notify n).link l' = s.link l' := rfl
@[simp] theorem State.notify_group (s : State) (n : Notice) (g' : GroupIx) : (s.notify n).group g' = s.group g' := rfl
@[simp] theorem State.notify_service (s : State) (n : Notice) (v' : ServiceIx) : (s.notify n).service v' = s.service v' := rfl
@[simp] theorem State.notify_zone (s : State) (n : Notice) (z' : ZoneIx) : (s.notify n).zone z' = s.zone z' := rfl
@[simp] theorem State.notify_input (s : State) (n : Notice) (i' : InputIx) : (s.notify n).input i' = s.input i' := rfl

@[simp] theorem State.notify_notices (s : State) (n : Notice) : (s.notify n).notices = s.notices.generate n := rfl

/-! ### arbitrated: the fields it leaves -/

@[simp] theorem State.arbitrated_time (s : State)  : (s.arbitrated).time = s.time := rfl
@[simp] theorem State.arbitrated_links (s : State)  : (s.arbitrated).links = s.links := rfl
@[simp] theorem State.arbitrated_groups (s : State)  : (s.arbitrated).groups = s.groups := rfl
@[simp] theorem State.arbitrated_services (s : State)  : (s.arbitrated).services = s.services := rfl
@[simp] theorem State.arbitrated_zones (s : State)  : (s.arbitrated).zones = s.zones := rfl
@[simp] theorem State.arbitrated_inputs (s : State)  : (s.arbitrated).inputs = s.inputs := rfl
@[simp] theorem State.arbitrated_arbiter (s : State)  : (s.arbitrated).arbiter = s.arbiter := rfl
@[simp] theorem State.arbitrated_combiner (s : State)  : (s.arbitrated).combiner = s.combiner := rfl
@[simp] theorem State.arbitrated_orders (s : State)  : (s.arbitrated).orders = s.orders := rfl
@[simp] theorem State.arbitrated_notices (s : State)  : (s.arbitrated).notices = s.notices := rfl
@[simp] theorem State.arbitrated_poster (s : State)  : (s.arbitrated).poster = s.poster := rfl
@[simp] theorem State.arbitrated_pending (s : State)  : (s.arbitrated).pending = s.pending := rfl
@[simp] theorem State.arbitrated_link (s : State)  (l' : LinkIx) : (s.arbitrated).link l' = s.link l' := rfl
@[simp] theorem State.arbitrated_group (s : State)  (g' : GroupIx) : (s.arbitrated).group g' = s.group g' := rfl
@[simp] theorem State.arbitrated_service (s : State)  (v' : ServiceIx) : (s.arbitrated).service v' = s.service v' := rfl
@[simp] theorem State.arbitrated_zone (s : State)  (z' : ZoneIx) : (s.arbitrated).zone z' = s.zone z' := rfl
@[simp] theorem State.arbitrated_input (s : State)  (i' : InputIx) : (s.arbitrated).input i' = s.input i' := rfl

@[simp] theorem State.arbitrated_path (s : State) : s.arbitrated.path = s.path.arbitrate := rfl

end Sys2Proof.Machine
end

