-- ==== Sys2Proof/Laws/Ops.lean ====
section
/-! SUPPORT. One lemma for each shared operation that says what it can do: saturating counts, clamps, sample stores, the internal queue
of notices, the posting queue, the memory port, the order unit, the events of a boundary, replans, and folds over the
tables. -/

namespace Sys2Proof.Machine

open Sys2Proof

/-! ## Numbers -/

/-- A held count is one more, or stays at 65,535. -/
theorem bump16_eq_min (n : Nat) (h : n ≤ 65535) : bump16 n = min 65535 (n + 1) := by
  unfold bump16; split <;> omega

theorem bump16_le (n : Nat) (h : n ≤ 65535) : bump16 n ≤ 65535 := by rw [bump16_eq_min n h]; omega

theorem bumpBy16_eq_min (n d : Nat) (h : n ≤ 65535) : bumpBy16 n d = min 65535 (n + d) := by
  unfold bumpBy16; split <;> omega

/-- A clamp is the nearest value of the range. -/
theorem clampNat_eq (lo hi n : Nat) (h : lo ≤ hi) : clampNat lo hi n = max lo (min hi n) := by
  unfold clampNat; split <;> (try split) <;> omega

theorem clampInt_eq (lo hi n : Int) (h : lo ≤ hi) : clampInt lo hi n = max lo (min hi n) := by
  unfold clampInt; split <;> (try split) <;> omega

/-- A value is clamped exactly when it lies outside its range. -/
theorem clampNat_eq_self_iff (lo hi n : Nat) (h : lo ≤ hi) : clampNat lo hi n = n ↔ lo ≤ n ∧ n ≤ hi := by
  rw [clampNat_eq lo hi n h]; omega

theorem clampInt_eq_self_iff (lo hi n : Int) (h : lo ≤ hi) : clampInt lo hi n = n ↔ lo ≤ n ∧ n ≤ hi := by
  rw [clampInt_eq lo hi n h]; omega

/-! ## Sample stores -/

/-- A store whose indices start at lo may be taken to start lower. -/
theorem samplesFrom_mono {lo lo' : Nat} {x : Samples} (h : samplesFrom lo x = true) (hl : lo' ≤ lo) : samplesFrom lo' x = true := by
  cases x with
  | nil => rfl
  | cons e rest =>
    obtain ⟨k, v⟩ := e
    simp only [samplesFrom, Bool.and_eq_true, decide_eq_true_eq] at h ⊢
    exact ⟨⟨by omega, h.1.2⟩, h.2⟩

/-- Below its first index a store holds zeros. -/
theorem sampleAt_of_lt {lo n : Nat} {x : Samples} (h : samplesFrom lo x = true) (hn : n < lo) : sampleAt x n = 0 := by
  induction x generalizing lo with
  | nil => rfl
  | cons e rest ih =>
    obtain ⟨k, v⟩ := e
    simp only [samplesFrom, Bool.and_eq_true, decide_eq_true_eq] at h
    have hk : n ≠ k := by omega
    simp only [sampleAt, hk, if_false]
    exact ih h.2 (by omega)

/-- A read after a write: the written index holds the value written, every other index what it held. -/
theorem sampleAt_setSample {lo : Nat} {x : Samples} (h : samplesFrom lo x = true) (n : Nat) (v : Word) (m : Nat) :
    sampleAt (setSample x n v) m = if m = n then v else sampleAt x m := by
  induction x generalizing lo with
  | nil => by_cases hv : v = 0#32 <;> by_cases hm : m = n <;> simp [setSample, sampleAt, hv, hm]
  | cons e rest ih =>
    obtain ⟨k, w⟩ := e
    simp only [samplesFrom, Bool.and_eq_true, decide_eq_true_eq] at h
    rcases Nat.lt_trichotomy n k with hlt | rfl | hgt
    · by_cases hm : m = n
      · subst hm
        by_cases hv : v = 0#32
        · have h0 := sampleAt_of_lt h.2 (show m < k + 1 by omega)
          simp [setSample, hlt, hv, sampleAt, show m ≠ k by omega, h0]
        · simp [setSample, hlt, hv, sampleAt]
      · by_cases hv : v = 0#32 <;> simp [setSample, hlt, hv, sampleAt, hm]
    · by_cases hm : m = n
      · subst hm
        by_cases hv : v = 0#32
        · have h0 := sampleAt_of_lt h.2 (show m < m + 1 by omega)
          simp [setSample, hv, h0]
        · simp [setSample, hv, sampleAt]
      · by_cases hv : v = 0#32 <;> simp [setSample, hv, sampleAt, hm]
    · have h1 : ¬ n < k := by omega
      have h2 : n ≠ k := by omega
      by_cases hm : m = k
      · subst hm
        have h3 : m ≠ n := by omega
        simp [setSample, h1, h2, sampleAt, h3]
      · simp [setSample, h1, h2, sampleAt, hm, ih h.2]

/-- A write keeps the one form of a store. -/
theorem samplesFrom_setSample {lo : Nat} {x : Samples} (h : samplesFrom lo x = true) (n : Nat) (v : Word) (hn : lo ≤ n) :
    samplesFrom lo (setSample x n v) = true := by
  induction x generalizing lo with
  | nil => by_cases hv : v = 0#32 <;> simp [setSample, samplesFrom, hv, hn]
  | cons e rest ih =>
    obtain ⟨k, w⟩ := e
    simp only [samplesFrom, Bool.and_eq_true, decide_eq_true_eq] at h
    rcases Nat.lt_trichotomy n k with hlt | rfl | hgt
    · by_cases hv : v = 0
      · simp only [setSample, hlt, hv, if_true, samplesFrom, Bool.and_eq_true, decide_eq_true_eq]; exact h
      · simp only [setSample, hlt, hv, if_true, if_false, samplesFrom, Bool.and_eq_true, decide_eq_true_eq, bne_iff_ne]
        exact ⟨⟨hn, hv⟩, ⟨by omega, by simpa using h.1.2⟩, h.2⟩
    · by_cases hv : v = 0
      · simp only [setSample, Nat.lt_irrefl, hv, if_true, if_false]
        exact samplesFrom_mono h.2 (by omega)
      · simp only [setSample, Nat.lt_irrefl, hv, if_true, if_false, samplesFrom, Bool.and_eq_true, decide_eq_true_eq, bne_iff_ne]
        exact ⟨⟨hn, hv⟩, h.2⟩
    · simp only [setSample, show ¬ n < k by omega, show n ≠ k by omega, if_false, samplesFrom, Bool.and_eq_true, decide_eq_true_eq]
      exact ⟨h.1, ih h.2 (by omega)⟩

/-- Every write of a sample store keeps its one form. -/
theorem samplesWf_setSample {x : Samples} (h : samplesWf x = true) (n : Nat) (v : Word) : samplesWf (setSample x n v) = true :=
  samplesFrom_setSample h n v (Nat.zero_le n)

@[simp] theorem samplesWf_nil : samplesWf [] = true := rfl

/-- A fold of writes keeps the one form, and what it leaves at an index is the last value written there. -/
theorem samplesWf_foldl (indices : List Nat) (f : Nat → Word) (x : Samples) (h : samplesWf x = true) :
    samplesWf (indices.foldl (fun acc k => setSample acc k (f k)) x) = true := by
  induction indices generalizing x with
  | nil => exact h
  | cons k rest ih => exact ih _ (samplesWf_setSample h k (f k))

theorem samplesWf_buildSamples (indices : List Nat) (f : Nat → Word) : samplesWf (buildSamples indices f) = true :=
  samplesWf_foldl indices f [] rfl

theorem sampleAt_foldl (indices : List Nat) (f : Nat → Word) (x : Samples) (h : samplesWf x = true) (n : Nat) :
    sampleAt (indices.foldl (fun acc k => setSample acc k (f k)) x) n = if n ∈ indices then f n else sampleAt x n := by
  induction indices generalizing x with
  | nil => simp
  | cons k rest ih =>
    rw [List.foldl_cons, ih _ (samplesWf_setSample h k (f k)), sampleAt_setSample h]
    by_cases hr : n ∈ rest
    · simp [hr]
    · by_cases hk : n = k <;> simp [hr, hk]

/-- A built store holds f at the listed indices and zero elsewhere. -/
theorem sampleAt_buildSamples (indices : List Nat) (f : Nat → Word) (n : Nat) :
    sampleAt (buildSamples indices f) n = if n ∈ indices then f n else 0 := by
  rw [buildSamples, sampleAt_foldl indices f [] rfl]; rfl

/-- Two stores in the one form that hold the same samples are the same store. -/
theorem samples_ext {lo : Nat} {x y : Samples} (hx : samplesFrom lo x = true) (hy : samplesFrom lo y = true)
    (h : ∀ n, sampleAt x n = sampleAt y n) : x = y := by
  induction x generalizing lo y with
  | nil =>
    cases y with
    | nil => rfl
    | cons e rest =>
      obtain ⟨k, v⟩ := e
      simp only [samplesFrom, Bool.and_eq_true, bne_iff_ne] at hy
      have := h k
      simp [sampleAt] at this
      exact absurd this.symm hy.1.2
  | cons e rest ih =>
    obtain ⟨k, v⟩ := e
    have hx' := hx
    simp only [samplesFrom, Bool.and_eq_true, decide_eq_true_eq, bne_iff_ne] at hx
    cases y with
    | nil =>
      have := h k
      simp [sampleAt] at this
      exact absurd this hx.1.2
    | cons e' rest' =>
      obtain ⟨k', v'⟩ := e'
      have hy' := hy
      simp only [samplesFrom, Bool.and_eq_true, decide_eq_true_eq, bne_iff_ne] at hy
      have hk : k = k' := by
        rcases Nat.lt_trichotomy k k' with hlt | heq | hgt
        · have h1 := h k
          simp only [sampleAt, if_true, show k ≠ k' by omega, if_false] at h1
          exact absurd (h1.trans (sampleAt_of_lt hy.2 (by omega))) hx.1.2
        · exact heq
        · have h1 := h k'
          simp only [sampleAt, if_true, show k' ≠ k by omega, if_false] at h1
          exact absurd (h1.symm.trans (sampleAt_of_lt hx.2 (by omega))) hy.1.2
      subst hk
      have hv : v = v' := by have h1 := h k; simpa [sampleAt] using h1
      subst hv
      refine congrArg _ (ih hx.2 hy.2 fun n => ?_)
      by_cases hn : n = k
      · subst hn
        rw [sampleAt_of_lt hx.2 (by omega), sampleAt_of_lt hy.2 (by omega)]
      · have h1 := h n
        simpa [sampleAt, hn] using h1

/-! ## Notices -/

/-- A generated notice joins the tail, or its kind's lost count goes up. -/
theorem NoticeUnit.generate_cases (u : NoticeUnit) (n : Notice) :
    (u.queue.length < 16 ∧ u.generate n = { u with queue := u.queue ++ [n] }) ∨
      (16 ≤ u.queue.length ∧ u.generate n = { u with lost := u.lost.set n.lostIx (bump16 u.lost[n.lostIx]) }) := by
  unfold NoticeUnit.generate
  split
  · exact .inl ⟨‹_›, rfl⟩
  · exact .inr ⟨by omega, rfl⟩

theorem NoticeUnit.generate_queue_length (u : NoticeUnit) (n : Notice) (h : u.queue.length ≤ 16) : (u.generate n).queue.length ≤ 16 := by
  obtain ⟨hl, h⟩ | ⟨_, h⟩ := u.generate_cases n <;> simp [h] <;> omega

@[simp] theorem NoticeUnit.generate_written (u : NoticeUnit) (n : Notice) : (u.generate n).written = u.written := by
  obtain ⟨_, h⟩ | ⟨_, h⟩ := u.generate_cases n <;> rw [h]
@[simp] theorem NoticeUnit.generate_posted (u : NoticeUnit) (n : Notice) : (u.generate n).posted = u.posted := by
  obtain ⟨_, h⟩ | ⟨_, h⟩ := u.generate_cases n <;> rw [h]
@[simp] theorem NoticeUnit.generate_consumed (u : NoticeUnit) (n : Notice) : (u.generate n).consumed = u.consumed := by
  obtain ⟨_, h⟩ | ⟨_, h⟩ := u.generate_cases n <;> rw [h]
@[simp] theorem NoticeUnit.generate_handing (u : NoticeUnit) (n : Notice) : (u.generate n).handing = u.handing := by
  obtain ⟨_, h⟩ | ⟨_, h⟩ := u.generate_cases n <;> rw [h]
@[simp] theorem NoticeUnit.generate_nirq (u : NoticeUnit) (n : Notice) : (u.generate n).nirq = u.nirq := by
  obtain ⟨_, h⟩ | ⟨_, h⟩ := u.generate_cases n <;> rw [h]
@[simp] theorem NoticeUnit.generate_irqEnable (u : NoticeUnit) (n : Notice) : (u.generate n).irqEnable = u.irqEnable := by
  obtain ⟨_, h⟩ | ⟨_, h⟩ := u.generate_cases n <;> rw [h]
@[simp] theorem NoticeUnit.generate_holdState (u : NoticeUnit) (n : Notice) : (u.generate n).holdState = u.holdState := by
  obtain ⟨_, h⟩ | ⟨_, h⟩ := u.generate_cases n <;> rw [h]

/-! ## The posting queue and the memory port -/

@[simp] theorem MemPath.push_queue (m : MemPath) (p : Posting) : (m.push p).queue = m.queue ++ [p] := rfl
@[simp] theorem MemPath.push_port (m : MemPath) (p : Posting) : (m.push p).port = m.port := rfl
@[simp] theorem MemPath.push_access (m : MemPath) (p : Posting) : (m.push p).access = m.access := rfl
@[simp] theorem MemPath.push_inReset (m : MemPath) (p : Posting) : (m.push p).inReset = m.inReset := rfl
@[simp] theorem MemPath.push_windowBase (m : MemPath) (p : Posting) : (m.push p).windowBase = m.windowBase := rfl

/-- The arbiter of the memory port leaves a busy port, grants a WAITING host access where pressure or an empty queue lets it, and else
grants the head of the queue; it does nothing more. -/
theorem MemPath.arbitrate_cases (m : MemPath) :
    (m.arbitrate = m ∧ (m.port ≠ .idle ∨ (m.hostWaiting = false ∧ m.queue = []))) ∨
    (m.arbitrate = m.grantHost ∧ m.port = .idle ∧ m.hostWaiting = true ∧ (m.queue = [] ∨ m.pressure = false)) ∨
    (m.arbitrate = { m with port := .posting } ∧ m.port = .idle ∧ m.queue ≠ [] ∧ (m.hostWaiting = false ∨ m.pressure = true)) := by
  unfold MemPath.arbitrate
  by_cases hp : m.port = .idle
  · cases hw : m.hostWaiting <;> cases hq : m.queue <;> cases hr : m.pressure <;> simp [hp]
  · simp [hp]

@[simp] theorem MemPath.arbitrate_queue (m : MemPath) : m.arbitrate.queue = m.queue := by
  obtain ⟨h, _⟩ | ⟨h, _⟩ | ⟨h, _⟩ := m.arbitrate_cases <;> rw [h] <;> rfl
@[simp] theorem MemPath.arbitrate_inReset (m : MemPath) : m.arbitrate.inReset = m.inReset := by
  obtain ⟨h, _⟩ | ⟨h, _⟩ | ⟨h, _⟩ := m.arbitrate_cases <;> rw [h] <;> rfl
@[simp] theorem MemPath.arbitrate_windowBase (m : MemPath) : m.arbitrate.windowBase = m.windowBase := by
  obtain ⟨h, _⟩ | ⟨h, _⟩ | ⟨h, _⟩ := m.arbitrate_cases <;> rw [h] <;> rfl
@[simp] theorem MemPath.arbitrate_pressure (m : MemPath) : m.arbitrate.pressure = m.pressure := by
  obtain ⟨h, _⟩ | ⟨h, _⟩ | ⟨h, _⟩ := m.arbitrate_cases <;> rw [h] <;> rfl
@[simp] theorem MemPath.arbitrate_largest (m : MemPath) : m.arbitrate.largest = m.largest := by
  obtain ⟨h, _⟩ | ⟨h, _⟩ | ⟨h, _⟩ := m.arbitrate_cases <;> rw [h] <;> rfl

theorem MemPath.arbitrate_of_busy (m : MemPath) (h : m.port ≠ .idle) : m.arbitrate = m := by simp [MemPath.arbitrate, h]

/-- The word addresses of an access are consecutive. -/
theorem mem_accessAddrs (a x : BitVec 28) (n : Nat) : x ∈ accessAddrs a n ↔ ∃ i, i < n ∧ x = a + BitVec.ofNat 28 i := by
  induction n generalizing a with
  | zero => simp [accessAddrs]
  | succ n ih =>
    rw [accessAddrs, List.mem_cons, ih]
    constructor
    · rintro (rfl | ⟨i, hi, rfl⟩)
      · exact ⟨0, by omega, by simp⟩
      · refine ⟨i + 1, by omega, ?_⟩
        rw [Nat.add_comm i 1, BitVec.ofNat_add, BitVec.add_assoc]; rfl
    · rintro ⟨i, hi, rfl⟩
      cases i with
      | zero => exact .inl (by simp)
      | succ i =>
        refine .inr ⟨i, by omega, ?_⟩
        rw [Nat.add_comm i 1, BitVec.ofNat_add, BitVec.add_assoc]; rfl

/-- The release mark is the position of the youngest entry that overlaps. -/
theorem releaseMark_eq_some (q : List Posting) (addrs : List (BitVec 28)) (k : Nat) :
    releaseMark q addrs = some k ↔
      (∃ p, q[k]? = some p ∧ p.overlaps addrs = true) ∧ ∀ j p, k < j → q[j]? = some p → p.overlaps addrs = false := by
  induction q generalizing k with
  | nil => simp [releaseMark]
  | cons p rest ih =>
    unfold releaseMark
    cases hr : releaseMark rest addrs with
    | some m =>
      have hm := (ih m).1 hr
      obtain ⟨⟨pm, hpm, hov⟩, hlast⟩ := hm
      constructor
      · rintro h
        obtain rfl : m + 1 = k := by simpa using h
        refine ⟨⟨pm, by simpa using hpm, hov⟩, fun j q hj hq => ?_⟩
        obtain ⟨j, rfl⟩ : ∃ i, j = i + 1 := ⟨j - 1, by omega⟩
        exact hlast j q (by omega) (by simpa using hq)
      · rintro ⟨⟨x, hx, hxo⟩, hl⟩
        rcases Nat.lt_trichotomy k (m + 1) with h | h | h
        · have := hl (m + 1) pm h (by simpa using hpm)
          simp [hov] at this
        · simp [h]
        · obtain ⟨k, rfl⟩ : ∃ i, k = i + 1 := ⟨k - 1, by omega⟩
          have := hlast k x (by omega) (by simpa using hx)
          simp [hxo] at this
    | none =>
      have hno : ∀ (j : Nat) (x : Posting), rest[j]? = some x → x.overlaps addrs = false := by
        clear ih
        induction rest with
        | nil => simp
        | cons y ys ihy =>
          unfold releaseMark at hr
          cases hy : releaseMark ys addrs with
          | some m => simp [hy] at hr
          | none =>
            rw [hy] at hr
            intro j x hx
            cases j with
            | zero =>
              obtain rfl : y = x := by simpa using hx
              cases ho : y.overlaps addrs with
              | false => rfl
              | true => simp [ho] at hr
            | succ j => exact ihy hy j x (by simpa using hx)
      cases ho : p.overlaps addrs with
      | true =>
        constructor
        · rintro h
          obtain rfl : 0 = k := by simpa using h
          refine ⟨⟨p, by simp, ho⟩, fun j q hj hq => ?_⟩
          obtain ⟨j, rfl⟩ : ∃ i, j = i + 1 := ⟨j - 1, by omega⟩
          exact hno j q (by simpa using hq)
        · rintro ⟨⟨x, hx, hxo⟩, _⟩
          cases k with
          | zero => simp
          | succ k =>
            have := hno k x (by simpa using hx)
            simp [hxo] at this
      | false =>
        simp only [Bool.false_eq_true, if_false]
        constructor
        · intro h; simp at h
        · rintro ⟨⟨x, hx, hxo⟩, _⟩
          cases k with
          | zero =>
            obtain rfl : p = x := by simpa using hx
            simp [ho] at hxo
          | succ k =>
            have := hno k x (by simpa using hx)
            simp [hxo] at this

/-! ## The order unit -/

/-- A result goes to the posting queue, or waits while the queue is full. -/
theorem State.handResult_cases (s : State) (p : Posting) :
    (s.path.queue.length < 64 ∧ s.handResult p = s.modPath (fun m => m.push p)) ∨
      (64 ≤ s.path.queue.length ∧ s.handResult p = s.modOrders (fun u => { u with result := some p })) := by
  unfold State.handResult MemPath.hasRoom
  by_cases h : s.path.queue.length < 64
  · exact .inl ⟨h, by simp [h]⟩
  · exact .inr ⟨by omega, by simp [h]⟩

/-- An order is taken only where none is executing and the slot at the consumer index is pending. -/
theorem State.takeNext_cases (s : State) :
    (s.orders.executing = none ∧ s.orders.frozen s.orders.consumer = true ∧
      s.takeNext = s.execute s.orders.consumer (orderOfWords s.orders.shadow[s.orders.consumer])) ∨
    ((s.orders.executing ≠ none ∨ s.orders.frozen s.orders.consumer = false) ∧ s.takeNext = s) := by
  unfold State.takeNext
  cases he : s.orders.executing with
  | none => cases hf : s.orders.frozen s.orders.consumer <;> simp [he, hf]
  | some x => simp [he]

/-- The words of an order's slot spell the order. -/
theorem orderOfWords_wordsOfOrder (o : Order) : orderOfWords (wordsOfOrder o) = o := by
  obtain ⟨code, index, tag, p1, p2, p3, p4, p5, p6⟩ := o
  simp only [orderOfWords, wordsOfOrder, Order.mk.injEq]
  have h (k : Nat) : BitVec.getLsbD (w := 16 + 8 + 8) (tag ++ index ++ code) k =
      if k < 8 then code.getLsbD k else if k - 8 < 8 then index.getLsbD (k - 8) else tag.getLsbD (k - 8 - 8) := by
    rw [BitVec.getLsbD_append, BitVec.getLsbD_append]
  refine ⟨?_, ?_, ?_, rfl, rfl, rfl, rfl, rfl, rfl⟩ <;> ext i hi <;>
    rw [BitVec.getElem_extractLsb'] <;> refine (h _).trans ?_
  · simp [hi, BitVec.getLsbD_eq_getElem]
  · simp [show ¬ 8 + i < 8 by omega, hi, BitVec.getLsbD_eq_getElem]
  · simp [show ¬ 16 + i < 8 by omega, show ¬ 16 + i - 8 < 8 by omega, show 16 + i - 8 - 8 = i by omega, hi, BitVec.getLsbD_eq_getElem]

/-! ## Commands -/

theorem State.running_of_released (s t : State) (h : s.path.inReset = false) : s.running t = .next t := by simp [State.running, h]

/-- What a boundary event does: it acts at the present boundary where it is due there, at the next where it is due there, or not at
all. -/
theorem State.boundaryEvent_cases (s : State) (due : State → Bool) (act : State → State) :
    (due s = true ∧ s.boundaryEvent due act = act s) ∨
    (due s = false ∧ s.time.blockOwed = false ∧ due s.atBoundary = true ∧ s.boundaryEvent due act = act s.atBoundary) ∨
    (due s = false ∧ (s.time.blockOwed = true ∨ due s.atBoundary = false) ∧ s.boundaryEvent due act = s) := by
  unfold State.boundaryEvent State.atBoundary
  cases due s <;> cases s.time.blockOwed <;> cases h : due s.beginBoundary <;> simp [h]

/-- What a replan does: it is deferred, it finds its carried set in force, or it stages a plan. -/
theorem State.replan_cases (s : State) (z : ZoneIx) :
    ((s.zone z).staged.isSome = true ∧ s.replan z = s.modZone z (fun x => { x with deferred := true })) ∨
    ((s.zone z).staged = none ∧ s.carriedSet z = carriedOf (s.zone z).entries ∧ s.replan z = s) ∨
    ((s.zone z).staged = none ∧ s.carriedSet z ≠ carriedOf (s.zone z).entries ∧
      s.replan z = (s.modZone z (fun x => { x with staged := some (s.newPlan z) })).openExchanges z (s.newPlan z)) := by
  unfold State.replan
  cases h : (s.zone z).staged with
  | some p => simp
  | none => by_cases hc : s.carriedSet z = carriedOf (s.zone z).entries <;> simp [hc]

/-! ## Folds over the tables -/

theorem foldl_induct {α β : Type} (P : β → Prop) (f : β → α → β) (h : ∀ b a, P b → P (f b a)) (xs : List α) (b : β) (hb : P b) :
    P (xs.foldl f b) := by
  induction xs generalizing b with
  | nil => exact hb
  | cons x rest ih => exact ih _ (h b x hb)

/-- What every link's turn keeps, the pass over the links keeps. -/
theorem State.forLinks_induct (P : State → Prop) (f : State → LinkIx → State) (h : ∀ s l, P s → P (f s l)) (s : State) (hs : P s) :
    P (s.forLinks f) := foldl_induct P f h allLinks s hs
theorem State.forServices_induct (P : State → Prop) (f : State → ServiceIx → State) (h : ∀ s v, P s → P (f s v)) (s : State) (hs : P s) :
    P (s.forServices f) := foldl_induct P f h allServices s hs
theorem State.forZones_induct (P : State → Prop) (f : State → ZoneIx → State) (h : ∀ s z, P s → P (f s z)) (s : State) (hs : P s) :
    P (s.forZones f) := foldl_induct P f h allZones s hs
theorem State.forGroups_induct (P : State → Prop) (f : State → GroupIx → State) (h : ∀ s g, P s → P (f s g)) (s : State) (hs : P s) :
    P (s.forGroups f) := foldl_induct P f h allGroups s hs
theorem State.forInputs_induct (P : State → Prop) (f : State → InputIx → State) (h : ∀ s i, P s → P (f s i)) (s : State) (hs : P s) :
    P (s.forInputs f) := foldl_induct P f h allInputs s hs

end Sys2Proof.Machine
end

