-- ==== Sys2Proof/Laws/PerInstr.lean ====
section
/-! SUPPORT. The family Shape, one lemma per command: what a command is as syntax. An order command spells one order, which its slot's
words give back, with a code of 10.1's catalogue, or else of none; a bus access has 1 to 8 words; the other commands are always
well-formed. -/

namespace Sys2Proof.Laws.Shape

open Sys2Proof Sys2Proof.Machine

/-- The number of words of a bus access of any length. -/
def accessLength : Instr → Option Nat
  | .orderSlotWrite _ _ ws => some ws.length
  | .commitWordWrite _ ws => some ws.length
  | .streamSampleWrite _ ws => some ws.length
  | .ownedAreaWrite _ ws => some ws.length
  | .hostWrite _ ws => some ws.length
  | .hostRead _ n => some n
  | _ => none

/-- What a command is as syntax. -/
def Statement (i : Instr) : Prop :=
  (∀ o, commandOrder i = some o → orderOfWords (wordsOfOrder o) = o ∧
    (WellFormed i = true → (unknownCodeOk o.code = true ↔ ∃ c x t, i = .unknownOrder c x t))) ∧
  (∀ n, accessLength i = some n → (WellFormed i = true ↔ 1 ≤ n ∧ n ≤ 8))

/-- A command that is neither an order nor an access of a chosen length. -/
theorem of_neither (i : Instr) (h : commandOrder i = none) (h' : accessLength i = none) : Statement i :=
  ⟨fun o ho => by simp [h] at ho, fun n hn => by simp [h'] at hn⟩

/-- An order command of a code of the catalogue. -/
theorem of_known (i : Instr) (o : Order) (h : commandOrder i = some o) (hc : unknownCodeOk o.code = false)
    (h' : accessLength i = none) (hu : ∀ c x t, i ≠ .unknownOrder c x t) : Statement i := by
  refine ⟨fun o' ho => ?_, fun n hn => by simp [h'] at hn⟩
  obtain rfl : o = o' := by simpa [h] using ho
  exact ⟨orderOfWords_wordsOfOrder o, fun _ => ⟨fun h => by simp [hc] at h, fun ⟨c, x, t, h⟩ => absurd h (hu c x t)⟩⟩

/-- A bus access of n words, well-formed by its length. -/
theorem of_access (i : Instr) (n : Nat) (h : accessLength i = some n) (h' : commandOrder i = none)
    (hw : WellFormed i = accessLengthOk n) : Statement i := by
  refine ⟨fun o ho => by simp [h'] at ho, fun m hm => ?_⟩
  obtain rfl : n = m := by simpa [h] using hm
  simp [hw, accessLengthOk]

theorem blockBoundary (levels : BitVec 4) : Statement (.blockBoundary levels) := of_neither _ rfl rfl
theorem superframeBoundary : Statement .superframeBoundary := of_neither _ rfl rfl
theorem resetAssert : Statement .resetAssert := of_neither _ rfl rfl
theorem resetRelease (straps : BitVec 14) : Statement (.resetRelease straps) := of_neither _ rfl rfl
theorem lockGained (l : LinkIx) : Statement (.lockGained l) := of_neither _ rfl rfl
theorem lockLost (l : LinkIx) : Statement (.lockLost l) := of_neither _ rfl rfl
theorem uplinkFrameArrival (l : LinkIx) (frame : UplinkFrame) : Statement (.uplinkFrameArrival l frame) := of_neither _ rfl rfl
theorem attach (l : LinkIx) : Statement (.attach l) := of_neither _ rfl rfl
theorem settlePeriodEnd (l : LinkIx) : Statement (.settlePeriodEnd l) := of_neither _ rfl rfl
theorem debounceEnd (l : LinkIx) : Statement (.debounceEnd l) := of_neither _ rfl rfl
theorem helloWaitExpiry (l : LinkIx) : Statement (.helloWaitExpiry l) := of_neither _ rfl rfl
theorem quiescingEnd (l : LinkIx) : Statement (.quiescingEnd l) := of_neither _ rfl rfl
theorem requestDeadlineExpiry (l : LinkIx) : Statement (.requestDeadlineExpiry l) := of_neither _ rfl rfl
theorem echoWindowClose (l : LinkIx) : Statement (.echoWindowClose l) := of_neither _ rfl rfl
theorem trackWindowClose (l : LinkIx) : Statement (.trackWindowClose l) := of_neither _ rfl rfl
theorem trackingMark (l : LinkIx) : Statement (.trackingMark l) := of_neither _ rfl rfl
theorem holdExpiry (g : GroupIx) : Statement (.holdExpiry g) := of_neither _ rfl rfl
theorem registeredChange (i : InputIx) : Statement (.registeredChange i) := of_neither _ rfl rfl
theorem planSwitch (z : ZoneIx) : Statement (.planSwitch z) := of_neither _ rfl rfl
theorem joinSwitchSuperframe : Statement .joinSwitchSuperframe := of_neither _ rfl rfl
theorem setService (index : BitVec 8) (tag : BitVec 16) (w1 w2 w3 w4 w5 w6 : Word) :
    Statement (.setService index tag w1 w2 w3 w4 w5 w6) := of_known _ _ rfl rfl rfl (fun _ _ _ h => by cases h)
theorem enableService (index : BitVec 8) (tag : BitVec 16) :
    Statement (.enableService index tag) := of_known _ _ rfl rfl rfl (fun _ _ _ h => by cases h)
theorem disableService (index : BitVec 8) (tag : BitVec 16) :
    Statement (.disableService index tag) := of_known _ _ rfl rfl rfl (fun _ _ _ h => by cases h)
theorem clearService (index : BitVec 8) (tag : BitVec 16) :
    Statement (.clearService index tag) := of_known _ _ rfl rfl rfl (fun _ _ _ h => by cases h)
theorem setLink (index : BitVec 8) (tag : BitVec 16) (w1 w2 w3 w4 : Word) :
    Statement (.setLink index tag w1 w2 w3 w4) := of_known _ _ rfl rfl rfl (fun _ _ _ h => by cases h)
theorem linkListen (index : BitVec 8) (tag : BitVec 16) :
    Statement (.linkListen index tag) := of_known _ _ rfl rfl rfl (fun _ _ _ h => by cases h)
theorem linkRange (index : BitVec 8) (tag : BitVec 16) :
    Statement (.linkRange index tag) := of_known _ _ rfl rfl rfl (fun _ _ _ h => by cases h)
theorem linkActivate (index : BitVec 8) (tag : BitVec 16) :
    Statement (.linkActivate index tag) := of_known _ _ rfl rfl rfl (fun _ _ _ h => by cases h)
theorem linkQuiesce (index : BitVec 8) (tag : BitVec 16) :
    Statement (.linkQuiesce index tag) := of_known _ _ rfl rfl rfl (fun _ _ _ h => by cases h)
theorem linkAbort (index : BitVec 8) (tag : BitVec 16) :
    Statement (.linkAbort index tag) := of_known _ _ rfl rfl rfl (fun _ _ _ h => by cases h)
theorem linkDark (index : BitVec 8) (tag : BitVec 16) :
    Statement (.linkDark index tag) := of_known _ _ rfl rfl rfl (fun _ _ _ h => by cases h)
theorem linkQuery (index : BitVec 8) (tag : BitVec 16) (w1 : Word) :
    Statement (.linkQuery index tag w1) := of_known _ _ rfl rfl rfl (fun _ _ _ h => by cases h)
theorem setGroup (index : BitVec 8) (tag : BitVec 16) (w1 : Word) :
    Statement (.setGroup index tag w1) := of_known _ _ rfl rfl rfl (fun _ _ _ h => by cases h)
theorem setZone (index : BitVec 8) (tag : BitVec 16) (w1 : Word) :
    Statement (.setZone index tag w1) := of_known _ _ rfl rfl rfl (fun _ _ _ h => by cases h)
theorem zoneIncident (index : BitVec 8) (tag : BitVec 16) (w1 w2 : Word) :
    Statement (.zoneIncident index tag w1 w2) := of_known _ _ rfl rfl rfl (fun _ _ _ h => by cases h)
theorem setLine (index : BitVec 8) (tag : BitVec 16) (w1 w2 : Word) :
    Statement (.setLine index tag w1 w2) := of_known _ _ rfl rfl rfl (fun _ _ _ h => by cases h)
theorem lineAck (index : BitVec 8) (tag : BitVec 16) :
    Statement (.lineAck index tag) := of_known _ _ rfl rfl rfl (fun _ _ _ h => by cases h)
theorem breakinStart (index : BitVec 8) (tag : BitVec 16) (w1 : Word) :
    Statement (.breakinStart index tag w1) := of_known _ _ rfl rfl rfl (fun _ _ _ h => by cases h)
theorem breakinStop (index : BitVec 8) (tag : BitVec 16) :
    Statement (.breakinStop index tag) := of_known _ _ rfl rfl rfl (fun _ _ _ h => by cases h)
theorem setNotices (index : BitVec 8) (tag : BitVec 16) (w1 w2 : Word) :
    Statement (.setNotices index tag w1 w2) := of_known _ _ rfl rfl rfl (fun _ _ _ h => by cases h)
theorem unknownOrder (code : BitVec 8) (index : BitVec 8) (tag : BitVec 16) : Statement (.unknownOrder code index tag) := by
  refine ⟨fun o ho => ?_, fun n hn => by simp [accessLength] at hn⟩
  obtain rfl : plainOrder code index tag = o := by simpa [commandOrder] using ho
  exact ⟨orderOfWords_wordsOfOrder _, fun h => ⟨fun _ => ⟨code, index, tag, rfl⟩, fun _ => h⟩⟩
theorem orderSlotWrite (slot : Fin 32) (word : Fin 8) (words : List BusWord) : Statement (.orderSlotWrite slot word words) :=
  of_access _ _ rfl rfl rfl
theorem orderProducerIndexWrite (word : BusWord) : Statement (.orderProducerIndexWrite word) := of_neither _ rfl rfl
theorem noticeConsumerIndexWrite (word : BusWord) : Statement (.noticeConsumerIndexWrite word) := of_neither _ rfl rfl
theorem flushWordRead : Statement .flushWordRead := of_neither _ rfl rfl
theorem commitWordWrite (addr : BitVec 28) (words : List BusWord) : Statement (.commitWordWrite addr words) :=
  of_access _ _ rfl rfl rfl
theorem streamSampleWrite (addr : BitVec 28) (words : List BusWord) : Statement (.streamSampleWrite addr words) :=
  of_access _ _ rfl rfl rfl
theorem ownedAreaWrite (addr : BitVec 28) (words : List BusWord) : Statement (.ownedAreaWrite addr words) :=
  of_access _ _ rfl rfl rfl
theorem hostWrite (addr : BitVec 28) (words : List BusWord) : Statement (.hostWrite addr words) :=
  of_access _ _ rfl rfl rfl
theorem heldAccessRelease : Statement .heldAccessRelease := of_neither _ rfl rfl
theorem memoryPortCompletion : Statement .memoryPortCompletion := of_neither _ rfl rfl
theorem postingEnqueue (p : Producer) : Statement (.postingEnqueue p) := of_neither _ rfl rfl
theorem noticeHandover : Statement .noticeHandover := of_neither _ rfl rfl
theorem noticesLost : Statement .noticesLost := of_neither _ rfl rfl
theorem hostRead (addr : BitVec 28) (count : Nat) : Statement (.hostRead addr count) :=
  of_access _ _ rfl rfl rfl

end Sys2Proof.Laws.Shape
end

