-- ==== Sys2Proof/Laws/Terms.lean ====
section
/-! SUPPORT. Lemmas between the terms the statements use (Safety.lean) and the operations of the machine. -/

namespace Sys2Proof.Machine
open Sys2Proof

/-- What Service.count leaves as it was: all but the totals and the streams. -/
theorem Service.count_frame (y : Service) (n : StreamName) (c : CounterName) :
    y.count n c = { y with totals := (y.count n c).totals, streams := (y.count n c).streams } := by
  unfold Service.count; split <;> rfl

/-- What Group.countHold leaves as it was: all but the hold and the note that it has been counted. -/
theorem Group.countHold_frame (g : Group) : g.countHold = { g with hold := g.countHold.hold, counted := false } := by
  unfold Group.countHold; split
  · rfl
  · rename_i h; simp [h]

/-- An area word, its base by 10.5's bits. -/
theorem areaOf_eq (w : Word) : areaOf w = if w.getLsbD 31 = true then
    some { base := 32 * (w.extractLsb' 5 25).toNat, blocks := (w.extractLsb' 0 5).toNat } else none := by
  have h : (w &&& 0x3FFFFFE0#32).toNat = 32 * (w.extractLsb' 5 25).toNat := by
    have e : w &&& 0x3FFFFFE0#32 = ((w.extractLsb' 5 25).setWidth 32) <<< 5 := by
      ext i hi
      interval_cases i <;> simp
    rw [e]; simp [BitVec.toNat_shiftLeft]; omega
  unfold areaOf fieldAt; rw [h]

/-- On an idle path an access that waits is granted at once. -/
theorem State.withArrival_of_idle (t : State) (isWrite : Bool) (words : List AccessWord) (hq : t.path.queue = []) (hp : t.path.port = .idle) :
    t.withArrival isWrite words .waiting = t.withAccess isWrite words := by
  simp [State.withArrival, State.withAccess, MemPath.arbitrate, MemPath.hostWaiting, MemPath.grantHost, hq, hp]

/-- Nothing queued: every access waits. -/
theorem State.stands_of_empty {s : State} {addrs : List (BitVec 28)} (h : s.path.queue = []) {x : AccessStanding} (hx : s.stands addrs x) :
    x = .waiting := by
  obtain ⟨h1, -⟩ | ⟨k, q, -, hq, -⟩ := hx
  · exact h1
  · rw [h] at hq; cases hq

/-- What makes a TRACKING_MARK due: sixteen counts, or fifteen and the present boundary's own still owed. -/
theorem State.markDue_iff (s : State) (l : LinkIx) : s.markDue l = true ↔
    (s.link l).mgr.state = .active ∧ (s.link l).rng.run = none ∧ (16 ≤ (s.link l).rng.trackCount ∨
      ((s.link l).rng.trackCount = 15 ∧ s.time.superframeOwed = true ∧ (s.link l).rng.skipCount = false)) := by
  simp only [State.markDue, State.trackingDue, State.lastTrackCountDue, Bool.or_eq_true, Bool.and_eq_true, beq_iff_eq,
    Option.isNone_iff_eq_none, Bool.not_eq_true', decide_eq_true_eq]
  tauto

/-- The gate record after a block is the one R145 gives. -/
theorem Gate.after_eq_update (g : Gate) (e h : Nat) : g.after e h = g.update e h := by
  obtain ⟨en, fl, o, cc⟩ := g
  have hm : (if e < fl then e else fl) = min e fl := by split <;> omega
  cases o
  · by_cases h1 : 4 * min e fl < e <;> simp [Gate.after, Gate.update, Gate.floorFall, Gate.decision, Gate.floorRise, hm, h1]
  · by_cases h1 : e ≤ 2 * min e fl <;> by_cases h2 : h ≤ cc + 1 <;>
      simp [Gate.after, Gate.update, Gate.floorFall, Gate.decision, Gate.floorRise, hm, h1, h2]

/-- One plan is in force for a zone: the one the operations read. -/
theorem State.putsInForce_iff (s : State) (z : ZoneIx) (plan : List Entry) : s.putsInForce z plan ↔ s.planInForce z = plan := by
  unfold State.putsInForce State.planInForce
  cases h : (s.zone z).staged with
  | none => simp
  | some p => by_cases hn : p.n = s.time.superframe <;> simp [hn]

/-- A launched sample is the one the lane assembler reads. -/
theorem State.launchedWord_eq (s : State) (v : ServiceIx) (n : StreamName) (k : Nat) :
    s.launchedWord v n k = sampleAt ((s.service v).launchedWords n) k := by
  unfold State.launchedWord Service.launchedWords
  cases (s.service v).streams.get n with
  | none => rfl
  | some r => cases h : r.launch <;> simp [h, sampleAt]

/-- Where the frames of the boundary have still to start, there is nothing to bring to a link's new state. -/
theorem State.governed_of_owed {before s : State} (h : s.time.blockOwed = true) : before.governed s s := by
  refine ⟨fun _ => rfl, rfl, id, fun r hr => ⟨r, hr, fun l => ⟨fun _ => ⟨rfl, rfl⟩, fun hc => ?_⟩⟩, fun l => ⟨fun _ => rfl, fun hc => ?_⟩⟩
  all_goals exact absurd (h.symm.trans hc.1) (by decide)

end Sys2Proof.Machine
end

