-- ==== Sys2Proof/Tests/Slice0.lean ====
section
/-! SUPPORT. Tests: ill-formed commands for each check of WellFormed, worked numbers of the spec, single steps, and for each statement
with hypotheses a state and operands that meet them. -/

namespace Sys2Proof.Tests

open Sys2Proof Sys2Proof.Machine

/-! ## WellFormed refuses -/

theorem test_wf_no_words : WellFormed (.hostWrite 0 []) = false := by decide
theorem test_wf_nine_words : WellFormed (.commitWordWrite 0 (List.replicate 9 ⟨0, 15⟩)) = false := by decide
theorem test_wf_nine_reads : WellFormed (.hostRead 0 9) = false := by decide
theorem test_wf_nine_messages : WellFormed (.uplinkFrameArrival 0 ⟨0, false, 0, [], List.replicate 9 .unknown⟩) = false := by decide
theorem test_wf_late_step : WellFormed (.uplinkFrameArrival 0 ⟨0, false, 128000, [], []⟩) = false := by decide
theorem test_wf_sample_place : WellFormed (.uplinkFrameArrival 0 ⟨0, false, 0, [(51200, 1)], []⟩) = false := by decide
theorem test_wf_sample_order : WellFormed (.uplinkFrameArrival 0 ⟨0, false, 0, [(4, 1), (4, 1)], []⟩) = false := by decide
theorem test_wf_sample_zero : WellFormed (.uplinkFrameArrival 0 ⟨0, false, 0, [(4, 0)], []⟩) = false := by decide
theorem test_wf_known_code : WellFormed (.unknownOrder 20 0 0) = false := by decide
theorem test_wf_good : WellFormed (.hostRead 0 8) = true ∧ WellFormed (.unknownOrder 21 0 0) = true := by decide
theorem test_no_word_spells_a_command : decodeTableWord 32 5 = none := rfl

/-! ## Numbers of the spec -/

-- 2.4, a run on L1, a SUSPECT range, and the first and second TRACK echo.
theorem test_range_l1 : rangeX 42000 210 (-6) = 41136 ∧ delayOf 41136 = 5142 ∧ pathOf 5142 150 (-35) = 5257 := by decide
theorem test_range_suspect : rangeX 800 210 0 = -40 ∧ delayOf (-40) = 0 ∧ pathOf 0 150 20 = 170 ∧ delayOf 20 = 3 := by decide
theorem test_track_inlier : estimate 10508 210 (-6) = 5146 ∧ isInlier 5142 5146 = true ∧ stepToward 5142 5146 = 5143 := by decide
theorem test_track_outlier : estimate 10800 210 (-6) = 5292 ∧ isInlier 5143 5292 = false := by decide
-- R43: 64 steps are an inlier, 65 are not.
theorem test_inlier_edge : isInlier 100 164 = true ∧ isInlier 100 165 = false ∧ isInlier 164 100 = true := by decide
-- 3.6: L0 and L1 once L2 has joined, one slew step.
theorem test_towards : (Align.towards { k := 4005, kStar := 4005, slewing := false, outOfReach := false } 9464 1268).kStar = 8196 ∧
    (Align.slewStep { k := 4005, kStar := 8196, slewing := true, outOfReach := false } 8).k = 4013 := by decide
theorem test_towards_edge : (Align.towards .atReset 16383 0).outOfReach = false ∧ (Align.towards .atReset 16384 0).outOfReach = true ∧
    (Align.towards .atReset 16384 0).kStar = 16383 := by decide
-- 7.6: sample 400 of the crossfade at 50,003.
theorem test_crossfade : crossfade 400 1000 (-600) = 600 ∧ crossfade 0 1000 (-600) = 1000 := by decide
-- 8.7: blocks 20,000, 20,003 and 20,007 of the gate.
theorem test_gate_first : (Gate.fresh.update 1000 3).floor = 1000 ∧ (Gate.fresh.update 1000 3).isOpen = false := by decide
theorem test_gate_opens : (({ energy := 1200, floor := 1008, isOpen := false, closeCount := 0 } : Gate).update 50000 3).isOpen = true := by
  decide
theorem test_gate_closes : (({ energy := 900, floor := 900, isOpen := true, closeCount := 2 } : Gate).update 1100 3) =
    { energy := 1100, floor := 904, isOpen := false, closeCount := 0 } := by decide
-- 8.8: one sample of a sum.
theorem test_gain_sum : saturate (gainSum [(16384, 1000), (16384, -2000), (24576, 30000)]) = 32767 ∧
    gainSum [(16384, 1000), (16384, -2000), (24576, 30000)] = 44000 ∧
    saturate (gainSum [(16384, -500), (16384, 300), (24576, -100)]) = -350 := by decide
-- R59: a delay of 0 and of 40 eightieths between 100 and 300.
theorem test_interpolate : interpolate 0 100 300 = 100 ∧ interpolate 40 100 300 = 200 := by decide
-- R65 and 10.5: an area word; R64: the bytes of a block of width 8.
theorem test_area_word : areaOf 0x80001003 = some { base := 4096, blocks := 3 } ∧ areaOf 0x00001003 = none ∧ blockBytes 8 = 51232 := by
  decide
-- R64: areas that touch do not overlap, areas that share a byte do.
theorem test_overlap_edge : rangesOverlap (0, 4096) (4096, 10) = false ∧ rangesOverlap (0, 4097) (4096, 10) = true := by decide
-- R172 and 10.5: word 7 of a slot refused BAD_INDEX.
theorem test_result_word : resultWord (.refused .badIndex) 0xABCD = 0xABCD0104 := by decide
-- R86: the walk of 5.7's normal condition admits all but the last.
theorem test_walk : walk 32 [(8, 1), (9, 2), (0, 1), (1, 1), (2, 2), (4, 8), (5, 8), (6, 8)] = [8, 9, 0, 1, 2, 4, 5, 6] ∧
    walk 9 [(4, 8), (5, 8), (8, 1)] = [4, 8] := by decide
-- 10.5: the places at the edges of the control window's parts.
theorem test_window_places : windowPlace 0x3FC = .orderRing ∧ windowPlace 0x400 = .producerIndex ∧ windowPlace 0x404 = .consumerIndex ∧
    windowPlace 0x408 = .flushWord ∧ windowPlace 0xFFC = .windowRest ∧ windowPlace 0x17FC = .statusPage ∧
    windowPlace 0x1800 = .windowRest ∧ windowPlace 0x27FC = .noticeRing := by decide

/-! ## Small states -/

/-- The state an executed command leaves. -/
def after (c : Instr) (s : State) : State :=
  match exec c s with
  | .next t => t
  | _ => s

/-- Reset with link l in a state, its laser on. -/
def linkIn (l : LinkIx) (st : LinkState) : State := State.reset.modMgr l (fun m => { m with state := st, laser := true })

/-- Link l in a state with a query of tag 9 sent under tag g in block 0. -/
def querySent (l : LinkIx) (st : LinkState) (g : Tag) : State :=
  (linkIn l st).modMgr l (fun m => { m with outstanding := m.outstanding.set g (some { request := .query .temp 9, sentIn := some 0 }) })

/-- The same with every tag held, and a query of tag 8 waiting. -/
def queryWaits (l : LinkIx) (st : LinkState) : State :=
  (linkIn l st).modMgr l (fun m => { m with
    outstanding := Vector.replicate 4 (some { request := .query .temp 9, sentIn := none }) |>.set 2
      (some { request := .query .temp 9, sentIn := some 0 })
    pendingQueue := [.query .supply 8] })

/-- The block counter at b. -/
def atBlock (s : State) (b : Seq16) : State := s.modTime (fun x => { x with block := b })

/-- A run of id 7 from block 0 with n marks sent and what it has captured. -/
def runOf (n : Nat) (rts : Vector (Option Nat) 4) : RangingRun :=
  { runId := 7, cause := .order, firstBlock := 0, marksSent := n, roundTrips := rts, turn3 := none, latency3 := none, asymmetry := -6, jitter := 4 }

/-- Link l in a state with that run. -/
def running (l : LinkIx) (st : LinkState) (n : Nat) (rts : Vector (Option Nat) 4) (failures : Nat) : State :=
  (linkIn l st).modRng l (fun r => { r with run := some (runOf n rts), valid := true, failures := failures })

/-- Reset with service v as f makes it. -/
def withService (v : ServiceIx) (f : Service → Service) : State := State.reset.modService v f

/-- A MOBILE service of width 1 with a normal area at 0x100000 and a ring at 0x200000. -/
def mobile (x : Service) : Service :=
  { x with state := .defined, kind := .mobile, width := 1, mask := 1, areas := ⟨some { base := 0x100000, blocks := 3 }, none, none⟩
           ring := some { base := 0x200000, blocks := 2 } }

/-- That service ENABLED in period 0, its first open slot committed or not. -/
def enabledMobile (c1 : Bool) : State :=
  withService 3 (fun x => { (mobile x).enable 0 with streams :=
    ⟨some { StreamRec.created 0 .normal with open1 := { seq := 1, committed := c1, words := [] } }, none, none⟩ })

/-- Reset with contact input i as f makes it. -/
def withInput (i : InputIx) (f : ContactInput → ContactInput) : State := State.reset.modInput i f

/-- Reset with the memory path as f makes it. -/
def withPath (f : MemPath → MemPath) : State := State.reset.modPath f

/-- A posting of the status poster at a byte address. -/
def postingAt (p : Producer) (a : Nat) : Posting := { producer := p, addr := a, words := [.bits 0] }

/-- A frame with these messages. -/
def frameOf (errored : Bool) (step : Nat) (ms : List RxMsg) : UplinkFrame :=
  { number := 0, errored := errored, arrivalStep := step, samples := [], messages := ms }

/-! ## Single steps -/

theorem test_listen : ((after (.linkListen 3 7) State.reset).link 3).mgr.state = .listen ∧
    (after (.linkListen 3 7) State.reset).orders.executing = some 0 := by decide
theorem test_listen_result : (after (.linkListen 16 7) State.reset).path.queue =
    [{ producer := .orderUnit, addr := 28, words := [.bits 0x00070104] }] := by decide
theorem test_hello : ((after (.uplinkFrameArrival 3 (frameOf false 0 [.hello 5 6]))
    ((linkIn 3 .attach).modMgr 3 (fun m => { m with attachPhase := some .helloWait }))).link 3).mgr.state = .standby := by decide
theorem test_fourth_echo : ((after (.uplinkFrameArrival 1 (frameOf false 10500 [.echo 7 (.run 3) 210 150]))
    ((atBlock (running 1 .standby 4 #v[some 10500, some 10501, some 10499, none] 0) 3).modSettings 1
      (fun x => { x with cable := -35 }))).link 1).rng.path = 5257 := by decide
theorem test_lock_lost : ((after (.lockLost 3) (linkIn 3 .standby)).link 3).mgr.state = .fault := by decide
theorem test_commit : ((after (.commitWordWrite 0x40648 [⟨1, 3⟩]) (enabledMobile false)).service 3).streams.normal.map (fun r => r.open1.committed) =
    some true := by decide
theorem test_sample_bytes : ((after (.streamSampleWrite 0x40651 [⟨0x11223344, 5⟩]) (enabledMobile false)).service 3).streams.normal.map
    (fun r => sampleAt r.open1.words 1) = some 0x00220044 := by decide
theorem test_owned_write : (after (.ownedAreaWrite 0x400 [⟨1, 15⟩]) State.reset).path.ownedPage = 1 ∧
    (after (.ownedAreaWrite 0x400 [⟨1, 15⟩]) State.reset).path.access = none := by decide
theorem test_completion_of_a_result : (after .memoryPortCompletion
    ((withPath (fun m => { m with port := .posting, queue := [postingAt .orderUnit 28] })).modOrders (fun u =>
      { u with producer := 1, executing := some 0 }))).orders.consumer = 1 := by decide
theorem test_timebase_wraps : (Timebase.next { block := 65535, superframe := 6, index := 9, blockOwed := false, superframeOwed := false }) =
    { block := 0, superframe := 7, index := 0, blockOwed := true, superframeOwed := true } := by decide
theorem test_registered_change : ((after (.registeredChange 2) (withInput 2 (fun c => { c with mode := .level, changeDue := true }))).input 2).latch =
    true := by decide
theorem test_reset_release : (after (.resetRelease 5) (withPath (fun m => { m with inReset := true }))).path.windowBase = 327680 := by decide
theorem test_malformed : (match exec (.hostWrite 0 []) State.reset with
    | .refused .malformedAccess => true
    | _ => false) = true := by decide

/-! ## Witnesses: for each statement with hypotheses, states and operands that meet those of each of its clauses -/

theorem witness_StepExecutesFrontCommand : ({ State.reset with pending := [.memoryPortCompletion, .flushWordRead] } : State).pending =
    .memoryPortCompletion :: [.flushWordRead] := rfl

theorem witness_UnknownOrderIsRefused : State.reset.ordersIdle ∧ ((0 : BitVec 8) = 0 ∨ 20 < (0 : BitVec 8).toNat) ∧
    ((21 : BitVec 8) = 0 ∨ 20 < (21 : BitVec 8).toNat) := by decide

theorem witness_OrderIndexOutsideTableIsRefused : State.reset.ordersIdle ∧ commandOrder (.linkListen 16 7) = some (plainOrder 6 16 7) ∧
    objectCount (plainOrder 6 16 7).code = some 16 ∧ 16 ≤ (plainOrder 6 16 7).index.toNat ∧
    commandOrder (.breakinStop 255 7) = some (plainOrder 19 255 7) ∧ objectCount (plainOrder 19 255 7).code = some 4 ∧
    4 ≤ (plainOrder 19 255 7).index.toNat := by decide

theorem witness_LinkListenTurnsDarkLinkOn : State.reset.ordersIdle ∧ (15 : BitVec 8).toNat = (15 : LinkIx).val ∧
    (State.reset.link 15).mgr.state = .dark ∧ (linkIn 0 .fault).ordersIdle ∧ (0 : BitVec 8).toNat = (0 : LinkIx).val ∧
    ((linkIn 0 .fault).link 0).mgr.state ≠ .dark := by decide

theorem witness_LinkRangeStartsRun : (15 : BitVec 8).toNat = (15 : LinkIx).val ∧
    ((linkIn 15 .standby).ordersIdle ∧ ((linkIn 15 .standby).link 15).mgr.state = .standby ∧
      ((linkIn 15 .standby).link 15).rng.run = none) ∧
    ((running 15 .active 4 #v[none, none, none, none] 0).ordersIdle ∧
      ((running 15 .active 4 #v[none, none, none, none] 0).link 15).mgr.state = .active ∧
      ((running 15 .active 4 #v[none, none, none, none] 0).link 15).rng.run.isSome = true) ∧
    ((linkIn 15 .joining).ordersIdle ∧ ((linkIn 15 .joining).link 15).mgr.state ≠ .standby ∧
      ((linkIn 15 .joining).link 15).mgr.state ≠ .active) := by decide

theorem witness_LinkAbortEndsRun : (0 : BitVec 8).toNat = (0 : LinkIx).val ∧
    ((running 0 .active 1 #v[none, none, none, none] 2).ordersIdle ∧
      ((running 0 .active 1 #v[none, none, none, none] 2).link 0).mgr.state ≠ .fault ∧
      ((running 0 .active 1 #v[none, none, none, none] 2).link 0).rng.run = some (runOf 1 #v[none, none, none, none])) ∧
    ((linkIn 0 .quiescing).ordersIdle ∧ ((linkIn 0 .quiescing).link 0).mgr.state ≠ .fault ∧
      ((linkIn 0 .quiescing).link 0).rng.run = none) ∧
    ((linkIn 0 .fault).ordersIdle ∧ ((linkIn 0 .fault).link 0).mgr.state = .fault) := by decide

/-- A STANDBY link with a valid range and its tags below g held. -/
def activatable (l : LinkIx) (held : Vector (Option Outstanding) 4) : State :=
  (linkIn l .standby).modLink l (fun x => { x with rng := { x.rng with valid := true }, mgr := { x.mgr with outstanding := held } })

/-- A request holding a tag. -/
def heldTag : Option Outstanding := some { request := .query .temp 9, sentIn := none }

/-- A staged plan of one entry. -/
def onePlan (n : Seq16) : StagedPlan := { planId := 1, entries := [{ service := 3, first := 0, width := 1 }], shed := [], n := n }

/-- The same state with that plan staged for zone 0. -/
def staging (s : State) (n : Seq16) : State := s.modZone 0 (fun z => { z with staged := some (onePlan n) })

theorem witness_LinkActivateOpensJoinExchange : (2 : BitVec 8).toNat = (2 : LinkIx).val ∧
    (let s := activatable 2 #v[none, none, none, none];
      s.ordersIdle ∧ (s.link 2).mgr.state = .standby ∧ (s.link 2).rng.run = none ∧ (s.link 2).rng.valid = true ∧
      (s.link 2).mgr.outstanding[(0 : Tag)] = none ∧ (∀ g' : Tag, g' < 0 → (s.link 2).mgr.outstanding[g'] ≠ none) ∧
      (s.zone (s.link 2).settings.zone).staged = none ∧ (s.zone (s.link 2).settings.zone).planId = 0 ∧ s.time.superframe + 3 = 3 ∧
      (s.zone (s.link 2).settings.zone).entries = []) ∧
    (let s := staging (activatable 2 #v[heldTag, heldTag, heldTag, none]) 4;
      s.ordersIdle ∧ (s.link 2).mgr.state = .standby ∧ (s.link 2).rng.run = none ∧ (s.link 2).rng.valid = true ∧
      (s.link 2).mgr.outstanding[(3 : Tag)] = none ∧ (∀ g' : Tag, g' < 3 → (s.link 2).mgr.outstanding[g'] ≠ none) ∧
      (s.zone (s.link 2).settings.zone).staged = some (onePlan 4)) ∧
    (let s := running 2 .standby 1 #v[none, none, none, none] 0;
      s.ordersIdle ∧ (s.link 2).mgr.state = .standby ∧ (s.link 2).rng.run.isSome = true) ∧
    (let s := linkIn 2 .standby;
      s.ordersIdle ∧ (s.link 2).mgr.state = .standby ∧ (s.link 2).rng.run = none ∧ (s.link 2).rng.valid = false) ∧
    (linkIn 2 .active).ordersIdle ∧ ((linkIn 2 .active).link 2).mgr.state ≠ .standby := by decide

/-- A STANDBY link with a valid range, every tag held, and these requests waiting. -/
def activatableFull (l : LinkIx) (q : List Request) : State :=
  (activatable l #v[heldTag, heldTag, heldTag, heldTag]).modMgr l (fun m => { m with pendingQueue := q })

-- No tag is free: an empty queue, one that holds a PLAN already, and a full one, whose last query is dropped.
theorem witness_LinkActivateOpensJoinExchange_pending :
    (∀ q : List Request, q ∈ ([[], [.plan 7 0 [], .query .temp 9], List.replicate 8 (.query .temp 9)] : List (List Request)) →
      (activatableFull 2 q).ordersIdle ∧ ((activatableFull 2 q).link 2).mgr.state = .standby ∧
      ((activatableFull 2 q).link 2).rng.run = none ∧ ((activatableFull 2 q).link 2).rng.valid = true ∧
      (∀ g : Tag, ((activatableFull 2 q).link 2).mgr.outstanding[g] ≠ none) ∧
      ((activatableFull 2 q).link 2).mgr.pendingQueue = q ∧
      ((activatableFull 2 q).zone ((activatableFull 2 q).link 2).settings.zone).staged = none ∧
      ((activatableFull 2 q).zone ((activatableFull 2 q).link 2).settings.zone).planId = 0) ∧
    ([.plan 7 0 [], .query .temp 9] : List Request) = [] ++ .plan 7 0 [] :: [.query .temp 9] ∧
    (List.replicate 8 (Request.query .temp 9)) = List.replicate 7 (.query .temp 9) ++ [.query .temp 9] := by decide

theorem witness_LinkQuiesceEmptiesPendingQueue : (0 : BitVec 8).toNat = (0 : LinkIx).val ∧
    ((linkIn 0 .joining).ordersIdle ∧ ((linkIn 0 .joining).link 0).mgr.state = .joining) ∧
    ((linkIn 0 .active).ordersIdle ∧ ((linkIn 0 .active).link 0).mgr.state = .active) ∧
    ((linkIn 0 .quiescing).ordersIdle ∧ ((linkIn 0 .quiescing).link 0).mgr.state ≠ .joining ∧
      ((linkIn 0 .quiescing).link 0).mgr.state ≠ .active) := by decide

theorem witness_LinkDarkTearsLinkDown : (0 : BitVec 8).toNat = (0 : LinkIx).val ∧
    (State.reset.ordersIdle ∧ (State.reset.link 0).mgr.state = .dark) ∧
    ((linkIn 0 .fault).ordersIdle ∧ ((linkIn 0 .fault).link 0).mgr.state = .fault) ∧
    ((linkIn 0 .listen).ordersIdle ∧ ((linkIn 0 .listen).link 0).mgr.state ≠ .dark ∧ ((linkIn 0 .listen).link 0).mgr.state ≠ .fault ∧
      (linkIn 0 .listen).notices.queue.length < 16) := by decide

/-- A STANDBY link with these tags held and n queries pending. -/
def queued (l : LinkIx) (held : Vector (Option Outstanding) 4) (n : Nat) : State :=
  (linkIn l .standby).modMgr l (fun m => { m with outstanding := held, pendingQueue := List.replicate n (.query .temp 9) })

theorem witness_LinkQueryIssuesRequest : (1 : BitVec 8).toNat = (1 : LinkIx).val ∧ 4 ≤ (4 : Word).toNat ∧
    ((3 : Word), Item.supply) ∈ ([(0, .temp), (1, .outPower), (2, .feederRl), (3, .supply)] : List (Word × Item)) ∧
    (State.reset.ordersIdle ∧ (State.reset.link 1).mgr.state ∉ ([.standby, .joining, .active, .quiescing] : List LinkState)) ∧
    (let s := queued 1 #v[heldTag, heldTag, heldTag, heldTag] 8;
      s.ordersIdle ∧ (s.link 1).mgr.state ∈ ([.standby, .joining, .active, .quiescing] : List LinkState) ∧
      8 ≤ (s.link 1).mgr.pendingQueue.length) ∧
    (let s := queued 1 #v[heldTag, heldTag, heldTag, none] 0;
      s.ordersIdle ∧ (s.link 1).mgr.state ∈ ([.standby, .joining, .active, .quiescing] : List LinkState) ∧
      (s.link 1).mgr.pendingQueue.length < 8 ∧ (s.link 1).mgr.outstanding[(3 : Tag)] = none ∧
      (∀ g' : Tag, g' < 3 → (s.link 1).mgr.outstanding[g'] ≠ none)) ∧
    (let s := queued 1 #v[heldTag, heldTag, heldTag, heldTag] 7;
      s.ordersIdle ∧ (s.link 1).mgr.state ∈ ([.standby, .joining, .active, .quiescing] : List LinkState) ∧
      (s.link 1).mgr.pendingQueue.length < 8 ∧ (∀ g : Tag, (s.link 1).mgr.outstanding[g] ≠ none)) := by decide

theorem witness_SetLinkStoresClampedSettings : State.reset.ordersIdle ∧ (15 : BitVec 8).toNat = (15 : LinkIx).val ∧
    8 ≤ ((8 : Word).extractLsb' 0 8).toNat ∧ 4 ≤ ((0x400 : Word).extractLsb' 8 8).toNat ∧
    ((0x307 : Word).extractLsb' 0 8).toNat = (7 : ZoneIx).val ∧ ((0x307 : Word).extractLsb' 8 8).toNat = (3 : GroupIx).val ∧
    ((linkIn 15 .joining).ordersIdle ∧ ((linkIn 15 .joining).link 15).settings.zone ≠ 7 ∧
      ((linkIn 15 .joining).link 15).mgr.state ∈ ([.joining, .active, .quiescing] : List LinkState)) ∧
    ((State.reset.link 15).mgr.state ∉ ([.joining, .active, .quiescing] : List LinkState) ∧
      (State.reset.link 15).mgr.state ≠ .active) := by decide

/-- Link 0 a member of group 3, its path p, the target t. -/
def member (p t : Nat) : State :=
  ((linkIn 0 .active).modLink 0 (fun x => { x with settings := { x.settings with group := 3 }, rng := { x.rng with path := p, valid := true }
                                                   align := { x.align with kStar := t - p, slewing := t != p } })).modGroup 3
    (fun g => { g with target := some t })

-- SET_LINK with a cable offset of 50 for an ACTIVE link whose range is valid: its path becomes 50.
theorem witness_SetLinkStoresClampedSettings_active :
    let s := member 100 355
    s.ordersIdle ∧ (0 : BitVec 8).toNat = (0 : LinkIx).val ∧ (s.link 0).mgr.state = .active ∧ (s.link 0).rng.valid = true ∧
      ((0x300 : Word).extractLsb' 0 8).toNat = (s.link 0).settings.zone.val ∧
      ((0x300 : Word).extractLsb' 8 8).toNat = (s.link 0).settings.group.val ∧
      max (-2048) (min 2047 ((0x00320000 : Word).extractLsb' 16 16).toInt) = 50 ∧ (s.link 0).settings.cable = 0 ∧
      (((s.link 0).rng.delay : Int) + (s.link 0).rng.latency + 50).toNat ≠ (s.link 0).rng.path := by decide

theorem witness_SetGroupStoresAndReEvaluates : State.reset.ordersIdle ∧ (3 : BitVec 8).toNat = (3 : GroupIx).val ∧
    (∀ l, (State.reset.link l).mgr.state = .active → (State.reset.link l).settings.group ≠ 3) ∧
    (let s := member 100 355;
      s.ordersIdle ∧ (s.link 0).mgr.state = .active ∧ (s.link 0).settings.group = 3 ∧ (s.link 0).rng.path = 100 ∧
      (∀ l, (s.link l).mgr.state = .active → (s.link l).settings.group = 3 → (s.link l).rng.path ≤ 100) ∧
      (s.group 3).target = some 355 ∧ (s.group 3).hold = none ∧ 355 ≤ 100 + min 255 255 ∧ 100 + min 255 254 < 355) := by decide

theorem witness_SetGroupStoresAndReEvaluates_held :
    let s := (member 100 355).modGroup 3 (fun g => { g with hold := some { candidate := 300, count := 99 } })
    s.ordersIdle ∧ (s.group 3).target = some 355 ∧ (s.group 3).hold = some { candidate := 300, count := 99 } := by decide

theorem witness_SetZoneStoresCrossfade : State.reset.ordersIdle ∧ (7 : BitVec 8).toNat = (7 : ZoneIx).val ∧ (1 : Word).toNat ≤ 1 ∧
    2 ≤ (2 : Word).toNat := by decide

theorem witness_ZoneIncidentSetsHostFlags : State.reset.ordersIdle ∧ 2 ≤ (2 : Word).toNat ∧ (1 : Word).toNat ≤ 1 ∧
    (0x80 : Word).getLsbD (7 : ZoneIx).val = true ∧ (0x80 : Word).getLsbD (0 : ZoneIx).val = false := by decide

-- What a replan asks of the state before it: a plan staged already, and none with every class in its range.
theorem witness_ZoneIncidentSetsHostFlags_replan : ((staging State.reset 5).zone 0).staged.isSome = true ∧
    ((enabledMobile false).zone 0).staged = none ∧ (enabledMobile false).classesBounded ∧ (enabledMobile false).isDemanded 0 3 ∧
    (enabledMobile false).ordersIdle := ⟨by decide, by decide, by decide, ⟨by decide, by decide, by decide⟩, by decide⟩

/-- An input latched in a mode at a level, its source active. -/
def latched (m : LineMode) (level acked : Bool) : State :=
  { withInput 3 (fun c => { c with mode := m, level := level, latch := true, acked := acked, mask := 1 }) with
    arbiter := { State.reset.arbiter with
      parts := State.reset.arbiter.parts.set (contactSource 3) (some { mask := 1, priority := 0, channel := .a, stamp := 0 })
      counter := 1, list := [contactSource 3] } }

theorem witness_SetLineStoresSettings : State.reset.ordersIdle ∧ (3 : BitVec 8).toNat = (3 : InputIx).val ∧
    3 ≤ ((3 : Word).extractLsb' 0 8).toNat ∧ 2 ≤ ((0x02000000 : Word).extractLsb' 24 8).toNat ∧
    ((latched .edge false false).ordersIdle ∧ ((latched .edge false false).input 3).latch = true ∧
      ((0x01000001 : Word).extractLsb' 0 8).toNat ≠ 0 ∧ ((0x01000000 : Word).extractLsb' 0 8).toNat = 0) ∧
    (((0x01000002 : Word).extractLsb' 0 8).toNat, LineMode.level) ∈ ([(0, .off), (1, .edge), (2, .level)] : List (Nat × LineMode)) ∧
    (((0x01000002 : Word).extractLsb' 24 8).toNat, Channel.b) ∈ ([(0, .a), (1, .b)] : List (Nat × Channel)) ∧
    (State.reset.input 3).latch = false ∧ (State.reset.input 3).level = false ∧
    ((withInput 3 (fun c => { c with level := true })).ordersIdle ∧
      ((withInput 3 (fun c => { c with level := true })).input 3).level = true ∧
      ((withInput 3 (fun c => { c with level := true })).input 3).latch = false) := by decide

theorem witness_LineAckFollowsItsTable : State.reset.ordersIdle ∧ (3 : BitVec 8).toNat = (3 : InputIx).val ∧
    (State.reset.input 3).latch = false ∧
    ((latched .level true true).ordersIdle ∧ ((latched .level true true).input 3).latch = true ∧
      ((latched .level true true).input 3).mode = .level ∧ ((latched .level true true).input 3).level = true ∧
      ((latched .level true true).input 3).acked = true) ∧
    ((latched .level true false).ordersIdle ∧ ((latched .level true false).input 3).level = true ∧
      ((latched .level true false).input 3).acked = false) ∧
    ((latched .edge true false).ordersIdle ∧ ((latched .edge true false).input 3).mode = .edge) ∧
    ((latched .level false false).ordersIdle ∧ ((latched .level false false).input 3).level = false) := by decide

/-- Reset once console source 0 has started in zone 0 with priority 3. -/
def started : State := after .memoryPortCompletion (after (.breakinStart 0 7 0x0301) State.reset)

theorem ownership_at_reset : State.reset.ownershipRight :=
  ⟨by decide, by decide, by decide, fun z => by
    have h : (State.reset.zone z).owner = none := by revert z; decide
    rw [h]; intro x hx
    have hl : State.reset.arbiter.list = [] := by decide
    rw [hl] at hx; cases hx⟩

theorem ownership_started : started.ownershipRight := by
  refine ⟨by decide, by decide, by decide, fun z => ?_⟩
  by_cases hz : z = 0
  · subst hz
    have h : (started.zone 0).owner = some (consoleSource 0) := by decide
    rw [h]; exact ⟨by decide, by decide, by decide⟩
  · have h : ∀ z, z ≠ 0 → (started.zone z).owner = none ∧ ∀ x, x ∈ started.arbiter.list → started.arbiter.covers z x = false := by decide
    rw [(h z hz).1]; exact (h z hz).2

theorem witness_BreakinStartActivatesSource : State.reset.ordersIdle ∧ (3 : BitVec 8).toNat = (3 : Fin 4).val ∧
    2 ≤ ((0x020000 : Word).extractLsb' 16 8).toNat ∧
    (started.ordersIdle ∧ (started.arbiter.parts[consoleSource 0]).isSome = true ∧ ((0x010000 : Word).extractLsb' 16 8).toNat < 2) ∧
    ((((0x010000 : Word).extractLsb' 16 8).toNat, Channel.b) ∈ ([(0, .a), (1, .b)] : List (Nat × Channel)) ∧
      started.arbiter.parts[consoleSource 3] = none ∧ started.ownershipRight ∧ (started.zone 0).owner = some (consoleSource 0) ∧
      (started.zone 1).owner = none) :=
  ⟨by decide, by decide, by decide, by decide, by decide, by decide, ownership_started, by decide, by decide⟩

theorem witness_BreakinStopPassesZonesOn : 4 ≤ (4 : BitVec 8).toNat ∧ (0 : BitVec 8).toNat = (0 : Fin 4).val ∧
    (State.reset.ordersIdle ∧ State.reset.arbiter.parts[consoleSource 0] = none) ∧
    (started.ordersIdle ∧ started.arbiter.parts[consoleSource 0] = some { mask := 1, priority := 3, channel := .a, stamp := 0 } ∧
      started.arbiter.list.Nodup ∧ (started.zone 0).owner = some (consoleSource 0) ∧ (started.zone 1).owner ≠ some (consoleSource 0)) := by
  decide

theorem witness_SetNoticesClampsThresholds : State.reset.ordersIdle ∧ 2 ≤ (2 : Word).toNat ∧ (1 : Word).toNat ≤ 1 := by decide

/-- A definition of services: n services of width 8, enabled, with a normal stream and a ring or none, and then service 20 as x. -/
def wide (n : Nat) (ring : Option Area) (x : Service) : State :=
  { State.reset with services := (Vector.ofFn (fun i : Fin 24 => if i.val < n then
      { Service.atReset with state := .enabled, kind := .mobile, width := 8, areas := ⟨some { base := 0, blocks := 3 }, none, none⟩, ring := ring }
    else .atReset)).set 20 x }

/-- Service 3 as f makes it, carried by the current plan of zone 7. -/
def carried (f : Service → Service) : State := (withService 3 f).modZone 7 (fun z => { z with entries := [{ service := 3, first := 31, width := 1 }] })

theorem planned_carried (f : Service → Service) : ∃ z, (3 : ServiceIx) ∈ carriedOf ((carried f).zone z).entries ∨
    ∃ p, ((carried f).zone z).staged = some p ∧ (3 : ServiceIx) ∈ carriedOf p.entries := ⟨7, .inl (by simp [carried, carriedOf, State.modZone, State.zone])⟩

theorem unplanned_reset (f : Service → Service) : ¬ ∃ z, (3 : ServiceIx) ∈ carriedOf ((withService 3 f).zone z).entries ∨
    ∃ p, ((withService 3 f).zone z).staged = some p ∧ (3 : ServiceIx) ∈ carriedOf p.entries := by
  have h : ∀ z, ((State.reset).zone z).entries = [] ∧ ((State.reset).zone z).staged = none := by decide
  rintro ⟨z, hz | ⟨p, hp, -⟩⟩
  · rw [show (withService 3 f).zone z = State.reset.zone z from rfl, (h z).1] at hz; simp [carriedOf] at hz
  · rw [show (withService 3 f).zone z = State.reset.zone z from rfl, (h z).2] at hp; cases hp

/-- What SET_SERVICE 3 with these words defines, MOBILE, on a service as reset left it. -/
def definition (w1 w3 : Word) : Service :=
  { State.reset.service 3 with
    state := .defined, kind := .mobile, width := (w1.extractLsb' 4 4).toNat, cls := min 7 (w1.extractLsb' 8 8).toNat
    incidentOnly := w1.getLsbD 16, mask := w1.extractLsb' 24 8, radioTag := 0, bypass := w1.getLsbD 17
    areas := ⟨areaOf w3, none, none⟩, ring := none }

/-- The areas of a definition with a normal area alone. -/
abbrev oneArea (x : Area) : Vector (Option Area) 4 := #v[some x, none, none, none]

theorem oneArea_get {x a : Area} {n : Fin 4} (h : (oneArea x)[n] = some a) : n = 0 ∧ x = a := by
  revert h
  match n with
  | 0 => intro h; exact ⟨rfl, by injection h⟩
  | 1 => intro h; cases h
  | 2 => intro h; cases h
  | 3 => intro h; cases h

/-- A width of 1 and a normal area of these blocks at this base: nothing of R65's fourth step is against it. -/
theorem good_values {b : Nat} (hz : b = 0 ∨ b = 65536) : ¬ (∃ (n : Fin 4) (a : Area), (oneArea { base := b, blocks := 3 })[n] = some a ∧
    (a.blocks < (if n = 3 then 2 else 3) ∨ 16 < a.blocks ∨ a.base % 4096 ≠ 0 ∨ 1073741824 < a.base + a.blocks * (32 + 6400 * 8))) := by
  rintro ⟨n, a, h, hb⟩
  obtain ⟨rfl, rfl⟩ := oneArea_get h
  revert hb
  rcases hz with rfl | rfl <;> decide

theorem no_overlap : ¬ (∃ (n : Fin 4) (a : Area), (oneArea { base := 65536, blocks := 3 })[n] = some a ∧
    ((a.base < State.reset.path.windowBase + 65536 ∧ State.reset.path.windowBase < a.base + a.blocks * (32 + 6400 * 8)) ∨
      (∃ (m : Fin 4) (a' : Area), m ≠ n ∧ (oneArea { base := 65536, blocks := 3 })[m] = some a') ∨
      ∃ u : ServiceIx, u ≠ 3 ∧ (State.reset.service u).state ≠ .free)) := by
  rintro ⟨n, a, h, hb | ⟨m, a', hm, h'⟩ | ⟨u, -, hu⟩⟩
  · obtain ⟨rfl, rfl⟩ := oneArea_get h
    revert hb; decide
  · exact hm ((oneArea_get h').1.trans (oneArea_get h).1.symm)
  · exact hu (by revert u; decide)

theorem witness_SetServiceStoresDefinition : State.reset.ordersIdle ∧ (3 : BitVec 8).toNat = (3 : ServiceIx).val ∧
    ((enabledMobile false).ordersIdle ∧ ((enabledMobile false).service 3).state = .enabled) ∧
    ((carried id).ordersIdle ∧ ((carried id).service 3).state ≠ .enabled ∧
      ∃ z, (3 : ServiceIx) ∈ carriedOf ((carried id).zone z).entries ∨
        ∃ p, ((carried id).zone z).staged = some p ∧ (3 : ServiceIx) ∈ carriedOf p.entries) ∧
    ((withService 3 id).ordersIdle ∧ ((withService 3 id).service 3).state ≠ .enabled ∧
      (¬ ∃ z, (3 : ServiceIx) ∈ carriedOf ((withService 3 id).zone z).entries ∨
        ∃ p, ((withService 3 id).zone z).staged = some p ∧ (3 : ServiceIx) ∈ carriedOf p.entries) ∧
      ((3 : Word).extractLsb' 0 2).toNat = 3) ∧
    (((0x81 : Word).extractLsb' 0 2).toNat, Kind.mobile) ∈ ([(0, .broadcast), (1, .mobile), (2, .rescue)] : List (Nat × Kind)) ∧
    ((definition 0x81 0).areas.normal = none ∧ (definition 0x81 0x80010003).areas.normal = some { base := 65536, blocks := 3 } ∧
      (definition 0x81 0x80010003).width = 8) ∧
    ((definition 0x81 0x80000003).areas.normal = some { base := 0, blocks := 3 } ∧ 0 < State.reset.path.windowBase + 65536 ∧
      State.reset.path.windowBase < 0 + 3 * (32 + 6400 * (definition 0x81 0x80000003).width)) :=
  ⟨by decide, by decide, by decide, ⟨by decide, by decide, planned_carried id⟩, ⟨by decide, by decide, unplanned_reset id, by decide⟩,
    by decide, by decide, by decide⟩

theorem witness_EnableServiceCreatesStreams : State.reset.ordersIdle ∧ (20 : BitVec 8).toNat = (20 : ServiceIx).val ∧
    (State.reset.service 20).state ≠ .defined ∧
    (let s := wide 10 none (mobile .atReset);
      s.ordersIdle ∧ (s.service 20).state = .defined ∧ s.enabledSum Service.stagingDemand = 80 ∧ (s.service 20).width = 1) ∧
    (let s := wide 6 (some { base := 0, blocks := 2 }) (mobile .atReset);
      s.ordersIdle ∧ (s.service 20).state = .defined ∧ s.enabledSum Service.stagingDemand = 48 ∧
      s.enabledSum Service.uplinkDemand = 48 ∧ (s.service 20).ring.isSome = true) ∧
    (let s := wide 5 (some { base := 0, blocks := 2 }) { mobile .atReset with width := 8 };
      s.ordersIdle ∧ (s.service 20).state = .defined ∧ s.enabledSum Service.stagingDemand = 40 ∧
      s.enabledSum Service.uplinkDemand + (s.service 20).width = 48) := by decide

theorem witness_DisableServiceDiscardsStreams : (3 : BitVec 8).toNat = (3 : ServiceIx).val ∧
    (State.reset.ordersIdle ∧ (State.reset.service 3).state ≠ .enabled) ∧
    ((enabledMobile false).ordersIdle ∧ ((enabledMobile false).service 3).state = .enabled) := by decide

theorem witness_ClearServiceRestoresResetValues : 24 ≤ (24 : BitVec 8).toNat ∧ (3 : BitVec 8).toNat = (3 : ServiceIx).val ∧
    (State.reset.ordersIdle ∧ (State.reset.service 3).state ≠ .defined) ∧
    ((carried mobile).ordersIdle ∧ ((carried mobile).service 3).state = .defined ∧
      ∃ z, (3 : ServiceIx) ∈ carriedOf ((carried mobile).zone z).entries ∨
        ∃ p, ((carried mobile).zone z).staged = some p ∧ (3 : ServiceIx) ∈ carriedOf p.entries) ∧
    ((withService 3 mobile).ordersIdle ∧ ((withService 3 mobile).service 3).state = .defined ∧
      ¬ ∃ z, (3 : ServiceIx) ∈ carriedOf ((withService 3 mobile).zone z).entries ∨
        ∃ p, ((withService 3 mobile).zone z).staged = some p ∧ (3 : ServiceIx) ∈ carriedOf p.entries) :=
  ⟨by decide, by decide, by decide, ⟨by decide, by decide, planned_carried mobile⟩, by decide, by decide, unplanned_reset mobile⟩

theorem witness_LockEventsFollowTheirState : State.reset.path.inReset = false ∧
    (State.reset.link 15).mgr.state ∈ ([.dark, .listen, .fault] : List LinkState) ∧
    ((linkIn 15 .attach).path.inReset = false ∧ ((linkIn 15 .attach).link 15).mgr.state = .attach) ∧
    ((linkIn 15 .quiescing).path.inReset = false ∧
      ((linkIn 15 .quiescing).link 15).mgr.state ∈ ([.standby, .joining, .active, .quiescing] : List LinkState)) := by decide

/-- A link in a state with a phase count and its phases. -/
def phased (l : LinkIx) (st : LinkState) (n : Nat) (lp : Option ListenPhase) (ap : Option AttachPhase) : State :=
  (linkIn l st).modMgr l (fun m => { m with phaseCount := n, listenPhase := lp, attachPhase := ap, lock := true, attachDue := true
                                            quiesceDue := true })

theorem witness_LinkTimersAdvanceLink :
    (let s := phased 15 .listen 100 (some .settle) none;
      s.path.inReset = false ∧ (s.link 15).mgr.state = .listen ∧ (s.link 15).mgr.listenPhase = some .settle ∧
      (s.link 15).mgr.phaseCount = 100) ∧
    (let s := phased 15 .listen 100 (some .detect) none;
      s.path.inReset = false ∧ (s.link 15).mgr.state = .listen ∧ (s.link 15).mgr.listenPhase = some .detect ∧
      (s.link 15).mgr.lock = true ∧ (s.link 15).mgr.attachDue = true) ∧
    (let s := phased 15 .attach 98 none (some .debounce);
      s.path.inReset = false ∧ (s.link 15).mgr.state = .attach ∧ (s.link 15).mgr.attachPhase = some .debounce ∧
      (s.link 15).mgr.phaseCount = 98) ∧
    (let s := phased 15 .attach 50 none (some .helloWait);
      s.path.inReset = false ∧ (s.link 15).mgr.state = .attach ∧ (s.link 15).mgr.attachPhase = some .helloWait ∧
      (s.link 15).mgr.phaseCount = 50) ∧
    (let s := phased 15 .quiescing 0 none none;
      s.path.inReset = false ∧ (s.link 15).mgr.state = .quiescing ∧ (s.link 15).mgr.quiesceDue = true ∧
      (∀ g : Tag, (s.link 15).mgr.outstanding[g] = none) ∧ (s.link 15).mgr.pendingQueue = []) := by decide

/-- An ACTIVE link whose SWITCH exchange's current PLAN was sent in block 0 under tag 3, in block 40. -/
def planSent : State :=
  atBlock ((linkIn 2 .active).modLink 2 (fun x => { x with
    mgr := { x.mgr with outstanding := x.mgr.outstanding.set 3 (some { request := .plan 0 5 [], sentIn := some 0 }) }
    exchange := some { purpose := .switch, target := 1, m := 5, current := some 0, standing := .waiting, attempts := 0 }
    planSerial := 1 })) 40

/-- Every other tag's deadline lies ahead. -/
abbrev onlyTag (s : State) (l : LinkIx) (g : Tag) : Prop :=
  ∀ g' : Tag, g' ≠ g → ((s.link l).mgr.outstanding[g']).all (fun o => o.sentIn.all (fun b' => decide ((s.time.block - b').toNat < 40))) = true

theorem onlyTag_deadlines {s : State} {l : LinkIx} {g : Tag} (h : onlyTag s l g) : ∀ g' : Tag, g' ≠ g →
    ∀ o, (s.link l).mgr.outstanding[g'] = some o → ∀ b', o.sentIn = some b' → (s.time.block - b').toNat < 40 := by
  intro g' hg o ho b' hb
  have := h g' hg
  rw [ho] at this
  simpa [hb] using this

theorem not_sent {s : State} {l : LinkIx} {x : Exchange}
    (h : ∀ g : Tag, ((s.link l).mgr.outstanding[g]).all (fun o => o.sentIn.all (fun b => b == s.time.block)) = true) : ¬ s.planWasSent l x := by
  rintro ⟨g, n, m, items, b, ho, -, hb⟩
  have := h g
  rw [ho] at this
  exact hb (by simpa using this)

/-- A JOINING link whose JOIN exchange falls at superframe 0, with a standing and attempts, its PLAN sent in block 0 or not. -/
def joining (x : Standing) (n : Nat) (sent : Option Seq16) : State :=
  atBlock ((linkIn 2 .joining).modLink 2 (fun y => { y with
    mgr := { y.mgr with outstanding := y.mgr.outstanding.set 0 (some { request := .plan 0 0 [], sentIn := sent }) }
    planSerial := 1
    exchange := some { purpose := .join, target := 0, m := 0, current := some 0, standing := x, attempts := n } })) 30

theorem witness_DeadlineExpiryFreesTag :
    (let s := atBlock (querySent 2 .standby 3) 40;
      s.path.inReset = false ∧ (s.link 2).mgr.state ≠ .quiescing ∧ 40 ≤ (s.time.block - 0).toNat ∧ onlyTag s 2 3 ∧
      (s.link 2).mgr.outstanding[(3 : Tag)] = some { request := .query .temp 9, sentIn := some 0 } ∧
      (s.link 2).mgr.pendingQueue = []) ∧
    (let s := atBlock (queryWaits 2 .active) 40;
      s.path.inReset = false ∧ (s.link 2).mgr.state ≠ .quiescing ∧ onlyTag s 2 2 ∧
      (s.link 2).mgr.outstanding[(2 : Tag)] = some { request := .query .temp 9, sentIn := some 0 } ∧
      (s.link 2).mgr.pendingQueue = .query .supply 8 :: [] ∧
      (∀ g' : Tag, g' ≠ 2 → (s.link 2).mgr.outstanding[g'] ≠ none)) ∧
    (let s := planSent;
      s.path.inReset = false ∧ (s.link 2).mgr.state ≠ .quiescing ∧ 40 ≤ (s.time.block - 0).toNat ∧ onlyTag s 2 3 ∧
      (s.link 2).mgr.outstanding[(3 : Tag)] = some { request := .plan 0 5 [], sentIn := some 0 } ∧
      (s.link 2).exchange = some { purpose := .switch, target := 1, m := 5, current := some 0, standing := .waiting, attempts := 0 } ∧
      (s.link 2).mgr.pendingQueue = []) := by decide

-- The PLAN of a JOIN exchange at block 40: renewed after two failures or fewer under tag 0, the third faulting the link; superseded.
theorem witness_DeadlineExpiryFreesTag_plan :
    (∀ n : Fin 3, let s := atBlock (joining .waiting n.val (some 0)) 40
      s.path.inReset = false ∧ (s.link 2).mgr.state = .joining ∧ 40 ≤ (s.time.block - 0).toNat ∧ onlyTag s 2 0 ∧
      (s.link 2).mgr.outstanding[(0 : Tag)] = some { request := .plan 0 0 [], sentIn := some 0 } ∧ (s.link 2).mgr.pendingQueue = [] ∧
      (s.link 2).exchange = some { purpose := .join, target := 0, m := 0, current := some 0, standing := .waiting, attempts := n.val } ∧
      (s.zone (s.link 2).settings.zone).staged = none ∧ (s.zone (s.link 2).settings.zone).planId = 0 ∧ s.time.superframe + 3 = 3 ∧
      (s.zone (s.link 2).settings.zone).entries = [] ∧ s.time.blockOwed = false) ∧
    (planSent.modLink 2 (fun x => { x with exchange := none }) |>.link 2).exchange = none := by decide

-- The last request of a QUIESCING link, alone due, before the block work of a boundary and after it; a third failure in both.
theorem witness_DeadlineExpiryFreesTag_quiescing :
    (let s := atBlock (querySent 2 .quiescing 3) 40;
      s.path.inReset = false ∧ (s.link 2).mgr.state = .quiescing ∧ onlyTag s 2 3 ∧ (s.link 2).mgr.pendingQueue = [] ∧
      (∀ g' : Tag, g' ≠ 3 → (s.link 2).mgr.outstanding[g'] = none) ∧ s.time.blockOwed = false ∧
      (s.link 2).mgr.outstanding[(3 : Tag)] = some { request := .query .temp 9, sentIn := some 0 }) ∧
    (let s := (atBlock (joining .waiting 2 (some 0)) 40).modTime (fun x => { x with blockOwed := true });
      s.path.inReset = false ∧ s.time.blockOwed = true ∧ (s.link 2).mgr.state = .joining ∧ onlyTag s 2 0 ∧
      (s.link 2).mgr.pendingQueue = []) := by decide

/-- A link with queries of tag 9 sent in block 0 under tags 0 and 3, the others held, and one query pending, in block 40. -/
def twoQueries : State := atBlock ((linkIn 2 .standby).modMgr 2 (fun m => { m with
  outstanding := #v[some { request := .query .temp 9, sentIn := some 0 }, heldTag, heldTag,
    some { request := .query .temp 9, sentIn := some 0 }]
  pendingQueue := [.query .supply 8] })) 40

theorem due_iff {o : Option Outstanding} {now : Seq16} : (∃ (x : Outstanding) (b : Seq16), o = some x ∧ x.sentIn = some b ∧ 40 ≤ (now - b).toNat) ↔
    o.any (fun x => x.sentIn.any (fun b => decide (40 ≤ (now - b).toNat))) = true := by
  cases o with
  | none => simp
  | some x => cases h : x.sentIn with
    | none => simp [h]
    | some b => simp [h]

theorem witness_DeadlineExpiryFreesTag_several : let s := twoQueries
    s.path.inReset = false ∧ (s.link 2).mgr.state ≠ .quiescing ∧ ([0, 3] : List Tag).Pairwise (· < ·) ∧
    (∀ g : Tag, g ∈ ([0, 3] : List Tag) ↔
      ∃ (o : Outstanding) (b : Seq16), (s.link 2).mgr.outstanding[g] = some o ∧ o.sentIn = some b ∧ 40 ≤ (s.time.block - b).toNat) ∧
    (∀ g : Tag, g ∈ ([0, 3] : List Tag) →
      ∃ b, (s.link 2).mgr.outstanding[g] = some { request := .query .temp 9, sentIn := some b }) ∧
    (∀ g : Tag, g ∈ ([0, 3] : List Tag) ↔ g ∈ ([0, 3] : List Tag) ∨ (s.link 2).mgr.outstanding[g] = none) :=
  ⟨by decide, by decide, by decide, fun g => by rw [due_iff]; revert g; decide,
    fun g hg => ⟨0, by revert g; decide⟩, by decide⟩

/-- Nothing of link 2 is due in block b, and something is where the next block has begun. -/
theorem witness_DeadlineExpiryFreesTag_next : let s := atBlock (querySent 2 .standby 3) 39
    s.path.inReset = false ∧ s.time.blockOwed = false ∧
    (¬ ∃ (g : Tag) (o : Outstanding) (b : Seq16), (s.link 2).mgr.outstanding[g] = some o ∧ o.sentIn = some b ∧
      40 ≤ (s.time.block - b).toNat) ∧
    (∃ (g : Tag) (o : Outstanding) (b : Seq16), (s.atBoundary.link 2).mgr.outstanding[g] = some o ∧ o.sentIn = some b ∧
      40 ≤ (s.atBoundary.time.block - b).toNat) := by
  refine ⟨by decide, by decide, ?_, 3, { request := .query .temp 9, sentIn := some 0 }, 0, by decide +kernel⟩
  rintro ⟨g, h⟩
  rw [due_iff] at h
  revert g; decide

theorem witness_FramesMoveTheLink : frameOk (frameOf false 127999 [.hello 1 2]) = true ∧ frameOk (frameOf true 0 []) = true ∧
    (let s := phased 1 .attach 49 none (some .helloWait);
      s.path.inReset = false ∧ (s.link 1).mgr.state = .attach ∧ (s.link 1).mgr.attachPhase = some .helloWait) ∧
    (let s := (linkIn 1 .active).modMgr 1 (fun m => { m with erroredRun := 2 });
      s.path.inReset = false ∧ (s.link 1).mgr.state ∈ ([.standby, .joining, .active, .quiescing] : List LinkState) ∧
      (s.link 1).mgr.erroredRun < 3) ∧
    (let s := (linkIn 1 .quiescing).modMgr 1 (fun m => { m with erroredRun := 3 });
      s.path.inReset = false ∧ (s.link 1).mgr.state ∈ ([.standby, .joining, .active, .quiescing] : List LinkState) ∧
      (s.link 1).mgr.erroredRun = 3) ∧
    (State.reset.link 1).mgr.state ∈ ([.dark, .listen, .fault] : List LinkState) := by decide

-- In ATTACH: an errored frame, a frame in DEBOUNCE, a frame of the HELLO wait without a HELLO. A frame of several messages. A frame of
-- the present period, of the one before, and of another.
theorem witness_FramesMoveTheLink_attach :
    (let s := phased 1 .attach 49 none (some .debounce);
      s.path.inReset = false ∧ (s.link 1).mgr.state = .attach ∧ (s.link 1).mgr.attachPhase ≠ some .helloWait) ∧
    (frameOf true 0 []).errored = true ∧ frameOk (frameOf false 5 [.alarmOn .door, .unknown]) = true ∧
    (∀ identity firmware, RxMsg.hello identity firmware ∉ (frameOf false 5 [.alarmOn .door, .unknown]).messages) ∧
    (frameOf false 5 [.alarmOn .door, .unknown]).messages = [.alarmOn .door] ++ [.unknown] ∧
    ((0 : Seq16) = (1 : Seq16) - 1 ∧ (0 : Seq16) ≠ 2 ∧ (0 : Seq16) ≠ (2 : Seq16) - 1) := by
  refine ⟨by decide, by decide, by decide, fun identity firmware h => ?_, by decide, by decide⟩
  simp [frameOf] at h

theorem witness_MessagesAreTakenByKind :
    (let s := linkIn 1 .standby;
      s.path.inReset = false ∧ (s.link 1).mgr.state ∈ ([.standby, .joining, .active, .quiescing] : List LinkState) ∧
      (s.link 1).mgr.wires[(3 : Fin 4)] ≠ true ∧ (s.link 1).mgr.wires[(3 : Fin 4)] = false ∧ (s.link 1).mgr.outstanding[(0 : Tag)] = none) ∧
    (frameOk (frameOf false 0 []) = true ∧ frameOk (frameOf false 5 [.alarmOn .door]) = true ∧
      frameOk (frameOf false 5 [.reply 3 .data 77]) = true ∧ frameOk (frameOf false 5 [.unknown]) = true) ∧
    (Wire.door, (3 : Fin 4)) ∈ ([(.power, 0), (.heat, 1), (.feeder, 2), (.door, 3)] : List (Wire × Fin 4)) ∧
    (let s := querySent 1 .joining 3;
      s.path.inReset = false ∧ (s.link 1).mgr.outstanding[(3 : Tag)] = some { request := .query .temp 9, sentIn := some 0 } ∧
      (s.link 1).mgr.pendingQueue = []) ∧
    (let s := queryWaits 1 .active;
      (s.link 1).mgr.outstanding[(2 : Tag)] = some { request := .query .temp 9, sentIn := some 0 } ∧
      (s.link 1).mgr.outstanding[(0 : Tag)] = some { request := .query .temp 9, sentIn := none } ∧
      (s.link 1).mgr.pendingQueue = .query .supply 8 :: [] ∧ (∀ g' : Tag, g' ≠ 2 → (s.link 1).mgr.outstanding[g'] ≠ none)) := by decide

-- Replies to the PLAN of a SWITCH exchange, and to that of a JOIN exchange after so many failures.
theorem witness_MessagesAreTakenByKind_plan :
    frameOk (frameOf false 5 [.reply 3 .accept 0]) = true ∧ frameOk (frameOf false 5 [.reply 0 .reject 0]) = true ∧
    (let s := planSent;
      s.path.inReset = false ∧ (s.link 2).mgr.state ∈ ([.standby, .joining, .active, .quiescing] : List LinkState) ∧
      (s.link 2).mgr.outstanding[(3 : Tag)] = some { request := .plan 0 5 [], sentIn := some 0 } ∧ (s.link 2).mgr.pendingQueue = [] ∧
      (s.link 2).exchange = some { purpose := .switch, target := 1, m := 5, current := some 0, standing := .waiting, attempts := 0 }) ∧
    (∀ n : Fin 3, let s := joining .waiting n.val (some 0)
      s.path.inReset = false ∧ (s.link 2).mgr.state = .joining ∧ (s.link 2).mgr.pendingQueue = [] ∧
      (s.link 2).mgr.outstanding[(0 : Tag)] = some { request := .plan 0 0 [], sentIn := some 0 } ∧
      (s.link 2).exchange = some { purpose := .join, target := 0, m := 0, current := some 0, standing := .waiting, attempts := n.val } ∧
      (s.zone (s.link 2).settings.zone).staged = none ∧ (s.zone (s.link 2).settings.zone).planId = 0 ∧ s.time.superframe + 3 = 3 ∧
      (s.zone (s.link 2).settings.zone).entries = []) := by decide

theorem witness_FourthEchoSettlesRun :
    (let s := atBlock (running 1 .standby 4 #v[some 10500, some 10501, some 10499, none] 0) 3;
      s.path.inReset = false ∧ (s.link 1).mgr.state = .standby ∧
      (s.link 1).rng.run = some (runOf 4 #v[some 10500, some 10501, some 10499, none]) ∧ s.period = 0 + 3) ∧
    (frameOk (frameOf false 10503 [.echo 7 (.run 3) 210 150]) = true ∧ frameOk (frameOf false 10504 [.echo 7 (.run 3) 210 150]) = true ∧
      10504 ≤ 65535) ∧
    max (max (max 10500 10501) 10499) 10503 - min (min (min 10500 10501) 10499) 10503 ≤ 4 ∧
    4 < max (max (max 10500 10501) 10499) 10504 - min (min (min 10500 10501) 10499) 10504 := by decide

-- The first echo of a run; an echo with no run; the end of a run in ACTIVE by the number of failures before it.
theorem witness_FourthEchoSettlesRun_others :
    (let s := running 1 .standby 1 #v[none, none, none, none] 0;
      s.path.inReset = false ∧ (s.link 1).rng.run = some (runOf 1 #v[none, none, none, none]) ∧ (0 : Fin 4).val < 1 ∧
      s.period = 0 + BitVec.ofNat 16 0 ∧ frameOk (frameOf false 65535 [.echo 7 (.run 0) 210 150]) = true) ∧
    ((linkIn 1 .standby).link 1).rng.run = none ∧
    (∀ n : Fin 3, let s := atBlock (running 1 .active 4 #v[some 10500, some 10501, some 10499, none] n.val) 3
      s.path.inReset = false ∧ (s.link 1).mgr.state = .active ∧ (s.link 1).rng.failures = n.val ∧
      (s.link 1).rng.run = some (runOf 4 #v[some 10500, some 10501, some 10499, none]) ∧ (s.link 1).rng.path = 0) := by decide

theorem witness_EchoWindowCloseEndsRun :
    (let s := running 1 .standby 1 #v[none, none, none, none] 0;
      s.path.inReset = false ∧ (s.link 1).rng.run = some (runOf 1 #v[none, none, none, none]) ∧ s.period = 0 + BitVec.ofNat 16 0 ∧
      (s.link 1).mgr.state ≠ .active) ∧
    (let s := atBlock (running 1 .active 4 #v[some 1, some 1, some 1, none] 1) 3;
      s.path.inReset = false ∧ (s.link 1).rng.run = some (runOf 4 #v[some 1, some 1, some 1, none]) ∧ s.period = 0 + BitVec.ofNat 16 3 ∧
      (s.link 1).mgr.state = .active ∧ (s.link 1).rng.failures < 2) ∧
    (let s := running 1 .active 1 #v[none, none, none, none] 2;
      (s.link 1).mgr.state = .active ∧ (s.link 1).rng.failures = 2) := by decide

/-- An ACTIVE link whose tracking count is n, with a marker. -/
def tracking (n : Nat) : State :=
  (linkIn 1 .active).modRng 1 (fun r => { r with trackCount := n, marker := some { runId := 0, block := 0, isOpen := false } })

theorem witness_TrackingMarksOpenAndClose : (tracking 16).path.inReset = false ∧ ((tracking 16).link 1).mgr.state = .active ∧
    ((tracking 16).link 1).rng.run = none ∧ ((tracking 16).link 1).rng.trackCount = 16 ∧
    ((tracking 16).link 1).rng.marker = some { runId := 0, block := 0, isOpen := false } := by decide

-- The sixteenth count still owed; due once the next boundary has begun; not due then either.
theorem witness_TrackingMarksOpenAndClose_owed :
    (let s := (tracking 15).modTime (fun x => { x with superframeOwed := true });
      s.path.inReset = false ∧ (s.link 1).mgr.state = .active ∧ (s.link 1).rng.run = none ∧ (s.link 1).rng.trackCount = 15 ∧
      s.time.superframeOwed = true ∧ (s.link 1).rng.skipCount = false) ∧
    (let s := (tracking 15).modTime (fun x => { x with index := 9 });
      s.time.superframeOwed = false ∧ s.time.blockOwed = false ∧ (s.atBoundary.link 1).mgr.state = .active ∧
      (s.atBoundary.link 1).rng.run = none ∧ (s.atBoundary.link 1).rng.trackCount = 15 ∧
      s.atBoundary.time.superframeOwed = true ∧ (s.atBoundary.link 1).rng.skipCount = false) ∧
    (State.reset.link 1).mgr.state ≠ .active ∧ (State.reset.atBoundary.link 1).mgr.state ≠ .active := by decide +kernel

-- TRACKING_MARK before SUPERFRAME_BOUNDARY, at one superframe boundary: the mark takes the sixteenth count, which is not made twice.
theorem test_tracking_mark_early :
    let s := after (.trackingMark 1) ((tracking 15).modTime (fun x => { x with index := 9 }))
    (s.link 1).rng.marker.map (fun y => y.isOpen) = some true ∧ (s.link 1).mgr.markNext = some (.mark 0 .track) ∧
    ((after .superframeBoundary s).link 1).rng.trackCount = 0 := by decide +kernel

/-- An ACTIVE link with an open marker of run 0 in block 0, after so many outliers. -/
def marked (n : Nat) : State :=
  (linkIn 1 .active).modRng 1 (fun r => { r with outliers := n, marker := some { runId := 0, block := 0, isOpen := true } })

-- Echoes 64 steps (an inlier) and 65 steps (an outlier) from the delay 0, and of another run.
theorem witness_TrackingMarksOpenAndClose_echo : (∀ n : Fin 3, (marked n.val).path.inReset = false ∧
      ((marked n.val).link 1).mgr.state = .active ∧ ((marked n.val).link 1).rng.outliers = n.val ∧
      ((marked n.val).link 1).rng.marker = some { runId := 0, block := 0, isOpen := true } ∧ (marked n.val).period = 0 ∧
      ((marked n.val).link 1).rng.delay = 0 ∧ ((marked n.val).link 1).rng.path = 0 ∧
      ((marked n.val).link 1).settings.asymmetry = 0) ∧
    (∀ step : Nat, step ∈ ([337, 338, 340] : List Nat) → frameOk (frameOf false step [.echo 0 .track 210 150]) = true) ∧
    (((337 : Int) - 210 + 0 + 1) / 2 = 64 ∧ ((338 : Int) - 210 + 0 + 1) / 2 = 64 ∧ ((340 : Int) - 210 + 0 + 1) / 2 = 65) := by decide

theorem witness_HoldExpiryMovesTarget :
    let at99 : State := (member 100 355).modGroup 3 (fun g => { g with hold := some { candidate := 300, count := 99 } })
    (let s := (member 100 355).modGroup 3 (fun g => { g with hold := some { candidate := 300, count := 100 } });
      s.path.inReset = false ∧ (s.group 3).hold = some { candidate := 300, count := 100 } ∧ (s.link 0).mgr.state = .active ∧
      (s.link 0).settings.group = 3) ∧
    (let s := at99.modTime (fun x => { x with superframeOwed := true });
      (s.group 3).hold = some { candidate := 300, count := 99 } ∧ s.time.superframeOwed = true ∧ (s.group 3).counted = false) ∧
    (let s := at99.modTime (fun x => { x with index := 9 });
      (s.group 3).hold = some { candidate := 300, count := 99 } ∧ s.time.superframeOwed = false ∧ s.time.blockOwed = false ∧
      (s.atBoundary.group 3).hold = some { candidate := 300, count := 99 } ∧ s.atBoundary.time.superframeOwed = true ∧
      (s.atBoundary.group 3).counted = false) ∧
    (State.reset.group 3).hold = none ∧ (State.reset.atBoundary.group 3).hold = none := by decide +kernel

theorem witness_RegisteredChangeFollowsItsMode :
    (let s := withInput 3 (fun c => { c with changeDue := true });
      s.path.inReset = false ∧ (s.input 3).changeDue = true ∧ (s.input 3).mode = .off) ∧
    (let s := withInput 3 (fun c => { c with changeDue := true, mode := .edge, level := true });
      s.path.inReset = false ∧ (s.input 3).changeDue = true ∧ (s.input 3).mode = .edge ∧ (s.input 3).level = true) ∧
    (let s := withInput 3 (fun c => { c with changeDue := true, mode := .level });
      s.path.inReset = false ∧ (s.input 3).changeDue = true ∧ (s.input 3).mode ≠ .off ∧ (s.input 3).level = false ∧
      (s.input 3).latch = false) ∧
    (let s := (latched .level true true).modInput 3 (fun c => { c with changeDue := true });
      s.path.inReset = false ∧ (s.input 3).changeDue = true ∧ (s.input 3).mode = .level ∧ (s.input 3).level = true ∧
      (s.input 3).latch = true ∧ (s.input 3).acked = true) := by decide

-- A change given before the sampling of its boundary, with seven samples that differ and with fewer, and one given a second time.
theorem witness_RegisteredChangeFollowsItsMode_early :
    (let s := withInput 3 (fun c => { c with stability := 7, mode := .edge });
      s.path.inReset = false ∧ (s.input 3).changeDue = false ∧ (s.input 3).stability = 7 ∧ (s.input 3).changeTaken = false) ∧
    ((withInput 3 (fun c => { c with stability := 6 })).input 3).stability ≠ 7 ∧
    ((withInput 3 (fun c => { c with stability := 7, changeTaken := true })).input 3).changeTaken = true ∧
    (State.reset.input 3).changeDue = false := by decide

/-- Zone 0 with a plan staged for superframe 0, its link 2 in a state with an exchange of a standing. -/
def switching (st : LinkState) (x : Standing) : State :=
  staging ((linkIn 2 st).modLink 2 (fun y => { y with
    exchange := some { purpose := .switch, target := 1, m := 0, current := some 0, standing := x, attempts := 0 } })) 0

theorem witness_PlanSwitchMakesStagedPlanCurrent :
    (let s := switching .active .accepted;
      s.path.inReset = false ∧ (s.zone 0).staged = some (onePlan 0) ∧ (onePlan 0).n = s.time.superframe ∧ (s.zone 0).deferred = false ∧
      (s.link 2).settings.zone = 0 ∧ (s.link 2).mgr.state = .active) ∧
    ((switching .active .waiting).link 2).exchange.any (fun x => x.standing == .accepted) = false ∧
    (let s := switching .joining .accepted;
      (s.link 2).settings.zone = 0 ∧ (s.link 2).mgr.state = .joining ∧
      (s.link 2).exchange.any (fun x => x.standing == .accepted) = true) := by decide

/-- Link 2 JOINING in zone 0 with its PLAN accepted, at a boundary whose frames have started: the service of the plan due has launched a
sample, its normal stream selected; a block record stands. -/
def entering : State :=
  let slot : Slot := { seq := 0, committed := true, words := [(5, 7)] }
  { ((switching .joining .accepted).modZone 0 (fun z => { z with selection := z.selection.set 3 (some .normal) })).modService 3 (fun x =>
      { mobile x with state := .enabled, streams := ⟨some { StreamRec.created 0 .normal with launch := some slot }, none, none⟩ }) with
    combiner := { State.reset.combiner with now := some State.reset.newRecord } }

theorem witness_PlanSwitchMakesStagedPlanCurrent_governed : let s := entering
    s.path.inReset = false ∧ s.time.blockOwed = false ∧ s.combiner.now.isSome = true ∧ (s.zone 0).staged = some (onePlan 0) ∧
    (onePlan 0).n = s.time.superframe ∧ (s.zone 0).deferred = false ∧ (s.link 2).settings.zone = 0 ∧ (s.link 2).mgr.state = .joining ∧
    (s.link 2).exchange.any (fun x => x.standing == .accepted) = true ∧ planFits 0 (onePlan 0).entries :=
  ⟨by decide, by decide, by decide, by decide, by decide, by decide, by decide, by decide, by decide,
    ⟨by decide, show 0 + 1 ≤ 32 by decide⟩⟩

theorem test_entering_launches : let t := after (.planSwitch 0) entering
    (t.link 2).mgr.state = .active ∧ sampleAt (t.link 2).line.now (32 * 5) = 7 ∧
    t.combiner.now.map (fun r => (r.launched[(2 : LinkIx)], r.launched[(3 : LinkIx)])) = some (some 0, none) := by decide +kernel

/-- Link 2 JOINING in zone 0, whose plan switches at superframe 0, after n failures, its PLAN sent in block 0 or not. -/
def missing (n : Nat) (sent : Option Seq16) : State := staging (joining .waiting n sent) 0

theorem witness_PlanSwitchMakesStagedPlanCurrent_missed :
    (∀ n : Fin 3, (missing n.val (some 0)).planWasSent 2
      { purpose := .join, target := 0, m := 0, current := some 0, standing := .waiting, attempts := n.val }) ∧
    (¬ (missing 2 none).planWasSent 2 { purpose := .join, target := 0, m := 0, current := some 0, standing := .waiting, attempts := 2 }) ∧
    (∀ n : Fin 3, let s := missing n.val (some 0)
      s.path.inReset = false ∧ (s.zone 0).staged = some (onePlan 0) ∧ (onePlan 0).n = s.time.superframe ∧ (s.zone 0).deferred = false ∧
      (s.link 2).settings.zone = 0 ∧ (s.link 2).mgr.state = .joining ∧
      (s.link 2).exchange = some { purpose := .join, target := 0, m := 0, current := some 0, standing := .waiting, attempts := n.val }) :=
  ⟨fun n => ⟨0, 0, 0, [], 0, by revert n; decide⟩, not_sent (by decide), by decide⟩

theorem witness_PlanSwitchMakesStagedPlanCurrent_deferred :
    let s := (switching .active .accepted).modZone 0 (fun z => { z with deferred := true })
    s.path.inReset = false ∧ (s.zone 0).staged = some (onePlan 0) ∧ (onePlan 0).n = s.time.superframe ∧ (s.zone 0).deferred = true ∧
    s.classesBounded := by decide

-- A switch that is not due, nor at the next boundary, and one that is due at the next boundary.
theorem witness_PlanSwitchMakesStagedPlanCurrent_next : State.reset.path.inReset = false ∧
    ((State.reset.zone 0).staged = none ∧ (State.reset.atBoundary.zone 0).staged = none) ∧
    (let s := (staging State.reset 1).modTime (fun x => { x with index := 9 });
      s.path.inReset = false ∧ s.time.blockOwed = false ∧ (s.zone 0).staged = some (onePlan 1) ∧ (onePlan 1).n ≠ s.time.superframe ∧
      (s.atBoundary.zone 0).staged = some (onePlan 1) ∧ (onePlan 1).n = s.atBoundary.time.superframe) := by decide +kernel

theorem witness_JoinSwitchSettlesExchanges :
    ((joining .accepted 0 (some 0)).path.inReset = false ∧ (joining .accepted 0 (some 0)).joinDue 2 = true) ∧
    (∀ n : Fin 3, (joining .waiting n.val (some 0)).joinDue 2 = true ∧ (joining .waiting n.val (some 0)).planWasSent 2
      { purpose := .join, target := 0, m := 0, current := some 0, standing := .waiting, attempts := n.val }) ∧
    ((joining .waiting 2 none).joinDue 2 = true ∧ ¬ (joining .waiting 2 none).planWasSent 2
      { purpose := .join, target := 0, m := 0, current := some 0, standing := .waiting, attempts := 2 }) ∧
    (joining .accepted 0 none).joinDue 3 = false :=
  ⟨by decide, fun n => ⟨by revert n; decide, 0, 0, 0, [], 0, by revert n; decide⟩, ⟨by decide, not_sent (by decide)⟩, by decide⟩

theorem witness_JoinSwitchSettlesExchanges_next : (∀ l, State.reset.joinDue l = false) ∧ (∀ l, State.reset.atBoundary.joinDue l = false) ∧
    (let s := (joining .waiting 0 none).modTime (fun x => { x with superframe := 65535, index := 9 });
      s.path.inReset = false ∧ s.time.blockOwed = false ∧ (∀ l, s.joinDue l = false) ∧ s.atBoundary.joinDue 2 = true) := by decide +kernel

theorem witness_BlockBoundaryAdvancesTimebase : State.reset.path.inReset = false ∧ State.reset.time.blockOwed = false ∧
    State.reset.combiner.prev = none ∧ ((State.reset.modTime (fun x => { x with index := 9 })).time.blockOwed = false) := by decide

theorem witness_BlockBoundaryAdvancesTimebase_quiet : State.reset.quiet := by
  have h : ∀ l, State.reset.link l = Link.atReset := by decide
  refine ⟨by decide, fun l => ?_, fun g h => ?_, by decide, fun z p => ?_⟩
  · rw [h l]
    have hg : ∀ g : Tag, Link.atReset.mgr.outstanding[g] = none := by decide
    exact ⟨by decide, by decide, by decide, by decide, by decide, fun g o b e => (by rw [hg g] at e; cases e), fun x n e => (by cases e),
      fun x e => (by cases e), fun y e => (by cases e), by decide, by decide⟩
  · have : ∀ g, (State.reset.group g).hold = none := by decide
    rw [this g]; intro e; cases e
  · have : ∀ z, (State.reset.zone z).staged = none := by decide
    rw [this z]; intro e; cases e

/-- A boundary begun, its block work owed. -/
def owed (s : State) : State := s.modTime (fun x => { x with blockOwed := true, superframeOwed := true })

/-- Service 3 of one lane, carried to link 2 by the plan of zone 0 in the block two before the present, which link 2 has received; work
stands on the list or none. -/
def combining (work : List WorkBlock) : State :=
  owed { (enabledMobile true).modLink 2 (fun x => { x with
      mgr := { x.mgr with state := .active, laser := true }
      rx := some { oldest := { samples := [], taken := true, valid := true }, middle := { samples := [], taken := true, valid := true }
                   newest := { samples := [], taken := false, valid := false } }
      gates := x.gates.set 3 (some .fresh) }) with
    combiner :=
      { prev := some { plans := Vector.replicate 8 [{ service := 3, first := 0, width := 1 }], applied := Vector.replicate 16 0
                       incident := Vector.replicate 8 false, launched := (Vector.replicate 16 none).set 2 (some 0)
                       enabled := (Vector.replicate 24 false).set 3 true }
        now := some { plans := Vector.replicate 8 [], applied := Vector.replicate 16 0, incident := Vector.replicate 8 false
                      launched := Vector.replicate 16 none, enabled := Vector.replicate 24 false }
        workList := work } }

/-- A block of service 3 on the work list. -/
def workOf3 (handed : Nat) : WorkBlock :=
  { service := 3, header := { seq := 0, expected := 1, missing := 0, opened := 0, clips := 0, droppedBefore := 0, empty := false
                              isPartial := false }, words := [], handed := handed }

theorem same_plans : ∀ z : ZoneIx, (Vector.replicate 8 [({ service := 3, first := 0, width := 1 } : Entry)])[z] =
    [{ service := 3, first := 0, width := 1 }] := by decide

theorem witness_BlockBoundaryAdvancesTimebase_combines : ∃ r, (combining []).combiner.prev = some r ∧
    (combining []).atBoundary = combining [] ∧ (∀ l : LinkIx, r.applied[l] ≤ 16383) ∧ (combining []).combines r 3 ∧
    r.expects 3 (2, 0) ∧
    (∀ v, (combining []).combines r v → 1 ≤ ((combining []).service v).width ∧
      ∀ c, r.expects v c → c.2 + ((combining []).service v).width ≤ 32) ∧
    ¬ (combining []).combines r 4 ∧ (∀ y, y ∈ (combining []).combiner.workList → y.service ≠ 3) ∧
    (∃ y, y ∈ (combining [workOf3 0]).combiner.workList ∧ y.service = 3) := by
  refine ⟨_, rfl, rfl, by decide, by decide, ⟨0, { service := 3, first := 0, width := 1 }, by decide⟩, fun v hv => ?_, by decide, by decide, ⟨workOf3 0, by decide⟩⟩
  have h3 : v = 3 := by revert v; decide
  subst h3
  refine ⟨by decide, fun c ⟨z, e, _, he, hc⟩ => ?_⟩
  have he' : e = { service := 3, first := 0, width := 1 } := by
    simp only [same_plans z] at he
    exact (Option.some.inj he).symm
  rw [← hc, he']; decide

theorem witness_BlockBoundaryStartsFrames :
    (let s := owed ((running 1 .standby 3 #v[some 1, some 1, some 1, none] 0).modTime (fun x => { x with block := 3 }));
      s.path.inReset = false ∧ s.time.blockOwed = true ∧ (s.link 1).mgr.state ∈ ([.standby, .active] : List LinkState) ∧
      (s.link 1).rng.run = some (runOf 3 #v[some 1, some 1, some 1, none]) ∧ s.time.block = 0 + BitVec.ofNat 16 3) ∧
    ((owed (member 100 355)).link 0).mgr.state = .active ∧ ((owed (linkIn 3 .fault)).link 3).mgr.state = .fault ∧
    ((owed (withInput 3 (fun c => { c with stability := 7 }))).input 3).stability = 7 := by decide

-- A link in the detection phase with lock, an emptied QUIESCING link, a run none of whose marks falls (all sent, and the next one a block
-- on), and an input whose registered change was taken early.
theorem witness_BlockBoundaryStartsFrames_notes :
    (let m := ((owed (phased 15 .listen 100 (some .detect) none)).link 15).mgr;
      m.state = .listen ∧ m.listenPhase = some .detect ∧ m.lock = true) ∧
    (let m := ((owed (linkIn 15 .quiescing)).link 15).mgr;
      m.state = .quiescing ∧ (∀ g : Tag, m.outstanding[g] = none) ∧ m.pendingQueue = []) ∧
    (∀ n : Fin 5, let s := owed ((running 1 .active n.val #v[none, none, none, none] 0).modTime (fun x => { x with block := 4 }));
      (s.link 1).mgr.state = .active ∧ (s.link 1).rng.run = some (runOf n.val #v[none, none, none, none]) ∧
      ∀ m : Fin 4, ¬ (n.val = m.val ∧ s.time.block = 0 + BitVec.ofNat 16 m.val)) ∧
    ((owed (withInput 3 (fun c => { c with changeTaken := true }))).input 3).changeTaken = true := by decide

theorem test_boundary_finds_due :
    (((after (.blockBoundary 0) (owed (phased 15 .listen 100 (some .detect) none))).link 15).mgr.attachDue = true ∧
      ((after (.blockBoundary 0) (owed (phased 15 .listen 100 (some .detect) none))).link 15).mgr.quiesceDue = false) ∧
    ((after (.blockBoundary 0) (owed (linkIn 15 .quiescing))).link 15).mgr.quiesceDue = true := by decide +kernel

-- The boundary this event begins itself.
theorem witness_BlockBoundaryStartsFrames_begins : (member 100 355).path.inReset = false ∧ (member 100 355).time.blockOwed = false ∧
    ((member 100 355).atBoundary.link 0).mgr.state = .active ∧ (member 100 355).atBoundary.time.block = 1 := by decide +kernel

theorem witness_BlockBoundaryLaunchesStreams : ∃ r1 r2,
    ((owed (enabledMobile true)).path.inReset = false ∧ (owed (enabledMobile true)).time.blockOwed = true ∧
      ((owed (enabledMobile true)).service 3).state = .enabled ∧
      ((owed (enabledMobile true)).service 3).streams.get .normal = some r1 ∧ r1.open1.committed = true) ∧
    (((owed (enabledMobile false)).service 3).streams.get .normal = some r2 ∧ r2.open1.committed = false) :=
  ⟨{ StreamRec.created 0 .normal with open1 := { seq := 1, committed := true, words := [] } },
    { StreamRec.created 0 .normal with open1 := { seq := 1, committed := false, words := [] } }, by decide⟩

/-- Service 3 BROADCAST with a normal and an A stream, both next blocks committed, on lane 31 of zone 0, which source 0 owns with
channel A; the zone has selected the normal stream so far, and link 2 is ACTIVE in it. -/
def fading : State :=
  let rec_ (n : StreamName) : StreamRec := { StreamRec.created 0 n with open1 := { seq := 1, committed := true, words := [(5, 7)] }, starved := false }
  owed { ((withService 3 (fun x => { mobile x with
      state := .enabled, kind := .broadcast, ring := none, streams := ⟨some (rec_ .normal), some (rec_ .a), none⟩
      areas := ⟨some { base := 0x100000, blocks := 3 }, some { base := 0x200000, blocks := 3 }, none⟩ })).modZone 0 (fun z => { z with
      entries := [{ service := 3, first := 31, width := 1 }], selection := z.selection.set 3 (some .normal), owner := some 0 })).modMgr 2
      (fun m => { m with state := .active, laser := true }) with
    arbiter := { State.reset.arbiter with
      parts := State.reset.arbiter.parts.set 0 (some { mask := 1, priority := 0, channel := .a, stamp := 0 }), list := [0], counter := 1 } }

theorem witness_BlockBoundaryLaunchesStreams_fade : let s := fading
    s.path.inReset = false ∧ s.time.blockOwed = true ∧ (s.link 2).mgr.state = .active ∧ (s.link 2).settings.zone = 0 ∧
    (s.zone 0).staged = none ∧ (s.zone 0).entries = [{ service := 3, first := 31, width := 1 }] ∧ (s.service 3).kind = .broadcast ∧
    (s.zone 0).owner = some 0 ∧ (s.arbiter.parts[(0 : SourceIx)]).map (fun p => p.channel) = some .a ∧ (s.zone 0).crossfade = true ∧
    (s.zone 0).selection[(3 : ServiceIx)] = some .normal := by decide +kernel

theorem witness_BlockBoundaryLaunchesStreams_changes : ((after (.blockBoundary 0) fading).zone 0).selection[(3 : ServiceIx)] = some .a ∧
    ((after (.blockBoundary 0) fading).service 3).streams.normal.map (fun r => r.launch.map (fun x => x.committed)) = some (some true) ∧
    ((after (.blockBoundary 0) fading).service 3).streams.a.map (fun r => (r.starved, r.launch.map (fun x => x.committed))) =
      some (false, some true) := by decide +kernel

theorem witness_BlockBoundaryLaunchesStreams_fits : planFits 0 [{ service := 3, first := 31, width := 1 }] ∧
    (∀ e, e ∈ ([{ service := 3, first := 31, width := 1 }] : List Entry) → 1 ≤ e.width) :=
  ⟨⟨by decide, show 31 + 1 ≤ 32 by decide⟩, by decide⟩

theorem witness_SuperframeBoundaryReportsAndSnapshots :
    (owed (tracking 15)).path.inReset = false ∧ (owed (tracking 15)).time.superframeOwed = true ∧
    ((owed (tracking 15)).link 1).mgr.state = .active ∧ ((owed (tracking 15)).link 1).rng.run = none ∧
    ((owed (tracking 15)).link 1).rng.skipCount = false ∧ ((owed (tracking 15)).link 1).rng.trackCount < 16 ∧
    (let s := (tracking 15).modTime (fun x => { x with index := 9 });
      s.time.superframeOwed = false ∧ s.time.blockOwed = false ∧ s.time.index = 9) := by decide

theorem witness_SuperframeBoundaryReportsAndSnapshots_none : State.reset.time.superframeOwed = false ∧ State.reset.time.index ≠ 9 := by
  decide

theorem witness_HostAccessesAreGranted : State.reset.pathIdle ∧ State.reset.windowAligned ∧
    (∀ i, i < [BusWord.mk 1 15, BusWord.mk 2 15].length → State.reset.placeOf (0x3FFF + BitVec.ofNat 28 i) ∈
      ([.flushWord, .windowRest, .elsewhere] : List Place)) ∧
    State.reset.placeOf 0x102 = .flushWord ∧ State.reset.placeOf 0xFFFFFFF = .elsewhere ∧
    ((enabledMobile false).placeOf 0x40651 = .stream 3 .normal ∧ (enabledMobile false).placeOf 0x80000 = .ring 3 ∧
      (enabledMobile false).path.windowBase + 65536 ≤ 4 * (0x40651 : BitVec 28).toNat) := by decide

/-- Two postings queued, the port busy. -/
def twoQueued : State := withPath (fun m => { m with port := .posting, queue := [postingAt .statusPoster 0x1000, postingAt .statusPoster 0x1020] })

theorem stands_waiting {s : State} {addrs : List (BitVec 28)} (h : ∀ q, q ∈ s.path.queue → ∀ a, a ∈ addrs → ¬ q.writes a) :
    s.stands addrs .waiting := .inl ⟨rfl, h⟩

theorem writes_postingAt {p : Producer} {b : Nat} {a : BitVec 28} : (postingAt p b).writes a ↔ a = BitVec.ofNat 28 (b / 4) := by
  constructor
  · rintro ⟨j, hj, he⟩
    obtain rfl : j = 0 := Nat.lt_one_iff.mp hj
    simpa [postingAt] using he
  · rintro rfl; exact ⟨0, Nat.one_pos, by simp [postingAt]⟩

/-- Nothing queued: an access waits. -/
theorem waits_alone {s : State} {addrs : List (BitVec 28)} (h : s.path.queue = []) : s.stands addrs .waiting :=
  stands_waiting (fun q hq => by rw [h] at hq; cases hq)

/-- One posting queued, of another word: an access waits. -/
theorem waits_beside {s : State} {p : Producer} {b : Nat} {a : BitVec 28} (h : s.path.queue = [postingAt p b])
    (ha : a ≠ BitVec.ofNat 28 (b / 4)) : s.stands [a] .waiting :=
  stands_waiting (fun q hq a' ha' => by
    rw [h, List.mem_singleton] at hq; rw [List.mem_singleton] at ha'; subst hq ha'; exact fun e => ha (writes_postingAt.mp e))

/-- One posting queued, of this word: an access is held behind it. -/
theorem held_behind {s : State} {p : Producer} {b : Nat} {a : BitVec 28} (h : s.path.queue = [postingAt p b])
    (ha : a = BitVec.ofNat 28 (b / 4)) : s.stands [a] (.held 0) := by
  refine .inr ⟨0, postingAt p b, rfl, by rw [h]; rfl, ⟨a, List.mem_singleton_self a, writes_postingAt.mpr ha⟩, fun j q' hj hq' => ?_⟩
  rw [h, List.getElem?_eq_none (by simp; omega)] at hq'
  cases hq'

/-- A posting of the status poster queued at a byte address. -/
def oneQueued (s : State) (a : Nat) : State := s.modPath (fun m => { m with queue := [postingAt .statusPoster a] })

-- Writes of the order ring's first word and of the word beyond the window that enter WAITING, and the first HELD behind a posting.
theorem witness_HostAccessesAreGranted_stands :
    (let s := oneQueued State.reset 0;
      s.path.inReset = false ∧ s.path.access = none ∧ s.stands [0] (.held 0) ∧ s.stands [0x4000] .waiting) ∧
    (∀ v, State.reset.placeOf 0 ∉ ([.statusPage, .noticeRing, .ring v] : List Place)) ∧
    (∀ v, State.reset.placeOf 0x4000 ∉ ([.statusPage, .noticeRing, .ring v] : List Place)) ∧
    (twoQueued.path.port ≠ .idle ∧ (oneQueued State.reset 0).path.port = .idle ∧ (oneQueued State.reset 0).path.queue ≠ []) :=
  ⟨⟨by decide, by decide, held_behind rfl (by decide), waits_beside rfl (by decide)⟩, by decide, by decide, by decide⟩

theorem witness_ReadsAreHeldBehindPostings : twoQueued.path.inReset = false ∧ twoQueued.path.access = none ∧ twoQueued.windowAligned ∧
    twoQueued.path.queue ≠ [] ∧ twoQueued.path.queue[0]? = some (postingAt .statusPoster 0x1000) ∧
    (0x3FF : BitVec 28) + BitVec.ofNat 28 1 = BitVec.ofNat 28 ((postingAt .statusPoster 0x1000).addr / 4) + BitVec.ofNat 28 0 ∧
    (∀ i, i < 2 → twoQueued.placeOf (0x3FF + BitVec.ofNat 28 i) ≠ .flushWord) ∧
    (∀ i, i < 8 → twoQueued.placeOf (0xFFFFFFF + BitVec.ofNat 28 i) ≠ .flushWord) := by decide

theorem witness_OwnedWritesAreWithheld : State.reset.path.inReset = false ∧ State.reset.path.access = none ∧
    State.reset.path.queue = [] ∧ State.reset.path.port = .idle ∧ 
    (∀ i, i < 8 → State.reset.placeOf (0x400 + BitVec.ofNat 28 i) = .statusPage) ∧
    (∀ i, i < 1 → State.reset.placeOf (0x9FF + BitVec.ofNat 28 i) = .noticeRing) ∧
    (∀ i, i < 2 → 1 ≤ i → State.reset.placeOf (0x9FF + BitVec.ofNat 28 i) ∈ ([.windowRest, .elsewhere] : List Place)) ∧
    ((enabledMobile false).path.inReset = false ∧ (enabledMobile false).path.access = none ∧
      ∀ i, i < 8 → (enabledMobile false).placeOf (0x80000 + BitVec.ofNat 28 i) = .ring 3) := by decide

-- Two words of which the first, at the end of the notice ring, is owned and the second is not.
theorem witness_OwnedWritesAreWithheld_mixed : let s := State.reset
    let ws := [BusWord.mk 1 15, BusWord.mk 2 15]
    s.writeWords 0x9FF ws = [{ addr := 0x9FF, place := .noticeRing, data := 1, enables := 15 },
      { addr := 0xA00, place := .windowRest, data := 2, enables := 15 }] ∧
    (∃ v, s.placeOf (0x9FF + BitVec.ofNat 28 0) ∈ ([.statusPage, .noticeRing, .ring v] : List Place)) ∧
    (¬ ∃ v, s.placeOf (0x9FF + BitVec.ofNat 28 1) ∈ ([.statusPage, .noticeRing, .ring v] : List Place)) ∧
    s.placeOf (0x9FF + BitVec.ofNat 28 0) = .noticeRing ∧
    (∀ t : State, t.path.queue = [] → t.stands [0xA00] .waiting) :=
  ⟨by decide, ⟨0, by decide⟩, by decide, by decide, fun t h => waits_alone h⟩

theorem witness_SampleWritesAreCaptured :
    (enabledMobile false).pathIdle ∧ (enabledMobile false).placeOf 0x40651 = .stream 3 .normal ∧
    ((enabledMobile false).service 3).areas.get .normal = some { base := 0x100000, blocks := 3 } ∧
    ((enabledMobile false).service 3).streams.get .normal =
      some { StreamRec.created 0 .normal with open1 := { seq := 1, committed := false, words := [] } } ∧
    8 ≤ ((4 * (0x40650 : BitVec 28).toNat - 0x100000) % (32 + 6400 * 1)) / 4 ∧
    ((4 * (0x40650 : BitVec 28).toNat - 0x100000) / (32 + 6400 * 1) = 1 ∧
      (4 * (0x40CA0 : BitVec 28).toNat - 0x100000) / (32 + 6400 * 1) = 2 ∧
      (4 * (0x40008 : BitVec 28).toNat - 0x100000) / (32 + 6400 * 1) = 0) ∧
    ((enabledMobile true).pathIdle ∧ (enabledMobile true).placeOf 0x40650 = .stream 3 .normal) := by decide

-- The wrap of the block counter: blocks 65,535 and 0 share index 0 of three, the nearer committed, the further not.
theorem witness_SampleWritesAreCaptured_shared :
    let s : State := (enabledMobile false).modService 3 (fun x => { x with streams := ⟨some { StreamRec.created 65534 .normal with
      open1 := { seq := 65535, committed := true, words := [] } }, none, none⟩ })
    s.path.inReset = false ∧ s.path.access = none ∧ s.stands [0x40008] .waiting ∧ s.placeOf 0x40008 = .stream 3 .normal ∧
    (s.service 3).streams.normal.map (fun r => (r.open1.seq, r.open1.committed, r.open2.seq, r.open2.committed)) =
      some (65535, true, 0, false) ∧ (65535 : Seq16).toNat % 3 = 0 ∧ (0 : Seq16).toNat % 3 = 0 ∧
    1 ≤ ((4 * (0x40001 : BitVec 28).toNat - 0x100000) % (32 + 6400 * 1)) / 4 :=
  ⟨by decide, by decide, waits_alone rfl, by decide, by decide, by decide, by decide, by decide⟩

theorem witness_SampleWritesAreCaptured_held : (oneQueued (enabledMobile false) 0x101920).stands [0x40648] (.held 0) ∧
    (oneQueued (enabledMobile false) 0x101920).stands [0x40651] .waiting :=
  ⟨held_behind rfl (by decide), waits_beside rfl (by decide)⟩

theorem witness_CommitWritesAreJudged :
    (enabledMobile false).pathIdle ∧ (enabledMobile false).placeOf 0x40648 = .stream 3 .normal ∧
    ((4 * (0x40648 : BitVec 28).toNat - 0x100000) % (32 + 6400 * 1)) / 4 = 0 ∧
    ((4 * (0x40648 : BitVec 28).toNat - 0x100000) / (32 + 6400 * 1) = 1) ∧ (enabledMobile false).period = 0 ∧
    (((1 : Seq16) - 0).toNat = 1 ∧ ((2 : Seq16) - 0).toNat = 2 ∧ ((32768 : Seq16) - 0).toNat = 32768 ∧ ((3 : Seq16) - 0).toNat = 3 ∧
      ((32767 : Seq16) - 0).toNat < 32768) ∧
    ((enabledMobile true).pathIdle ∧ (enabledMobile true).placeOf 0x40648 = .stream 3 .normal) := by decide

/-- Slot 31 executing, pending up to slot 1. -/
def executing : State :=
  (withPath (fun m => { m with port := .posting, queue := [postingAt .orderUnit 1020] })).modOrders (fun u =>
    { u with consumer := 31, producer := 1, executing := some 31 })

theorem witness_OrderRingWritesAreTapped : executing.path.inReset = false ∧ executing.path.access = none ∧ executing.windowAligned ∧
    executing.ordersInStep ∧ executing.stands [executing.windowWord 0x400] .waiting ∧
    executing.stands [executing.windowWord (32 * 31 + 4 * 7)] (.held 0) ∧
    (let u := executing.orders; (u.producer - u.consumer).val = 2 ∧ ((1 : Fin 32) - u.consumer).val = 2 ∧
      ((0 : Fin 32) - u.consumer).val = 1 ∧ ((30 : Fin 32) - u.consumer).val = 31 ∧ u.executing.isSome = true) ∧
    ((2 : Fin 32).val = ((2 : Word).extractLsb' 0 5).toNat) :=
  ⟨by decide, by decide, by decide, fun _ => ⟨by decide, fun h => by cases h⟩, waits_beside rfl (by decide),
    held_behind rfl (by decide), by decide, by decide⟩

-- A producer index of 1 and of 31 while nothing executes, with room in the posting queue and without.
theorem witness_OrderRingWritesAreTapped_taken :
    (State.reset.windowAligned ∧ State.reset.ordersInStep ∧ State.reset.orders.executing = none ∧ State.reset.path.queue.length < 64 ∧
      ((1 : Fin 32).val = ((1 : Word).extractLsb' 0 5).toNat) ∧ ((31 : Fin 32).val = ((31 : Word).extractLsb' 0 5).toNat) ∧
      (State.reset.orders.producer - State.reset.orders.consumer).val < ((1 : Fin 32) - State.reset.orders.consumer).val) ∧
    (∀ t : State, t.path.queue = [postingAt .orderUnit 28] → t.stands [0x100] .waiting) ∧
    (let s := withPath (fun m => { m with port := .posting, queue := List.replicate 64 (postingAt .combiner 0x200000) });
      s.path.access = none ∧ s.orders.executing = none ∧ 64 ≤ s.path.queue.length ∧ s.stands [s.windowWord 0x400] .waiting) := by
  refine ⟨⟨by decide, fun _ => ⟨by decide, fun _ => by decide⟩, by decide, by decide, by decide, by decide, by decide⟩,
    fun t h => waits_beside h (by decide), by decide, by decide, by decide, stands_waiting (fun q hq a ha => ?_)⟩
  rw [List.eq_of_mem_replicate hq, List.mem_singleton.mp ha]
  exact fun e => absurd (writes_postingAt.mp e) (by decide)

theorem witness_ConsumerIndexWriteFreesSpace :
    let s := State.reset.modNotices (fun u => { u with written := 64, posted := 60, holdState := .hold })
    s.path.inReset = false ∧ s.path.access = none ∧ s.windowAligned ∧ s.stands [s.windowWord 0x404] .waiting ∧
      (((60 : Word).extractLsb' 0 16 : Seq16) - s.notices.consumed).toNat ≤ (s.notices.posted - s.notices.consumed).toNat ∧
      (s.notices.posted - s.notices.consumed).toNat < (((61 : Word).extractLsb' 0 16 : Seq16) - s.notices.consumed).toNat :=
  ⟨by decide, by decide, by decide, waits_alone rfl, by decide, by decide⟩

theorem witness_MemoryPortCompletionEndsAccess : (withPath (fun m => { m with port := .host })).path.port = .host ∧
    (twoQueued.path.port = .posting ∧
      twoQueued.path.queue = postingAt .statusPoster 0x1000 :: [postingAt .statusPoster 0x1020]) ∧
    (let s := (withPath (fun m => { m with port := .posting, queue := List.replicate 64 (postingAt .combiner 0) })).modOrders (fun u =>
        { u with result := some (postingAt .orderUnit 28) });
      s.path.port = .posting ∧ s.path.queue = postingAt .combiner 0 :: List.replicate 63 (postingAt .combiner 0) ∧
      (List.replicate 63 (postingAt .combiner 0)).length = 63 ∧ s.orders.result = some (postingAt .orderUnit 28)) ∧
    ((after (.hostRead 0x3FF 2) twoQueued).path.access.map (fun a => a.standing) = some (.held 0)) ∧
    (let s := (withPath (fun m => { m with port := .posting, queue := [postingAt .orderUnit 28] })).modOrders (fun u => { u with producer := 1 });
      s.orders.producer = s.orders.consumer + 1) := by decide

-- A result with another order pending, below and at the full queue; a full queue whose first producer with a posting is the poster, and
-- one where none has any; a posting that RESET left at the port; an idle port.
theorem witness_MemoryPortCompletionEndsAccess_others :
    (executing.path.port = .posting ∧ executing.path.queue = [postingAt .orderUnit 1020] ∧
      executing.orders.producer ≠ executing.orders.consumer + 1) ∧
    (let s := withPath (fun m => { m with port := .posting, queue := List.replicate 64 (postingAt .combiner 0) });
      let t : State := { s with poster := { pagesCut := 0, page := some { words := [], handed := 0, breakIns := Vector.replicate 8 [] } } };
      s.path.inReset = false ∧ s.path.queue = postingAt .combiner 0 :: List.replicate 63 (postingAt .combiner 0) ∧
      s.orders.result.isSome = false ∧ s.notices.handing.isSome = false ∧ s.poster.page.isSome = false ∧ s.combiner.workList = [] ∧
      t.poster.page.isSome = true ∧ t.notices.handing.isSome = false) ∧
    ([.orderUnit, .noticeUnit, .statusPoster, .combiner] : List Producer) = [.orderUnit, .noticeUnit] ++ .statusPoster :: [.combiner] ∧
    (withPath (fun m => { m with port := .orphan (postingAt .combiner 0) })).path.port = .orphan (postingAt .combiner 0) ∧
    State.reset.path.port = .idle := by decide

theorem witness_PostingEnqueueHandsOver :
    (let s : State := { State.reset with orders := { State.reset.orders with result := some (postingAt .orderUnit 28) }
                                         poster := { pagesCut := 0, page := some { words := [], handed := 63, breakIns := Vector.replicate 8 [] } }
                                         notices := { State.reset.notices with handing := some (.ownedWrite 0 1 [] none, 0) } };
      s.path.inReset = false ∧ s.path.queue.length < 64 ∧ s.orders.result = some (postingAt .orderUnit 28) ∧
      s.notices.handing = some (.ownedWrite 0 1 [] none, 0) ∧ s.poster.page = some { words := [], handed := 63, breakIns := Vector.replicate 8 [] }) ∧
    (let s : State := { enabledMobile false with combiner := { prev := none, now := none, workList :=
        [{ service := 3, header := { seq := 0, expected := 1, missing := 0, opened := 0, clips := 0, droppedBefore := 0, empty := false
                                     isPartial := false }, words := [], handed := 199 }] } };
      s.path.inReset = false ∧ s.path.queue.length < 64 ∧ (s.service 3).ring = some { base := 0x200000, blocks := 2 } ∧
      s.combiner.workList ≠ [] ∧ 199 < 200 * (s.service 3).width ∧ 200 * (s.service 3).width ≤ 200) ∧
    64 ≤ (withPath (fun m => { m with queue := List.replicate 64 (postingAt .combiner 0) })).path.queue.length := by decide

/-- A notice queued, so much of the ring in use, in a hold state, with a count owed or none. -/
def noticed (w : Seq16) (h : HoldState) (owedLoss : Nat) : State := State.reset.modNotices (fun u =>
  { u with queue := [.alarm 0 .door true], written := w, posted := w, holdState := h, lost := u.lost.set 0 owedLoss })

theorem witness_NoticeHandoverTakesOrLoses :
    ((noticed 63 .normal 0).path.inReset = false ∧ (noticed 63 .normal 0).notices.handing = none ∧
      (noticed 63 .normal 0).path.queue.length < 64 ∧ (∀ k : Fin 13, (noticed 63 .normal 0).notices.lost[k] = 0) ∧
      (noticed 63 .normal 0).notices.queue = .alarm 0 .door true :: [] ∧ (Notice.alarm 0 .door true).records ≤ 64 - 63) ∧
    (64 - (64 : Seq16).toNat < (Notice.alarm 0 .door true).records ∧ (noticed 64 .hold 0).notices.written = 64) ∧
    ((noticed 63 .normal 1).notices.holdState = .normal ∧ (noticed 63 .normal 1).notices.lost[(0 : Fin 13)] ≠ 0 ∧
      0 < 64 - ((noticed 63 .normal 1).notices.written - (noticed 63 .normal 1).notices.consumed).toNat) := by decide

theorem witness_NoticeHandoverTakesOrLoses_record : (Notice.ownedWrite 1 0 (List.replicate 6 (3, 1)) none).records = 2 ∧
    (Notice.noticesLost (Vector.replicate 13 0)).records ≤ 4 ∧ (12 : Fin 13).val = 12 ∧ (3 : Fin 13).val = 4 - 1 := by decide

theorem witness_ResetEmptiesAndRestores :
    (twoQueued.path.port = .posting ∧ twoQueued.path.queue = postingAt .statusPoster 0x1000 :: [postingAt .statusPoster 0x1020]) ∧
    (withPath (fun m => { m with port := .host })).path.port = .host ∧
    (State.reset.path.port = .idle ∧ State.reset.path.access = none) ∧
    (after (.hostRead 0x400 1) twoQueued).path.access.isSome = true ∧
    (withPath (fun m => { m with inReset := true })).path.inReset = true := by decide

theorem witness_ResetEmptiesAndRestores_others : State.reset.path.inReset = false ∧
    (withPath (fun m => { m with inReset := true })).path.access = none := by decide

/-- A state with this command at the front of its queue. -/
def queue (c : Instr) (s : State) : State := { s with pending := [c] }

theorem witness_StepKeepsQueuesBounded : ∃ t, (queue (.lockLost 1) (noticed 63 .normal 0)).postingQueueBounded ∧
    (queue (.lockLost 1) (noticed 63 .normal 0)).noticeQueueBounded ∧ step (queue (.lockLost 1) (noticed 63 .normal 0)) = .next t :=
  ⟨_, by decide, by decide, rfl⟩

theorem witness_StepKeepsPathPlaced : ∃ t, (queue .memoryPortCompletion executing).windowAligned ∧
    (queue .memoryPortCompletion executing).emptyInReset ∧ (queue .memoryPortCompletion executing).executingAtConsumer ∧
    (queue .memoryPortCompletion executing).ordersInStep ∧ step (queue .memoryPortCompletion executing) = .next t :=
  ⟨_, by decide, by decide, fun x h => by injection h with h; exact h.symm, fun _ => ⟨by decide, fun h => by cases h⟩, rfl⟩

/-- A notice record posted and not yet consumed, another in the posting queue. -/
def unconsumed : State :=
  (withPath (fun m => { m with queue := [postingAt .noticeUnit 0x2000], port := .posting })).modNotices (fun u =>
    { u with written := 2, posted := 1, nirq := true })

theorem witness_StepKeepsNoticeRing : ∃ t, (queue .memoryPortCompletion unconsumed).emptyInReset ∧
    (queue .memoryPortCompletion unconsumed).nirqRight ∧ (queue .memoryPortCompletion unconsumed).noticeRingRight ∧
    step (queue .memoryPortCompletion unconsumed) = .next t :=
  ⟨_, by decide, by decide, fun _ => ⟨by decide, by decide, by decide, fun n k h => by cases h⟩, rfl⟩

theorem witness_StepKeepsLinkRecords :
    (queue (.lockLost 2) (joining .waiting 0 none)).laserRight ∧ (queue (.lockLost 2) (joining .waiting 0 none)).exchangesPlaced ∧
    (queue (.lockLost 2) (joining .waiting 0 none)).closedChannelsEmpty ∧ (queue (.lockLost 2) (joining .waiting 0 none)).pendingBounded ∧
    ∃ t, step (queue (.lockLost 2) (joining .waiting 0 none)) = .next t := ⟨by decide, by decide, by decide, by decide, _, rfl⟩

theorem member_aligned : (member 100 355).membersAligned := by
  intro l hl
  by_cases h : l = 0
  · subst h
    have hg : ((member 100 355).link 0).settings.group = 3 := by decide
    have hh : ((member 100 355).group 3).hold = none := by decide
    rw [hg, hh]
    exact ⟨355, by decide, by decide, (fun h e => by cases e), by decide, by decide, by decide⟩
  · exact absurd hl (by revert l; decide)

theorem witness_StepKeepsMembersAligned : (queue (.setGroup 3 7 100) (member 100 355)).delaysBounded ∧
    (queue (.setGroup 3 7 100) (member 100 355)).membersAligned ∧ ∃ t, step (queue (.setGroup 3 7 100) (member 100 355)) = .next t :=
  ⟨by decide, member_aligned, _, rfl⟩

theorem witness_StepKeepsZonesOwned : (queue (.breakinStop 0 7) started).incidentRight ∧
    (queue (.breakinStop 0 7) started).ownershipRight ∧ ∃ t, step (queue (.breakinStop 0 7) started) = .next t :=
  ⟨fun z => by revert z; decide, ownership_started, _, rfl⟩

theorem witness_StepKeepsPlansAndCapacity : (queue (.disableService 3 7) (staging (enabledMobile false) 5)).capacityHeld ∧
    (queue (.disableService 3 7) (staging (enabledMobile false) 5)).classesBounded ∧
    (queue (.disableService 3 7) (staging (enabledMobile false) 5)).plansFit ∧
    (queue (.disableService 3 7) (staging (enabledMobile false) 5)).oneBlockPerService ∧
    ∃ t, step (queue (.disableService 3 7) (staging (enabledMobile false) 5)) = .next t := by
  refine ⟨by decide, by decide, fun z => ?_, by decide, _, rfl⟩
  by_cases h : z = 0
  · subst h
    refine ⟨?_, fun p hp => ?_⟩
    · rw [show ((queue (.disableService 3 7) (staging (enabledMobile false) 5)).zone 0).entries = [] by decide]
      exact Nat.zero_le 32
    · rw [show ((queue (.disableService 3 7) (staging (enabledMobile false) 5)).zone 0).staged = some (onePlan 5) by decide] at hp
      cases hp
      exact ⟨by decide, show 1 ≤ 32 by decide⟩
  · have : ∀ z, z ≠ 0 → ((queue (.disableService 3 7) (staging (enabledMobile false) 5)).zone z).entries = [] ∧
        ((queue (.disableService 3 7) (staging (enabledMobile false) 5)).zone z).staged = none := by decide
    rw [(this z h).1, (this z h).2]
    exact ⟨Nat.zero_le 32, fun p hp => by cases hp⟩

/-- A link of index 1 that holds one sample of its present block. -/
def sampled : State := State.reset.modLink 1 (fun x => { x with line := { now := [(31, 5)], before := [] } })

theorem witness_StepKeepsStoresCanonical : (queue (.blockBoundary 0) sampled).storesCanonical ∧
    ∃ t, step (queue (.blockBoundary 0) sampled) = .next t := by
  refine ⟨⟨fun l => ⟨?_, ?_, fun h hh => ?_⟩, fun v n r hr => ?_, fun b hb => ?_⟩, _, rfl⟩
  · revert l; decide
  · revert l; decide
  · have : ∀ l, ((queue (.blockBoundary 0) sampled).link l).rx = none := by decide
    rw [this l] at hh; cases hh
  · have : ∀ v, ((queue (.blockBoundary 0) sampled).service v).streams = ⟨none, none, none⟩ := by decide
    rw [this v] at hr; cases n <;> cases hr
  · cases hb

end Sys2Proof.Tests
end

section
/-! The commit words of a stream area (R74): what a stream counter does, what R74 makes of each distance of the sequence, and how one word
of a host write reaches the stream unit and goes on to memory (R155, R162). -/

namespace Sys2Proof.Machine

open Sys2Proof

/-! ## Counters of a stream -/

theorem PerStream.get_set {α : Type} (p : PerStream α) (n m : StreamName) (x : α) :
    (p.set n x).get m = if m = n then x else p.get m := by
  cases n <;> cases m <;> rfl

theorem Counters.get_bump (k : Counters) (c c' : CounterName) :
    (k.bump c).get c' = if c' = c then bump16 (k.get c) else k.get c' := by
  cases c <;> cases c' <;> rfl

theorem bump16_of_lt {k : Nat} (h : k < 65535) : bump16 k = k + 1 := if_pos h

theorem Service.count_of_held {y : Service} {n : StreamName} {c : CounterName} (h : 65535 ≤ (y.totals.get n).get c) :
    y.count n c = y := if_neg (Nat.not_lt.mpr h)

theorem Service.count_of_lt {y : Service} {n : StreamName} {c : CounterName} (h : (y.totals.get n).get c < 65535) :
    y.count n c = { y with
      totals := y.totals.set n ((y.totals.get n).bump c)
      streams := y.streams.set n ((y.streams.get n).map (fun r => { r with increments := r.increments.bump c })) } := if_pos h

/-- R63: below 65,535 the total of the name alone goes up by 1. -/
theorem Service.count_totals {y : Service} {n : StreamName} {c : CounterName} (h : (y.totals.get n).get c < 65535)
    (n' : StreamName) (c' : CounterName) :
    ((y.count n c).totals.get n').get c' = (y.totals.get n').get c' + if n' = n ∧ c' = c then 1 else 0 := by
  rw [Service.count_of_lt h, PerStream.get_set]
  by_cases hn : n' = n
  · subst hn
    by_cases hc : c' = c
    · subst hc; simp [Counters.get_bump, bump16_of_lt h]
    · simp [Counters.get_bump, hc]
  · simp [hn]

/-- R70: below 65,535 the record of the stream counted for changes in its increments, and no other record does. -/
theorem Service.count_streams {y : Service} {n : StreamName} {c : CounterName} (h : (y.totals.get n).get c < 65535) (n' : StreamName) :
    (y.count n c).streams.get n' = if n' = n then
      (y.streams.get n).map (fun r => { r with increments := r.increments.bump c }) else y.streams.get n' := by
  rw [Service.count_of_lt h, PerStream.get_set]

/-! ## The commit word (R74) -/

/-- R74: the sequence is read where the write enables both its bytes; without them the word is disregarded. -/
theorem Service.takeWord_commitWord {y : Service} {n : StreamName} {ar : Area} (har : y.areas.get n = some ar) (b : Seq16) {addr : Nat}
    (w : BusWord) (hpos : ((addr - ar.base) % blockBytes y.width) / 4 = 0) :
    y.takeWord n b addr w = if w.enables.getLsbD 0 = true ∧ w.enables.getLsbD 1 = true then
      y.takeCommit n b ar.blocks ((addr - ar.base) / blockBytes y.width) (w.data.extractLsb' 0 16) else y := by
  simp [Service.takeWord, har, hpos]

section
variable {y : Service} {n : StreamName} {r : StreamRec} {b seq : Seq16}

theorem Service.takeCommit_ahead_one (hr : y.streams.get n = some r) (blocks i : Nat) (hd : (seq - b).toNat = 1) :
    y.takeCommit n b blocks i seq =
      if r.open1.committed = true then y.count n .duplicate
      else if i = seq.toNat % blocks then
        { y with streams := y.streams.set n (some { r with open1 := { r.open1 with committed := true } }) }
      else y.count n .misplaced := by
  simp [Service.takeCommit, hr, hd, sequenceIndex]

theorem Service.takeCommit_ahead_two (hr : y.streams.get n = some r) (blocks i : Nat) (hd : (seq - b).toNat = 2) :
    y.takeCommit n b blocks i seq =
      if r.open2.committed = true then y.count n .duplicate
      else if i = seq.toNat % blocks then
        { y with streams := y.streams.set n (some { r with open2 := { r.open2 with committed := true } }) }
      else y.count n .misplaced := by
  simp [Service.takeCommit, hr, hd, sequenceIndex]

theorem Service.takeCommit_stale (hr : y.streams.get n = some r) (blocks i : Nat)
    (hd : (seq - b).toNat = 0 ∨ 32768 ≤ (seq - b).toNat) : y.takeCommit n b blocks i seq = y.count n .stale := by
  have hne : ¬ ((seq - b).toNat = 1 ∨ (seq - b).toNat = 2) := by omega
  simp only [Service.takeCommit, hr, if_neg hne, if_pos hd]

theorem Service.takeCommit_early (hr : y.streams.get n = some r) (blocks i : Nat) (hlo : 3 ≤ (seq - b).toNat)
    (hhi : (seq - b).toNat < 32768) : y.takeCommit n b blocks i seq = y.count n .early := by
  have hne : ¬ ((seq - b).toNat = 1 ∨ (seq - b).toNat = 2) := by omega
  have hold : ¬ ((seq - b).toNat = 0 ∨ 32768 ≤ (seq - b).toNat) := by omega
  simp only [Service.takeCommit, hr, if_neg hne, if_neg hold]

end

/-! ## A write to places that are not owned (R155, R162) -/

theorem Posting.overlaps_iff (p : Posting) (addrs : List (BitVec 28)) : p.overlaps addrs = true ↔ ∃ a, a ∈ addrs ∧ p.writes a := by
  simp only [Posting.overlaps, Posting.wordAddrs, List.any_eq_true, List.contains_iff_mem, mem_accessAddrs, Posting.writes]
  exact ⟨fun ⟨a, hw, ha⟩ => ⟨a, ha, hw⟩, fun ⟨a, ha, hw⟩ => ⟨a, hw, ha⟩⟩

theorem Posting.overlaps_eq_false_iff (p : Posting) (addrs : List (BitVec 28)) :
    p.overlaps addrs = false ↔ ∀ a, a ∈ addrs → ¬ p.writes a := by
  rw [← Bool.not_eq_true, Posting.overlaps_iff]; push Not; rfl

theorem releaseMark_eq_none {q : List Posting} {addrs : List (BitVec 28)} (h : ∀ p, p ∈ q → p.overlaps addrs = false) :
    releaseMark q addrs = none := by
  refine Option.eq_none_iff_forall_ne_some.mpr fun k hk => ?_
  obtain ⟨⟨p, hp, hov⟩, -⟩ := (releaseMark_eq_some q addrs k).mp hk
  exact absurd hov (by simp [h p (List.mem_of_getElem? hp)])

/-- R162: the standing the statements give an access is the one its release mark gives it. -/
theorem State.standingOf_of_stands {s : State} {addrs : List (BitVec 28)} {x : AccessStanding} (h : s.stands addrs x) :
    standingOf (releaseMark s.path.queue addrs) = x := by
  obtain ⟨rfl, hfree⟩ | ⟨k, q, rfl, hq, hmeets, hyounger⟩ := h
  · rw [releaseMark_eq_none fun p hp => (p.overlaps_eq_false_iff addrs).mpr (hfree p hp)]; rfl
  · have hmark : releaseMark s.path.queue addrs = some k := (releaseMark_eq_some _ _ _).mpr
      ⟨⟨q, hq, (q.overlaps_iff addrs).mpr hmeets⟩, fun j p hj hp => (p.overlaps_eq_false_iff addrs).mpr (hyounger j p hj hp)⟩
    rw [hmark]; rfl

/-- R155: a write with no owned word is admitted whole, at its release mark. -/
theorem State.admitWrite_of_unowned {s : State} {words : List AccessWord} {x : AccessStanding} (hne : words ≠ [])
    (hown : ∀ w, w ∈ words → w.place.owned = false) (hx : s.stands (words.map (fun w => w.addr)) x) :
    (s.admitWrite words).arbitrated = s.withArrival true words x := by
  have hleft : words.filter (fun w => !w.place.owned) = words := List.filter_eq_self.mpr fun w hw => by simp [hown w hw]
  have hfirst : words.find? (fun w => w.place.owned) = none := List.find?_eq_none.mpr fun w hw => by simp [hown w hw]
  have hkept : words.map AccessWord.withheld = words :=
    (List.map_congr_left fun w hw => by simp [AccessWord.withheld, hown w hw]).trans (List.map_id words)
  rw [← State.standingOf_of_stands hx]
  simp only [State.admitWrite, hleft, hkept, MemPath.withhold, hfirst, List.isEmpty_iff, if_neg hne]
  rfl

/-- R155: with the port of the processor free, a write with no owned word reaches its units and stands in the part. -/
theorem State.hostWrite_of_unowned {s t : State} {a : BitVec 28} {ws : List BusWord} {x : AccessStanding}
    (hrst : s.path.inReset = false) (hfree : s.path.access = none) (hne : s.writeWords a ws ≠ [])
    (hown : ∀ w, w ∈ s.writeWords a ws → w.place.owned = false) (ht : (s.writeWords a ws).foldl State.tapWord s = t)
    (hx : t.stands ((s.writeWords a ws).map (fun w => w.addr)) x) :
    s.hostWrite a ws = t.withArrival true (s.writeWords a ws) x := by
  rw [← State.admitWrite_of_unowned hne hown hx, ← ht]
  simp [State.hostWrite, hrst, hfree]

/-- R72, R155: a single word written to a stream area is taken by its service and goes on to memory. -/
theorem State.hostWrite_streamWord {s : State} {a : BitVec 28} {w : BusWord} {v : ServiceIx} {n : StreamName} {x : AccessStanding}
    (hrst : s.path.inReset = false) (hfree : s.path.access = none) (hx : s.stands [a] x) (hplace : s.placeOf a = .stream v n) :
    s.hostWrite a [w] = (s.modService v (fun _ => (s.service v).takeWord n s.period (4 * a.toNat) w)).withArrival true
      [{ addr := a, place := .stream v n, data := w.data, enables := w.enables }] x := by
  have hwords : s.writeWords a [w] = [{ addr := a, place := .stream v n, data := w.data, enables := w.enables }] := by
    simp [State.writeWords, hplace]
  rw [← hwords]
  refine State.hostWrite_of_unowned hrst hfree (by simp [hwords]) (by simp [hwords, Place.owned]) ?_ (by rw [hwords]; exact hx)
  rw [hwords]; rfl

theorem exec_commitWordWrite_single (s : State) (a : BitVec 28) (w : BusWord) :
    exec (.commitWordWrite a [w]) s = .next (s.hostWrite a [w]) := rfl

/-! ## The statement -/

/-- Settles O46, the counters by R63 and R70 and the write by R74's distance of the sequence. -/
theorem commitWritesAreJudged : Obligations.CommitWritesAreJudged := by
  refine ⟨fun y n c => ⟨Service.count_of_held, fun h => ⟨y.count_frame n c, Service.count_totals h, fun n' hn => ?_, fun hr => ?_,
    fun r hr => ?_⟩⟩, ?_⟩
  · rw [Service.count_streams h, if_neg hn]
  · simp [Service.count_streams h, hr]
  · exact ⟨{ r with increments := r.increments.bump c }, by simp [Service.count_streams h, hr], rfl, r.increments.get_bump c⟩
  · intro s a w v n y ar r x hrst hfree hx hplace hy har hr _ block i seq ahead sent hpos
    have hsent : exec (.commitWordWrite a [w]) s = sent (if w.enables.getLsbD 0 = true ∧ w.enables.getLsbD 1 = true then
        y.takeCommit n s.period ar.blocks i seq else y) := by
      rw [exec_commitWordWrite_single, State.hostWrite_streamWord hrst hfree hx hplace, hy]
      exact congrArg sent (Service.takeWord_commitWord har s.period w hpos)
    rw [hsent]
    refine ⟨fun hbytes => by rw [if_neg hbytes], fun h0 h1 => ?_⟩
    rw [if_pos ⟨h0, h1⟩]
    have one (hd : ahead = 1) := Service.takeCommit_ahead_one hr ar.blocks i hd
    have two (hd : ahead = 2) := Service.takeCommit_ahead_two hr ar.blocks i hd
    refine ⟨fun hd hopen hi => ?_, fun hd hopen hi => ?_, fun hnext hi => ?_, fun hnext => ?_, fun hd => ?_, fun hlo hhi => ?_⟩
    · simp [one hd, hopen, hi]
    · simp [two hd, hopen, hi]
    · obtain ⟨hd, hopen⟩ | ⟨hd, hopen⟩ := hnext
      · simp [one hd, hopen, Ne.symm hi]
      · simp [two hd, hopen, Ne.symm hi]
    · obtain ⟨hd, hcommitted⟩ | ⟨hd, hcommitted⟩ := hnext
      · simp [one hd, hcommitted]
      · simp [two hd, hcommitted]
    · rw [Service.takeCommit_stale hr ar.blocks i hd]
    · rw [Service.takeCommit_early hr ar.blocks i hlo hhi]

end Sys2Proof.Machine
end

section
/-! What the incident states (R105) and the break-in owners (R122, R127) of the zones rest on, as one view of the state, and the operations
of every other unit, which leave it as it is. -/

namespace Sys2Proof.Machine

open Sys2Proof

/-! ## The view -/

/-- The fields R105 and R127 speak of: of the zone records, of the contact inputs, and of the break-in arbiter. -/
structure ZoneView where
  hostFlag : ZoneIx → Bool
  incident : ZoneIx → Bool
  owner : ZoneIx → Option SourceIx
  latch : InputIx → Bool
  incidentFlag : InputIx → Bool
  mask : InputIx → BitVec 8
  arbiter : Arbiter

def State.zoneView (s : State) : ZoneView :=
  { hostFlag := fun z => (s.zone z).hostFlag, incident := fun z => (s.zone z).incident, owner := fun z => (s.zone z).owner
    latch := fun i => (s.input i).latch, incidentFlag := fun i => (s.input i).incidentFlag, mask := fun i => (s.input i).mask
    arbiter := s.arbiter }

/-! ## Record updates and folds -/

section
variable (s : State)

@[simp] theorem State.modLink_zoneView (l : LinkIx) (f : Link → Link) : (s.modLink l f).zoneView = s.zoneView := rfl
@[simp] theorem State.modGroup_zoneView (g : GroupIx) (f : Group → Group) : (s.modGroup g f).zoneView = s.zoneView := rfl
@[simp] theorem State.modService_zoneView (v : ServiceIx) (f : Service → Service) : (s.modService v f).zoneView = s.zoneView := rfl
@[simp] theorem State.modMgr_zoneView (l : LinkIx) (f : Manager → Manager) : (s.modMgr l f).zoneView = s.zoneView := rfl
@[simp] theorem State.modSettings_zoneView (l : LinkIx) (f : Settings → Settings) : (s.modSettings l f).zoneView = s.zoneView := rfl
@[simp] theorem State.modRng_zoneView (l : LinkIx) (f : Ranging → Ranging) : (s.modRng l f).zoneView = s.zoneView := rfl
@[simp] theorem State.modAlign_zoneView (l : LinkIx) (f : Align → Align) : (s.modAlign l f).zoneView = s.zoneView := rfl
@[simp] theorem State.setExchange_zoneView (l : LinkIx) (e : Option Exchange) : (s.setExchange l e).zoneView = s.zoneView := rfl
@[simp] theorem State.modPath_zoneView (f : MemPath → MemPath) : (s.modPath f).zoneView = s.zoneView := rfl
@[simp] theorem State.modOrders_zoneView (f : OrderUnit → OrderUnit) : (s.modOrders f).zoneView = s.zoneView := rfl
@[simp] theorem State.modNotices_zoneView (f : NoticeUnit → NoticeUnit) : (s.modNotices f).zoneView = s.zoneView := rfl
@[simp] theorem State.modTime_zoneView (f : Timebase → Timebase) : (s.modTime f).zoneView = s.zoneView := rfl
@[simp] theorem State.notify_zoneView (n : Notice) : (s.notify n).zoneView = s.zoneView := rfl
@[simp] theorem State.arbitrated_zoneView : s.arbitrated.zoneView = s.zoneView := rfl

theorem State.modZone_zoneView_eq (z : ZoneIx) (f : Zone → Zone) : (s.modZone z f).zoneView = { s.zoneView with
    hostFlag := Function.update s.zoneView.hostFlag z (f (s.zone z)).hostFlag
    incident := Function.update s.zoneView.incident z (f (s.zone z)).incident
    owner := Function.update s.zoneView.owner z (f (s.zone z)).owner } := by
  have hz {β : Type} (g : Zone → β) : (fun z' => g ((s.modZone z f).zone z')) =
      Function.update (fun z' => g (s.zone z')) z (g (f (s.zone z))) := by
    funext z'
    rw [State.modZone_zone_eq, Function.update_apply, apply_ite g]
    simp only [eq_comm]
  simp only [State.zoneView, hz Zone.hostFlag, hz Zone.incident, hz Zone.owner]
  rfl

theorem State.modInput_zoneView_eq (i : InputIx) (f : ContactInput → ContactInput) : (s.modInput i f).zoneView = { s.zoneView with
    latch := Function.update s.zoneView.latch i (f (s.input i)).latch
    incidentFlag := Function.update s.zoneView.incidentFlag i (f (s.input i)).incidentFlag
    mask := Function.update s.zoneView.mask i (f (s.input i)).mask } := by
  have hi {β : Type} (g : ContactInput → β) : (fun j => g ((s.modInput i f).input j)) =
      Function.update (fun j => g (s.input j)) i (g (f (s.input i))) := by
    funext j
    rw [State.modInput_input_eq, Function.update_apply, apply_ite g]
    simp only [eq_comm]
  simp only [State.zoneView, hi ContactInput.latch, hi ContactInput.incidentFlag, hi ContactInput.mask]
  rfl

/-- A zone record whose host flag, derived state and owner stand changes nothing of the view. -/
theorem State.modZone_zoneView (z : ZoneIx) (f : Zone → Zone)
    (h : ∀ x, (f x).hostFlag = x.hostFlag ∧ (f x).incident = x.incident ∧ (f x).owner = x.owner) :
    (s.modZone z f).zoneView = s.zoneView := by
  obtain ⟨hhost, hincident, howner⟩ := h (s.zone z)
  rw [State.modZone_zoneView_eq, hhost, hincident, howner]
  simp [State.zoneView]

/-- A contact input whose latch, incident flag and mask stand changes nothing of the view. -/
theorem State.modInput_zoneView (i : InputIx) (f : ContactInput → ContactInput)
    (h : ∀ x, (f x).latch = x.latch ∧ (f x).incidentFlag = x.incidentFlag ∧ (f x).mask = x.mask) :
    (s.modInput i f).zoneView = s.zoneView := by
  obtain ⟨hlatch, hflag, hmask⟩ := h (s.input i)
  rw [State.modInput_zoneView_eq, hlatch, hflag, hmask]
  simp [State.zoneView]

end

section
variable {α : Type} {f : State → α → State} (s : State)

/-- A fold of steps that leave the view leaves it. -/
theorem foldl_zoneView (h : ∀ s a, (f s a).zoneView = s.zoneView) (xs : List α) : (xs.foldl f s).zoneView = s.zoneView :=
  foldl_induct (fun t => t.zoneView = s.zoneView) f (fun t a ht => (h t a).trans ht) xs s rfl

theorem State.forLinks_zoneView {f : State → LinkIx → State} (h : ∀ s l, (f s l).zoneView = s.zoneView) :
    (s.forLinks f).zoneView = s.zoneView := foldl_zoneView s h _
theorem State.forServices_zoneView {f : State → ServiceIx → State} (h : ∀ s v, (f s v).zoneView = s.zoneView) :
    (s.forServices f).zoneView = s.zoneView := foldl_zoneView s h _
theorem State.forZones_zoneView {f : State → ZoneIx → State} (h : ∀ s z, (f s z).zoneView = s.zoneView) :
    (s.forZones f).zoneView = s.zoneView := foldl_zoneView s h _
theorem State.forGroups_zoneView {f : State → GroupIx → State} (h : ∀ s g, (f s g).zoneView = s.zoneView) :
    (s.forGroups f).zoneView = s.zoneView := foldl_zoneView s h _
theorem State.forInputs_zoneView {f : State → InputIx → State} (h : ∀ s i, (f s i).zoneView = s.zoneView) :
    (s.forInputs f).zoneView = s.zoneView := foldl_zoneView s h _

end

section
variable (s : State) (l : LinkIx) (z : ZoneIx)

/-! ## Alignment (chapter 3) -/

@[simp] theorem State.computeKStar_zoneView (g : GroupIx) : (s.computeKStar g).zoneView = s.zoneView := by
  unfold State.computeKStar
  split
  · rfl
  · exact foldl_zoneView s (fun s l => s.modAlign_zoneView l _) _

@[simp] theorem State.reEvaluate_zoneView (g : GroupIx) (cause : AlignCause) (cleared : List (LinkIx × Bool)) :
    (s.reEvaluate g cause cleared).zoneView = s.zoneView := by
  unfold State.reEvaluate; dsimp only; split <;> simp

@[simp] theorem State.joinGroup_zoneView : (s.joinGroup l).zoneView = s.zoneView := by simp [State.joinGroup]
@[simp] theorem State.leaveGroup_zoneView : (s.leaveGroup l).zoneView = s.zoneView := by simp [State.leaveGroup]
@[simp] theorem State.leaveGroupDown_zoneView (b : Bool) : (s.leaveGroupDown l b).zoneView = s.zoneView := by
  unfold State.leaveGroupDown; dsimp only; split <;> simp
@[simp] theorem State.reportPath_zoneView : (s.reportPath l).zoneView = s.zoneView := by
  unfold State.reportPath; split <;> simp
@[simp] theorem State.expireHold_zoneView (g : GroupIx) : (s.expireHold g).zoneView = s.zoneView := by
  unfold State.expireHold; split <;> simp
@[simp] theorem State.holdExpiryIfDue_zoneView (g : GroupIx) : (s.holdExpiryIfDue g).zoneView = s.zoneView := by
  unfold State.holdExpiryIfDue; split <;> simp
@[simp] theorem State.holdExpiry_zoneView (g : GroupIx) : (s.holdExpiry g).zoneView = s.zoneView := by
  unfold State.holdExpiry State.countAndExpire; split <;> simp
@[simp] theorem State.slewAll_zoneView : s.slewAll.zoneView = s.zoneView :=
  s.forLinks_zoneView fun s l => by split <;> simp
theorem orderSetGroup_zoneView (o : Order) : (orderSetGroup o s).1.zoneView = s.zoneView := by
  unfold orderSetGroup; split <;> simp

/-! ## The control channel (1.3) -/

@[simp] theorem State.queryDone_zoneView (r : Request) (c : QueryOutcome) (d : BitVec 32) :
    (s.queryDone l r c d).zoneView = s.zoneView := by
  unfold State.queryDone; split <;> simp
@[simp] theorem State.issueRequest_zoneView (r : Request) : (s.issueRequest l r).zoneView = s.zoneView := by
  unfold State.issueRequest; dsimp only; repeat' split
  all_goals simp
@[simp] theorem State.issueSetup_zoneView : (s.issueSetup l).zoneView = s.zoneView := rfl
@[simp] theorem State.freeTag_zoneView (t : Tag) : (s.freeTag l t).zoneView = s.zoneView := rfl
@[simp] theorem State.completeAllDown_zoneView : (s.completeAllDown l).zoneView = s.zoneView := by
  simp [State.completeAllDown, foldl_zoneView]
@[simp] theorem State.abortPending_zoneView : (s.abortPending l).zoneView = s.zoneView := by
  simp [State.abortPending, foldl_zoneView]

/-! ## The uplink combiner (chapter 8) -/

@[simp] theorem State.takeSamples_zoneView (f : UplinkFrame) : (s.takeSamples l f).zoneView = s.zoneView := by
  unfold State.takeSamples; split <;> simp
@[simp] theorem State.createGates_zoneView (plan : List Entry) : (s.createGates l plan).zoneView = s.zoneView :=
  foldl_zoneView s (fun s v => by split <;> simp) _
@[simp] theorem State.openUplink_zoneView : (s.openUplink l).zoneView = s.zoneView := by simp [State.openUplink]
@[simp] theorem State.closeUplink_zoneView : (s.closeUplink l).zoneView = s.zoneView := rfl
@[simp] theorem State.pruneGates_zoneView (r : BlockRecord) : (s.pruneGates r).zoneView = s.zoneView :=
  s.forLinks_zoneView fun _ _ => rfl
@[simp] theorem State.updateGate_zoneView (v : ServiceIx) (e : Nat) : (s.updateGate v l e).zoneView = s.zoneView := rfl
@[simp] theorem State.appendBlock_zoneView (b : WorkBlock) : (s.appendBlock b).zoneView = s.zoneView := rfl
@[simp] theorem State.dropBlock_zoneView (v : ServiceIx) : (s.dropBlock v).zoneView = s.zoneView := rfl
@[simp] theorem State.combineService_zoneView (r : BlockRecord) (k : Seq16) (v : ServiceIx) :
    (s.combineService r k v).zoneView = s.zoneView := by
  have hgates := foldl_zoneView s (fun s c => s.updateGate_zoneView c.1 v (blockEnergy (s.contribution r c.1 c.2 (s.service v).width)
    (s.service v).width)) ((expectedOf r v).filter (fun c => s.isPresent v c.1))
  unfold State.combineService; dsimp only; split
  · split <;> simp [hgates]
  · rfl
@[simp] theorem State.combinePoint_zoneView : s.combinePoint.zoneView = s.zoneView := by
  unfold State.combinePoint; dsimp only
  split <;> split <;> simp [State.forServices_zoneView]
@[simp] theorem State.advanceHistories_zoneView : s.advanceHistories.zoneView = s.zoneView := s.forLinks_zoneView fun _ _ => rfl
@[simp] theorem State.pushRecord_zoneView : s.pushRecord.zoneView = s.zoneView := rfl
@[simp] theorem State.combinerHanded_zoneView : s.combinerHanded.zoneView = s.zoneView := by
  unfold State.combinerHanded; split <;> rfl
@[simp] theorem State.disableUplink_zoneView (v : ServiceIx) : (s.disableUplink v).zoneView = s.zoneView := rfl
@[simp] theorem State.reportUplink_zoneView (v : ServiceIx) : (s.reportUplink v).zoneView = s.zoneView := by
  unfold State.reportUplink; dsimp only; split <;> simp

/-! ## Streams and lanes (chapter 4, 7.3) -/

@[simp] theorem State.launchStreams_zoneView : s.launchStreams.zoneView = s.zoneView := s.forServices_zoneView fun _ _ => rfl
@[simp] theorem State.reportStreams_zoneView (v : ServiceIx) : (s.reportStreams v).zoneView = s.zoneView := by
  unfold State.reportStreams; dsimp only; split <;> split <;> simp
@[simp] theorem State.selectAll_zoneView : s.selectAll.zoneView = s.zoneView :=
  s.forZones_zoneView fun s z => s.modZone_zoneView z _ fun _ => ⟨rfl, rfl, rfl⟩
@[simp] theorem State.startFrame_zoneView : (s.startFrame l).zoneView = s.zoneView := rfl
@[simp] theorem State.regovern_zoneView : (s.regovern l).zoneView = s.zoneView := by
  unfold State.regovern; split <;> rfl

/-! ## Link states (1.2) -/

@[simp] theorem State.takeDown_zoneView (new : LinkState) (cause : LinkCause) : (s.takeDown l new cause).zoneView = s.zoneView := by
  simp [State.takeDown]
@[simp] theorem State.fault_zoneView (c : FaultCause) : (s.fault l c).zoneView = s.zoneView := by simp [State.fault]
@[simp] theorem State.enterActive_zoneView : (s.enterActive l).zoneView = s.zoneView := by simp [State.enterActive]
@[simp] theorem State.leaveActive_zoneView (new : LinkState) (cause : LinkCause) :
    (s.leaveActive l new cause).zoneView = s.zoneView := by
  unfold State.leaveActive; dsimp only; split <;> simp

/-! ## The allocator (chapter 5) -/

@[simp] theorem State.issuePlan_zoneView (x : Exchange) (plan : List Entry) : (s.issuePlan l x plan).zoneView = s.zoneView := by
  simp [State.issuePlan]
@[simp] theorem State.issueJoin_zoneView (n : Nat) : (s.issueJoin l n).zoneView = s.zoneView := by simp [State.issueJoin]
@[simp] theorem State.openExchanges_zoneView (p : StagedPlan) : (s.openExchanges z p).zoneView = s.zoneView :=
  s.forLinks_zoneView fun s l => by
    split
    · split <;> simp
    · rfl
@[simp] theorem State.replan_zoneView : (s.replan z).zoneView = s.zoneView := by
  obtain ⟨-, h⟩ | ⟨-, -, h⟩ | ⟨-, -, h⟩ := s.replan_cases z <;> rw [h]
  · exact s.modZone_zoneView z _ fun _ => ⟨rfl, rfl, rfl⟩
  · rw [State.openExchanges_zoneView]
    exact s.modZone_zoneView z _ fun _ => ⟨rfl, rfl, rfl⟩
@[simp] theorem State.replanAll_zoneView (zs : List ZoneIx) : (s.replanAll zs).zoneView = s.zoneView :=
  foldl_zoneView s State.replan_zoneView zs
@[simp] theorem State.countAttempt_zoneView (x : Exchange) : (s.countAttempt l x).zoneView = s.zoneView := by
  unfold State.countAttempt; split <;> simp
@[simp] theorem State.planCompleted_zoneView (n : Nat) (r : PlanReport) : (s.planCompleted l n r).zoneView = s.zoneView := by
  unfold State.planCompleted; repeat' split
  all_goals simp
@[simp] theorem State.completeReply_zoneView (r : Request) (c : ReplyStatus) (d : BitVec 32) :
    (s.completeReply l r c d).zoneView = s.zoneView := by
  unfold State.completeReply; repeat' split
  all_goals simp
@[simp] theorem State.completeTimeout_zoneView (r : Request) : (s.completeTimeout l r).zoneView = s.zoneView := by
  unfold State.completeTimeout; split <;> simp
@[simp] theorem State.switchActive_zoneView : (s.switchActive l).zoneView = s.zoneView := by
  unfold State.switchActive; split <;> simp
@[simp] theorem State.switchJoining_zoneView : (s.switchJoining l).zoneView = s.zoneView := by
  unfold State.switchJoining; repeat' split
  all_goals simp
@[simp] theorem State.switchLinks_zoneView : (s.switchLinks z).zoneView = s.zoneView :=
  s.forLinks_zoneView fun s l => by
    split
    · split <;> simp
    · rfl
@[simp] theorem State.renewJoins_zoneView : (s.renewJoins z).zoneView = s.zoneView := by
  unfold State.renewJoins; split
  · rfl
  · exact foldl_zoneView s (fun s l => by simp) _
@[simp] theorem State.deferredReplan_zoneView : (s.deferredReplan z).zoneView = s.zoneView := by
  unfold State.deferredReplan; split
  · rw [State.replan_zoneView]
    exact s.modZone_zoneView z _ fun _ => ⟨rfl, rfl, rfl⟩
  · rfl
@[simp] theorem State.switchGates_zoneView : (s.switchGates z).zoneView = s.zoneView := foldl_zoneView s (fun s l => by simp) _
@[simp] theorem State.regovernChanged_zoneView (t : State) : (t.regovernChanged s).zoneView = t.zoneView :=
  t.forLinks_zoneView fun t l => by split <;> simp
/-- R99: a switch changes the plan fields of its zone alone. -/
@[simp] theorem State.switchZone_zoneView (p : StagedPlan) : (s.switchZone z p).zoneView = s.zoneView := by
  simp [State.switchZone, State.modZone_zoneView, Zone.switched]
@[simp] theorem State.planSwitchIfDue_zoneView : (s.planSwitchIfDue z).zoneView = s.zoneView := by
  unfold State.planSwitchIfDue; repeat' split
  all_goals simp
@[simp] theorem State.joinSwitch_zoneView : (s.joinSwitch l).zoneView = s.zoneView := by
  unfold State.joinSwitch; repeat' split
  all_goals simp
@[simp] theorem State.joinSwitchAll_zoneView : s.joinSwitchAll.zoneView = s.zoneView := by
  unfold State.joinSwitchAll
  rw [State.regovernChanged_zoneView]
  exact s.forLinks_zoneView fun s l => by split <;> simp

/-! ## Ranging (chapter 2) -/

@[simp] theorem State.startRun_zoneView (c : RunCause) : (s.startRun l c).zoneView = s.zoneView := rfl
@[simp] theorem State.endOk_zoneView (r : RangingRun) : (s.endOk l r).zoneView = s.zoneView := by
  unfold State.endOk; dsimp only; split <;> simp
@[simp] theorem State.endFailed_zoneView (r : RangingRun) (c : RunOutcome) : (s.endFailed l r c).zoneView = s.zoneView := by
  unfold State.endFailed; dsimp only; repeat' split
  all_goals simp
@[simp] theorem State.endAborted_zoneView (r : RangingRun) : (s.endAborted l r).zoneView = s.zoneView := rfl
@[simp] theorem State.judge_zoneView (r : RangingRun) : (s.judge l r).zoneView = s.zoneView := by
  unfold State.judge; split <;> simp
@[simp] theorem State.countUnexpected_zoneView : (s.countUnexpected l).zoneView = s.zoneView := rfl
@[simp] theorem State.takeEcho_zoneView (id : BitVec 8) (m : Fin 4) (turn latency arrival : Nat) :
    (s.takeEcho l id m turn latency arrival).zoneView = s.zoneView := by
  unfold State.takeEcho; repeat' split
  all_goals simp
@[simp] theorem State.echoWindowCloseIfDue_zoneView : (s.echoWindowCloseIfDue l).zoneView = s.zoneView := by
  unfold State.echoWindowCloseIfDue; repeat' split
  all_goals simp
@[simp] theorem State.useEstimate_zoneView (d : Nat) : (s.useEstimate l d).zoneView = s.zoneView := by
  unfold State.useEstimate; dsimp only; repeat' split
  all_goals simp
@[simp] theorem State.takeTrackEcho_zoneView (id : BitVec 8) (turn arrival : Nat) :
    (s.takeTrackEcho l id turn arrival).zoneView = s.zoneView := by
  unfold State.takeTrackEcho; repeat' split
  all_goals simp
@[simp] theorem State.trackWindowCloseIfDue_zoneView : (s.trackWindowCloseIfDue l).zoneView = s.zoneView := rfl
@[simp] theorem State.countTracking_zoneView : (s.countTracking l).zoneView = s.zoneView := by
  unfold State.countTracking; dsimp only; split <;> simp
@[simp] theorem State.placeMark_zoneView : (s.placeMark l).zoneView = s.zoneView := rfl
@[simp] theorem State.trackingMarkIfDue_zoneView : (s.trackingMarkIfDue l).zoneView = s.zoneView := by
  unfold State.trackingMarkIfDue; split <;> simp
@[simp] theorem State.trackingMark_zoneView : (s.trackingMark l).zoneView = s.zoneView := by
  unfold State.trackingMark State.countAndMark; split <;> simp

/-! ## The link manager (chapter 1) -/

@[simp] theorem State.recomputePath_zoneView : (s.recomputePath l).zoneView = s.zoneView := by
  unfold State.recomputePath; dsimp only; split <;> simp
@[simp] theorem State.storeSettings_zoneView (y : Settings) : (s.storeSettings l y).zoneView = s.zoneView := by
  unfold State.storeSettings; dsimp only; split <;> split <;> simp
@[simp] theorem State.quiesceJoining_zoneView : (s.quiesceJoining l).zoneView = s.zoneView := by simp [State.quiesceJoining]
@[simp] theorem State.lockGained_zoneView : (s.lockGained l).zoneView = s.zoneView := rfl
@[simp] theorem State.lockLost_zoneView : (s.lockLost l).zoneView = s.zoneView := by
  unfold State.lockLost; dsimp only; split <;> simp
@[simp] theorem State.settlePeriodEndIfDue_zoneView : (s.settlePeriodEndIfDue l).zoneView = s.zoneView := rfl
@[simp] theorem State.attachIfDue_zoneView : (s.attachIfDue l).zoneView = s.zoneView := rfl
@[simp] theorem State.debounceEndIfDue_zoneView : (s.debounceEndIfDue l).zoneView = s.zoneView := rfl
@[simp] theorem State.helloWaitExpiryIfDue_zoneView : (s.helloWaitExpiryIfDue l).zoneView = s.zoneView := by
  unfold State.helloWaitExpiryIfDue; split <;> simp
@[simp] theorem State.quiescingEndIfDue_zoneView : (s.quiescingEndIfDue l).zoneView = s.zoneView := by
  unfold State.quiescingEndIfDue; split <;> simp
@[simp] theorem State.expireTag_zoneView (t : Tag) : (s.expireTag l t).zoneView = s.zoneView := by
  unfold State.expireTag; split <;> simp
@[simp] theorem State.noteQuiesced_zoneView : (s.noteQuiesced l).zoneView = s.zoneView := rfl
@[simp] theorem State.deadlinesIfDue_zoneView : (s.deadlinesIfDue l).zoneView = s.zoneView := by
  unfold State.deadlinesIfDue; dsimp only; repeat' split
  all_goals simp [foldl_zoneView]
@[simp] theorem State.takeHello_zoneView (x : RuIdentity) : (s.takeHello l x).zoneView = s.zoneView := rfl
@[simp] theorem State.takeReply_zoneView (t : Tag) (c : ReplyStatus) (d : BitVec 32) : (s.takeReply l t c d).zoneView = s.zoneView := by
  unfold State.takeReply; split <;> simp
@[simp] theorem State.takeAlarm_zoneView (w : Wire) (on : Bool) : (s.takeAlarm l w on).zoneView = s.zoneView := by
  unfold State.takeAlarm; split <;> simp
@[simp] theorem State.takeOpenMessage_zoneView (arrival : Nat) (m : RxMsg) :
    (s.takeOpenMessage l arrival m).zoneView = s.zoneView := by
  unfold State.takeOpenMessage; split <;> simp
@[simp] theorem State.takeMessage_zoneView (arrival : Nat) (m : RxMsg) : (s.takeMessage l arrival m).zoneView = s.zoneView := by
  unfold State.takeMessage; repeat' split
  all_goals simp
@[simp] theorem State.takeErrored_zoneView : (s.takeErrored l).zoneView = s.zoneView := by
  unfold State.takeErrored; dsimp only; repeat' split
  all_goals simp
@[simp] theorem State.takeGood_zoneView : (s.takeGood l).zoneView = s.zoneView := by
  unfold State.takeGood; split <;> simp
@[simp] theorem State.takeFrame_zoneView (f : UplinkFrame) : (s.takeFrame l f).zoneView = s.zoneView := by
  unfold State.takeFrame; dsimp only; split <;> simp [foldl_zoneView]

variable (o : Order)

theorem orderSetLink_zoneView : (orderSetLink o s).1.zoneView = s.zoneView := by
  unfold orderSetLink; dsimp only; repeat' split
  all_goals simp
theorem orderLinkListen_zoneView : (orderLinkListen o s).1.zoneView = s.zoneView := by
  unfold orderLinkListen; repeat' split
  all_goals simp
theorem orderLinkRange_zoneView : (orderLinkRange o s).1.zoneView = s.zoneView := by
  unfold orderLinkRange; repeat' split
  all_goals simp
theorem orderLinkActivate_zoneView : (orderLinkActivate o s).1.zoneView = s.zoneView := by
  unfold orderLinkActivate State.activate; repeat' split
  all_goals simp
theorem orderLinkQuiesce_zoneView : (orderLinkQuiesce o s).1.zoneView = s.zoneView := by
  unfold orderLinkQuiesce; repeat' split
  all_goals simp
theorem orderLinkAbort_zoneView : (orderLinkAbort o s).1.zoneView = s.zoneView := by
  unfold orderLinkAbort; repeat' split
  all_goals simp
theorem orderLinkDark_zoneView : (orderLinkDark o s).1.zoneView = s.zoneView := by
  unfold orderLinkDark; repeat' split
  all_goals simp
theorem orderLinkQuery_zoneView : (orderLinkQuery o s).1.zoneView = s.zoneView := by
  unfold orderLinkQuery; repeat' split
  all_goals simp

/-! ## Services (4.1), notices (10.2) and SET_ZONE (R110) -/

theorem orderSetService_zoneView : (orderSetService o s).1.zoneView = s.zoneView := by
  unfold orderSetService; dsimp only; repeat' split
  all_goals simp
theorem orderEnableService_zoneView : (orderEnableService o s).1.zoneView = s.zoneView := by
  unfold orderEnableService; dsimp only; repeat' split
  all_goals simp
theorem orderDisableService_zoneView : (orderDisableService o s).1.zoneView = s.zoneView := by
  unfold orderDisableService; repeat' split
  all_goals simp
theorem orderClearService_zoneView : (orderClearService o s).1.zoneView = s.zoneView := by
  unfold orderClearService; repeat' split
  all_goals simp
theorem orderSetNotices_zoneView : (orderSetNotices o s).1.zoneView = s.zoneView := by
  unfold orderSetNotices; split <;> simp
theorem orderSetZone_zoneView : (orderSetZone o s).1.zoneView = s.zoneView := by
  unfold orderSetZone; split
  · rfl
  · rfl
  · exact s.modZone_zoneView _ _ fun _ => ⟨rfl, rfl, rfl⟩

@[simp] theorem State.handRecord_zoneView : s.handRecord.zoneView = s.zoneView := by
  unfold State.handRecord; repeat' split
  all_goals simp
@[simp] theorem State.noticeHandover_zoneView : s.noticeHandover.zoneView = s.zoneView := by
  unfold State.noticeHandover; repeat' split
  all_goals simp
@[simp] theorem State.noticesLost_zoneView : s.noticesLost.zoneView = s.zoneView := by
  unfold State.noticesLost; split <;> simp

/-! ## The memory path (chapter 9) and the status page (10.3) -/

@[simp] theorem State.handResult_zoneView (p : Posting) : (s.handResult p).zoneView = s.zoneView := by
  obtain ⟨-, h⟩ | ⟨-, h⟩ := s.handResult_cases p <;> rw [h] <;> rfl
@[simp] theorem State.handWaitingResult_zoneView : s.handWaitingResult.zoneView = s.zoneView := by
  unfold State.handWaitingResult; split <;> simp
@[simp] theorem State.pageHanded_zoneView : s.pageHanded.zoneView = s.zoneView := rfl
@[simp] theorem State.handPage_zoneView : s.handPage.zoneView = s.zoneView := by
  unfold State.handPage; split <;> simp
@[simp] theorem State.handBlock_zoneView : s.handBlock.zoneView = s.zoneView := by
  unfold State.handBlock; split <;> simp
@[simp] theorem State.enqueueFrom_zoneView (p : Producer) : (s.enqueueFrom p).zoneView = s.zoneView := by
  unfold State.enqueueFrom; split
  · cases p <;> simp
  · rfl
@[simp] theorem State.serve_zoneView : s.serve.zoneView = s.zoneView := by
  unfold State.serve; split <;> simp
@[simp] theorem State.snapshot_zoneView : s.snapshot.zoneView = s.zoneView := rfl
@[simp] theorem State.admitWrite_zoneView (ws : List AccessWord) : (s.admitWrite ws).zoneView = s.zoneView := by
  unfold State.admitWrite; dsimp only; split <;> simp
@[simp] theorem State.hostRead_zoneView (a : BitVec 28) (n : Nat) : (s.hostRead a n).zoneView = s.zoneView := by
  unfold State.hostRead; repeat' split
  all_goals simp

/-! ## Boundaries and RESET -/

@[simp] theorem State.reportOwned_zoneView : s.reportOwned.zoneView = s.zoneView := by
  unfold State.reportOwned; dsimp only; split <;> simp
@[simp] theorem State.superframeWork_zoneView : s.superframeWork.zoneView = s.zoneView := by
  have hholds := s.forGroups_zoneView fun s g => s.modGroup_zoneView g Group.countHold
  simp [State.superframeWork, hholds, State.forLinks_zoneView, State.forServices_zoneView]
@[simp] theorem State.settleLink_zoneView : (s.settleLink l).zoneView = s.zoneView := by simp [State.settleLink]
@[simp] theorem State.linkBoundary_zoneView : (s.linkBoundary l).zoneView = s.zoneView := by simp [State.linkBoundary]
/-- R112: a sample moves the stability count and the note of a change due, not the latch or the settings. -/
@[simp] theorem State.sampleContacts_zoneView (levels : BitVec 4) : (s.sampleContacts levels).zoneView = s.zoneView :=
  s.forInputs_zoneView fun s i => s.modInput_zoneView i _ fun c => by
    unfold ContactInput.sampleOnce ContactInput.sample
    split
    · exact ⟨rfl, rfl, rfl⟩
    · split
      · exact ⟨rfl, rfl, rfl⟩
      · split <;> exact ⟨rfl, rfl, rfl⟩
@[simp] theorem State.blockWork_zoneView (levels : BitVec 4) : (s.blockWork levels).zoneView = s.zoneView := by
  simp [State.blockWork, State.forLinks_zoneView]
@[simp] theorem State.resetAsserted_zoneView : s.resetAsserted.zoneView = s.zoneView := rfl

end

end Sys2Proof.Machine
end

section
/-! The incident states and owners on their view alone: what each change of the view is, and that R105, R122 and R127 outlast it. -/

namespace Sys2Proof.Machine

open Sys2Proof

/-! ## The order of the activation list -/

/-- In a list without repetition the nearer position to the head is the place of a pair in it. -/
theorem pair_sublist_iff_findIdx_lt {l : List SourceIx} (hnd : l.Nodup) (y : SourceIx) {x : SourceIx} (hx : x ∈ l) :
    [y, x].Sublist l ↔ l.findIdx (· == y) < l.findIdx (· == x) := by
  induction l with
  | nil => cases hx
  | cons b l ih =>
    obtain ⟨hb, hl⟩ := List.nodup_cons.mp hnd
    by_cases hy : b = y
    · subst hy
      by_cases hxb : b = x
      · subst hxb; simp [hb]
      · have hxl : x ∈ l := by simpa [Ne.symm hxb] using hx
        simp [List.findIdx_cons, beq_false_of_ne hxb, hxl]
    · have hskip : [y, x].Sublist (b :: l) ↔ [y, x].Sublist l := by simp [List.sublist_cons_iff, Ne.symm hy]
      rw [hskip]
      by_cases hxb : b = x
      · subst hxb
        have hno : ¬ [y, b].Sublist l := fun h => hb (h.subset (by simp))
        simp [List.findIdx_cons, hno]
      · have hxl : x ∈ l := by simpa [Ne.symm hxb] using hx
        rw [ih hl hxl, List.findIdx_cons, List.findIdx_cons, beq_false_of_ne hy, beq_false_of_ne hxb]
        exact Nat.add_lt_add_iff_right.symm

/-! ## The arbiter -/

/-- R122: the list holds the active sources once each. -/
structure Arbiter.wf (a : Arbiter) : Prop where
  nodup : a.list.Nodup
  mem_iff : ∀ x, x ∈ a.list ↔ (a.parts[x]).isSome = true

/-- R127, R128: y comes before w: by a higher priority, or by the same one from nearer the head of the list. -/
def Arbiter.outranks (a : Arbiter) (y w : SourceIx) : Prop :=
  a.priorityOf w < a.priorityOf y ∨ (a.priorityOf w = a.priorityOf y ∧ [y, w].Sublist a.list)

/-- R127: the owner a zone may have: the source that ranks first in it, or none where none covers it. -/
def Arbiter.owns (a : Arbiter) (z : ZoneIx) : Option SourceIx → Prop
  | some y => a.ranksFirst z y
  | none => ∀ x, x ∈ a.list → a.covers z x = false

/-- R127: the owner a zone of x's mask, owned as given, has once x is active. -/
def Arbiter.claimed (a : Arbiter) (x : SourceIx) : Option SourceIx → Option SourceIx
  | none => some x
  | some o => if a.priorityOf o < a.priorityOf x then some x else some o

/-- R128: the owner zone z, owned as given, has once x is not active. -/
def Arbiter.passed (a : Arbiter) (x : SourceIx) (z : ZoneIx) (o : Option SourceIx) : Option SourceIx :=
  if o = some x then a.bestCoverer z else o

theorem Arbiter.ranksFirst_iff {a : Arbiter} (hwf : a.wf) (z : ZoneIx) (y : SourceIx) :
    a.ranksFirst z y ↔ y ∈ a.list ∧ a.covers z y = true ∧ ∀ w, w ∈ a.list → a.covers z w = true → w ≠ y → a.outranks y w :=
  and_congr_right fun _ => and_congr_right fun _ => forall_congr' fun _ => forall_congr' fun hw => by
    rw [Arbiter.outranks, pair_sublist_iff_findIdx_lt hwf.nodup y hw]

section
variable {a : Arbiter} {x y w : SourceIx} {m : BitVec 8} {p : Nat} {c : Channel} {z : ZoneIx}

theorem Arbiter.activated_parts (a : Arbiter) (x : SourceIx) (m : BitVec 8) (p : Nat) (c : Channel) (y : SourceIx) :
    (a.activated x m p c).parts[y] = if x = y then some { mask := m, priority := p, channel := c, stamp := a.counter }
      else a.parts[y] := by
  simp only [Arbiter.activated, Fin.getElem_fin, Vector.getElem_set, Fin.val_inj]

theorem Arbiter.deactivated_parts (a : Arbiter) (x y : SourceIx) :
    (a.deactivated x).parts[y] = if x = y then none else a.parts[y] := by
  simp only [Arbiter.deactivated, Fin.getElem_fin, Vector.getElem_set, Fin.val_inj]

theorem Arbiter.mem_activated : y ∈ (a.activated x m p c).list ↔ y ∈ a.list ∨ y = x := by simp [Arbiter.activated]

theorem Arbiter.mem_deactivated : y ∈ (a.deactivated x).list ↔ y ∈ a.list ∧ y ≠ x := by simp [Arbiter.deactivated]

theorem Arbiter.covers_activated_self : (a.activated x m p c).covers z x = hasZone m z := by
  simp only [Arbiter.covers, Arbiter.activated_parts, if_true]

theorem Arbiter.covers_activated_other (h : x ≠ y) : (a.activated x m p c).covers z y = a.covers z y := by
  simp only [Arbiter.covers, Arbiter.activated_parts, if_neg h]

theorem Arbiter.covers_deactivated (h : x ≠ y) : (a.deactivated x).covers z y = a.covers z y := by
  simp only [Arbiter.covers, Arbiter.deactivated_parts, if_neg h]

theorem Arbiter.priorityOf_activated_other (h : x ≠ y) : (a.activated x m p c).priorityOf y = a.priorityOf y := by
  simp only [Arbiter.priorityOf, Arbiter.activated_parts, if_neg h]

theorem Arbiter.priorityOf_deactivated (h : x ≠ y) : (a.deactivated x).priorityOf y = a.priorityOf y := by
  simp only [Arbiter.priorityOf, Arbiter.deactivated_parts, if_neg h]

theorem Arbiter.wf.not_mem (hwf : a.wf) (hx : a.parts[x] = none) : x ∉ a.list := by simp [hwf.mem_iff, hx]

theorem Arbiter.wf.activated (hwf : a.wf) (hx : a.parts[x] = none) : (a.activated x m p c).wf where
  nodup := List.nodup_append.mpr ⟨hwf.nodup, List.nodup_singleton x, fun y hy w hw => by
    rw [List.mem_singleton.mp hw]
    exact fun h => hwf.not_mem hx (h ▸ hy)⟩
  mem_iff y := by
    rw [Arbiter.mem_activated, Arbiter.activated_parts, hwf.mem_iff]
    split
    · next h => simp [h]
    · next h => simp [Ne.symm h]

theorem Arbiter.wf.deactivated (hwf : a.wf) : (a.deactivated x).wf where
  nodup := hwf.nodup.filter _
  mem_iff y := by
    rw [Arbiter.mem_deactivated, Arbiter.deactivated_parts, hwf.mem_iff]
    split
    · next h => simp [h]
    · next h => simp [Ne.symm h]

theorem Arbiter.outranks.activated (h : a.outranks y w) (hy : x ≠ y) (hw : x ≠ w) : (a.activated x m p c).outranks y w := by
  unfold Arbiter.outranks
  rw [Arbiter.priorityOf_activated_other hy, Arbiter.priorityOf_activated_other hw]
  exact h.imp_right fun ⟨hp, hl⟩ => ⟨hp, hl.trans (List.sublist_append_left _ _)⟩

/-- R122: a source newly active has the last place in the list. -/
theorem Arbiter.outranks_activated_self (hy : y ∈ a.list)
    (h : (a.activated x m p c).priorityOf x ≤ (a.activated x m p c).priorityOf y) : (a.activated x m p c).outranks y x := by
  obtain hlt | heq := Nat.lt_or_eq_of_le h
  · exact .inl hlt
  · exact .inr ⟨heq, List.Sublist.append (List.singleton_sublist.mpr hy) (List.Sublist.refl [x])⟩

theorem Arbiter.outranks.deactivated (h : a.outranks y w) (hy : x ≠ y) (hw : x ≠ w) : (a.deactivated x).outranks y w := by
  unfold Arbiter.outranks
  rw [Arbiter.priorityOf_deactivated hy, Arbiter.priorityOf_deactivated hw]
  refine h.imp_right fun ⟨hp, hl⟩ => ⟨hp, ?_⟩
  simpa [Arbiter.deactivated, Ne.symm hy, Ne.symm hw] using hl.filter (fun v => v != x)

/-- R127: a zone outside the mask of a source newly active keeps its owner. -/
theorem Arbiter.owns.activated_outside {o : Option SourceIx} (h : a.owns z o) (hwf : a.wf) (hx : a.parts[x] = none)
    (hm : hasZone m z = false) : (a.activated x m p c).owns z o := by
  have hne {y : SourceIx} (hy : y ∈ a.list) : x ≠ y := fun e => hwf.not_mem hx (e ▸ hy)
  have hold {y : SourceIx} (hy : y ∈ (a.activated x m p c).list) (hc : (a.activated x m p c).covers z y = true) : y ∈ a.list := by
    obtain hy | rfl := Arbiter.mem_activated.mp hy
    · exact hy
    · rw [Arbiter.covers_activated_self, hm] at hc; cases hc
  cases o with
  | none =>
    intro y hy
    by_contra hc
    have hc := Bool.eq_true_of_not_eq_false hc
    have hy := hold hy hc
    rw [Arbiter.covers_activated_other (hne hy), h y hy] at hc
    cases hc
  | some y =>
    obtain ⟨hy, hcov, hfirst⟩ := (Arbiter.ranksFirst_iff hwf z y).mp h
    refine (Arbiter.ranksFirst_iff (hwf.activated hx) z y).mpr ⟨Arbiter.mem_activated.mpr (.inl hy), ?_, fun w hw hc hwy => ?_⟩
    · rw [Arbiter.covers_activated_other (hne hy), hcov]
    · have hw := hold hw hc
      rw [Arbiter.covers_activated_other (hne hw)] at hc
      exact (hfirst w hw hc hwy).activated (hne hy) (hne hw)

/-- R127: the claim of a source newly active leaves a zone of its mask with the source that ranks first in it. -/
theorem Arbiter.owns.activated_claimed {o : Option SourceIx} (h : a.owns z o) (hwf : a.wf) (hx : a.parts[x] = none)
    (hm : hasZone m z = true) : (a.activated x m p c).owns z ((a.activated x m p c).claimed x o) := by
  have hne {y : SourceIx} (hy : y ∈ a.list) : x ≠ y := fun e => hwf.not_mem hx (e ▸ hy)
  have hself : x ∈ (a.activated x m p c).list := Arbiter.mem_activated.mpr (.inr rfl)
  have hcovself : (a.activated x m p c).covers z x = true := by rw [Arbiter.covers_activated_self, hm]
  have hwf' := hwf.activated (m := m) (p := p) (c := c) hx
  cases o with
  | none =>
    refine (Arbiter.ranksFirst_iff hwf' z x).mpr ⟨hself, hcovself, fun w hw hc hwx => ?_⟩
    have hw := (Arbiter.mem_activated.mp hw).resolve_right hwx
    rw [Arbiter.covers_activated_other (hne hw), h w hw] at hc
    cases hc
  | some y =>
    obtain ⟨hy, hcov, hfirst⟩ := (Arbiter.ranksFirst_iff hwf z y).mp h
    have hrank (w : SourceIx) (hw : w ∈ a.list) (hc : (a.activated x m p c).covers z w = true) (hwy : w ≠ y) :
        (a.activated x m p c).outranks y w := by
      rw [Arbiter.covers_activated_other (hne hw)] at hc
      exact (hfirst w hw hc hwy).activated (hne hy) (hne hw)
    simp only [Arbiter.claimed]
    split
    · next hlt =>
      refine (Arbiter.ranksFirst_iff hwf' z x).mpr ⟨hself, hcovself, fun w hw hc hwx => .inl ?_⟩
      have hw := (Arbiter.mem_activated.mp hw).resolve_right hwx
      by_cases hwy : w = y
      · rw [hwy]; exact hlt
      · obtain hwlt | ⟨hweq, -⟩ := hrank w hw hc hwy
        · exact hwlt.trans hlt
        · exact hweq ▸ hlt
    · next hge =>
      refine (Arbiter.ranksFirst_iff hwf' z y).mpr ⟨Arbiter.mem_activated.mpr (.inl hy), ?_, fun w hw hc hwy => ?_⟩
      · rw [Arbiter.covers_activated_other (hne hy), hcov]
      · obtain hw | rfl := Arbiter.mem_activated.mp hw
        · exact hrank w hw hc hwy
        · exact Arbiter.outranks_activated_self hy (Nat.le_of_not_lt hge)

/-- R128: the owner of a zone that x does not own stays when x goes. -/
theorem Arbiter.owns.deactivated_other {o : Option SourceIx} (h : a.owns z o) (hwf : a.wf) (ho : o ≠ some x) :
    (a.deactivated x).owns z o := by
  cases o with
  | none =>
    intro y hy
    obtain ⟨hy, hyx⟩ := Arbiter.mem_deactivated.mp hy
    rw [Arbiter.covers_deactivated (Ne.symm hyx), h y hy]
  | some y =>
    have hxy : x ≠ y := fun e => ho (e ▸ rfl)
    obtain ⟨hy, hcov, hfirst⟩ := (Arbiter.ranksFirst_iff hwf z y).mp h
    refine (Arbiter.ranksFirst_iff hwf.deactivated z y).mpr
      ⟨Arbiter.mem_deactivated.mpr ⟨hy, Ne.symm hxy⟩, ?_, fun w hw hc hwy => ?_⟩
    · rw [Arbiter.covers_deactivated hxy, hcov]
    · obtain ⟨hw, hwx⟩ := Arbiter.mem_deactivated.mp hw
      rw [Arbiter.covers_deactivated (Ne.symm hwx)] at hc
      exact (hfirst w hw hc hwy).deactivated hxy (Ne.symm hwx)

/-! ### The best of a list -/

theorem Arbiter.best_eq_none {xs : List SourceIx} (h : a.best xs = none) : xs = [] := by
  cases xs with
  | nil => rfl
  | cons x rest =>
    unfold Arbiter.best at h
    split at h
    · cases h
    · split at h <;> cases h

/-- R128: the best of a list is in it and comes before every other of it, in priority or in place. -/
theorem Arbiter.best_eq_some {xs : List SourceIx} (h : a.best xs = some y) :
    y ∈ xs ∧ ∀ w, w ∈ xs → w ≠ y →
      a.priorityOf w < a.priorityOf y ∨ (a.priorityOf w = a.priorityOf y ∧ [y, w].Sublist xs) := by
  induction xs generalizing y with
  | nil => cases h
  | cons x rest ih =>
    unfold Arbiter.best at h
    split at h
    · next hnone =>
      obtain rfl : x = y := Option.some.inj h
      rw [Arbiter.best_eq_none hnone]
      exact ⟨List.mem_singleton_self x, fun w hw hwx => absurd (List.mem_singleton.mp hw) hwx⟩
    · next v hv =>
      obtain ⟨hvmem, hvfirst⟩ := ih hv
      split at h
      · next hlt =>
        obtain rfl : v = y := Option.some.inj h
        refine ⟨List.mem_cons_of_mem x hvmem, fun w hw hwv => ?_⟩
        obtain rfl | hw := List.mem_cons.mp hw
        · exact .inl hlt
        · exact (hvfirst w hw hwv).imp_right fun ⟨hp, hl⟩ => ⟨hp, hl.cons x⟩
      · next hge =>
        obtain rfl : x = y := Option.some.inj h
        refine ⟨List.mem_cons_self, fun w hw hwx => ?_⟩
        have hw : w ∈ rest := (List.mem_cons.mp hw).resolve_left hwx
        have hle : a.priorityOf w ≤ a.priorityOf v := by
          by_cases hwv : w = v
          · rw [hwv]
          · obtain hlt | ⟨heq, -⟩ := hvfirst w hw hwv
            · exact hlt.le
            · exact heq.le
        exact (Nat.lt_or_eq_of_le (hle.trans (Nat.le_of_not_lt hge))).imp_right fun heq =>
          ⟨heq, List.cons_sublist_cons.mpr (List.singleton_sublist.mpr hw)⟩

/-- R128: the source a zone passes to is the one that ranks first in it. -/
theorem Arbiter.wf.owns_bestCoverer (hwf : a.wf) : a.owns z (a.bestCoverer z) := by
  have hmem (w : SourceIx) : w ∈ a.list.filter (a.covers z) ↔ w ∈ a.list ∧ a.covers z w = true := List.mem_filter
  cases hbest : a.bestCoverer z with
  | none =>
    intro w hw
    by_contra hc
    have := (hmem w).mpr ⟨hw, Bool.eq_true_of_not_eq_false hc⟩
    rw [Arbiter.best_eq_none hbest] at this
    cases this
  | some y =>
    obtain ⟨hy, hfirst⟩ := Arbiter.best_eq_some hbest
    obtain ⟨hy, hcov⟩ := (hmem y).mp hy
    refine (Arbiter.ranksFirst_iff hwf z y).mpr ⟨hy, hcov, fun w hw hc hwy => ?_⟩
    exact (hfirst w ((hmem w).mpr ⟨hw, hc⟩) hwy).imp_right fun ⟨hp, hl⟩ => ⟨hp, hl.trans List.filter_sublist⟩

theorem Arbiter.owns.deactivated_passed {o : Option SourceIx} (h : a.owns z o) (hwf : a.wf) :
    (a.deactivated x).owns z ((a.deactivated x).passed x z o) := by
  unfold Arbiter.passed
  split
  · exact hwf.deactivated.owns_bestCoverer
  · next ho => exact h.deactivated_other hwf ho

end

/-! ## Changes of the view -/

/-- R105: input i holds zone z in incident. -/
def ZoneView.holdsIncident (v : ZoneView) (z : ZoneIx) (i : InputIx) : Bool := v.latch i && v.incidentFlag i && hasZone (v.mask i) z

/-- R105: the derived state zone z's host flag and the latched inputs give. -/
def ZoneView.incidentOf (v : ZoneView) (z : ZoneIx) : Bool := v.hostFlag z || allInputs.any (v.holdsIncident z)

/-- R107: the host flag of zone z takes a value. -/
def ZoneView.flag (v : ZoneView) (z : ZoneIx) (on : Bool) : ZoneView := { v with hostFlag := Function.update v.hostFlag z on }

/-- R106: the derived state of zone z is worked out anew. -/
def ZoneView.work (v : ZoneView) (z : ZoneIx) : ZoneView := { v with incident := Function.update v.incident z (v.incidentOf z) }

/-- Zone z takes an owner. -/
def ZoneView.own (v : ZoneView) (z : ZoneIx) (o : Option SourceIx) : ZoneView := { v with owner := Function.update v.owner z o }

/-- R107: the host flag of every zone in a mask takes a value. -/
def ZoneView.flagged (v : ZoneView) (mask : BitVec 8) (on : Bool) : ZoneView :=
  { v with hostFlag := fun z => if hasZone mask z then on else v.hostFlag z }

/-- R106: the derived state of every zone in a mask is worked out anew. -/
def ZoneView.worked (v : ZoneView) (mask : BitVec 8) : ZoneView :=
  { v with incident := fun z => if hasZone mask z then v.incidentOf z else v.incident z }

/-- R113: the latch of input i takes a value. -/
def ZoneView.latched (v : ZoneView) (i : InputIx) (on : Bool) : ZoneView := { v with latch := Function.update v.latch i on }

/-- R116: input i takes a mask and an incident flag. -/
def ZoneView.withSettings (v : ZoneView) (i : InputIx) (mask : BitVec 8) (flag : Bool) : ZoneView :=
  { v with mask := Function.update v.mask i mask, incidentFlag := Function.update v.incidentFlag i flag }

/-- R122, R127: source x is activated and claims the zones of its mask. -/
def ZoneView.activated (v : ZoneView) (x : SourceIx) (mask : BitVec 8) (priority : Nat) (channel : Channel) : ZoneView :=
  { v with
    arbiter := v.arbiter.activated x mask priority channel
    owner := fun z => if hasZone mask z then (v.arbiter.activated x mask priority channel).claimed x (v.owner z) else v.owner z }

/-- R122, R128: source x is deactivated and the zones of its mask that it owned pass on. -/
def ZoneView.deactivated (v : ZoneView) (x : SourceIx) : ZoneView :=
  match v.arbiter.parts[x] with
  | none => v
  | some q => { v with
    arbiter := v.arbiter.deactivated x
    owner := fun z => if hasZone q.mask z then (v.arbiter.deactivated x).passed x z (v.owner z) else v.owner z }

/-! ### Passes over the zones of a mask -/

theorem mem_zonesOf {mask : BitVec 8} {z : ZoneIx} : z ∈ zonesOf mask ↔ hasZone mask z = true := by
  have hall : z ∈ allZones := by revert z; decide
  simp [zonesOf, hall]

/-- A pass that changes the entry of each zone of a mask, by what stands there, changes them all at once. -/
theorem foldl_update_zonesOf {β : Type} (g : ZoneIx → β → β) (mask : BitVec 8) (h : ZoneIx → β) :
    (zonesOf mask).foldl (fun h z => Function.update h z (g z (h z))) h = fun z => if hasZone mask z then g z (h z) else h z := by
  have hfold (zs : List ZoneIx) (hnd : zs.Nodup) (h : ZoneIx → β) :
      zs.foldl (fun h z => Function.update h z (g z (h z))) h = fun z => if z ∈ zs then g z (h z) else h z := by
    induction zs generalizing h with
    | nil => simp
    | cons y ys ih =>
      obtain ⟨hy, hys⟩ := List.nodup_cons.mp hnd
      rw [List.foldl_cons, ih hys]
      funext z
      by_cases hz : z = y
      · subst hz; simp [hy]
      · simp [hz]
  have hnd : (zonesOf mask).Nodup := List.Nodup.filter _ (by decide)
  rw [hfold _ hnd]
  simp only [mem_zonesOf]

theorem ZoneView.foldl_flag (v : ZoneView) (mask : BitVec 8) (on : Bool) :
    (zonesOf mask).foldl (fun v z => v.flag z on) v = v.flagged mask on := by
  rw [ZoneView.flagged, ← foldl_update_zonesOf (fun _ _ => on)]
  exact List.foldl_hom (g₂ := fun v z => v.flag z on) (fun h => { v with hostFlag := h }) fun _ _ => rfl

theorem ZoneView.foldl_work (v : ZoneView) (mask : BitVec 8) : (zonesOf mask).foldl ZoneView.work v = v.worked mask := by
  rw [ZoneView.worked, ← foldl_update_zonesOf (fun z _ => v.incidentOf z)]
  exact List.foldl_hom (g₂ := ZoneView.work) (fun h => { v with incident := h }) fun _ _ => rfl

theorem ZoneView.foldl_own (g : Arbiter → ZoneIx → Option SourceIx → Option SourceIx) (v : ZoneView) (mask : BitVec 8) :
    (zonesOf mask).foldl (fun v z => v.own z (g v.arbiter z (v.owner z))) v =
      { v with owner := fun z => if hasZone mask z then g v.arbiter z (v.owner z) else v.owner z } := by
  rw [← foldl_update_zonesOf (g v.arbiter)]
  exact List.foldl_hom (g₂ := fun v z => v.own z (g v.arbiter z (v.owner z))) (fun h => { v with owner := h }) fun _ _ => rfl

/-! ## R105, R122 and R127 on the view -/

/-- R105. -/
def ZoneView.incidentRight (v : ZoneView) : Prop := ∀ z, v.incident z = v.incidentOf z

/-- R122, R127: the list and every owner are right. -/
structure ZoneView.ownersRight (v : ZoneView) : Prop where
  wf : v.arbiter.wf
  owns : ∀ z, v.arbiter.owns z (v.owner z)

/-- R122: a contact source is active while its input's latch is set. -/
def ZoneView.contactsRight (v : ZoneView) : Prop := ∀ i, (v.arbiter.parts[contactSource i]).isSome = v.latch i

structure ZoneView.right (v : ZoneView) : Prop where
  incidents : v.incidentRight
  owners : v.ownersRight
  contacts : v.contactsRight

theorem contactSource_inj {i j : InputIx} : contactSource i = contactSource j ↔ i = j := by
  simp [contactSource, Fin.ext_iff]

theorem consoleSource_ne_contactSource (n : Fin 4) (i : InputIx) : consoleSource n ≠ contactSource i := by
  simp only [consoleSource, contactSource, Ne, Fin.ext_iff, Fin.val_natAdd, Fin.val_castLE]; omega

section
variable {v : ZoneView} {x : SourceIx} {m : BitVec 8} {p : Nat} {c : Channel} {i : InputIx}

theorem ZoneView.ownersRight.activated (h : v.ownersRight) (hx : v.arbiter.parts[x] = none) : (v.activated x m p c).ownersRight where
  wf := h.wf.activated hx
  owns z := by
    unfold ZoneView.activated
    dsimp only
    split
    · next hm => exact (h.owns z).activated_claimed h.wf hx hm
    · next hm => exact (h.owns z).activated_outside h.wf hx (Bool.eq_false_of_not_eq_true hm)

/-- A source owns only zones of its own mask, so that every zone it owned is among those that pass on. -/
theorem ZoneView.ownersRight.deactivated (h : v.ownersRight) : (v.deactivated x).ownersRight := by
  unfold ZoneView.deactivated
  split
  · exact h
  · next q hq =>
    refine ⟨h.wf.deactivated, fun z => ?_⟩
    dsimp only
    split
    · exact (h.owns z).deactivated_passed h.wf
    · next hm =>
      refine (h.owns z).deactivated_other h.wf fun ho => hm ?_
      have howns := h.owns z
      rw [ho] at howns
      obtain ⟨-, hcov, -⟩ := howns
      simpa [Arbiter.covers, hq] using hcov

/-- A change of one input that holds the zone neither before nor after leaves its derived state. -/
theorem ZoneView.incidentOf_congr {v v' : ZoneView} {z : ZoneIx} (hhost : v'.hostFlag z = v.hostFlag z)
    (hi : v.holdsIncident z i = false) (hi' : v'.holdsIncident z i = false)
    (hj : ∀ j, j ≠ i → v'.holdsIncident z j = v.holdsIncident z j) : v'.incidentOf z = v.incidentOf z := by
  have h : v'.holdsIncident z = v.holdsIncident z := by
    funext j
    by_cases e : j = i
    · rw [e, hi, hi']
    · exact hj j e
  rw [ZoneView.incidentOf, ZoneView.incidentOf, hhost, h]

/-- R113: with the zones of its mask worked out again, a latch may change. -/
theorem ZoneView.incidentRight.latched_worked (h : v.incidentRight) (on : Bool) :
    ((v.latched i on).worked (v.mask i)).incidentRight := by
  intro z
  show (if hasZone (v.mask i) z then (v.latched i on).incidentOf z else v.incident z) = (v.latched i on).incidentOf z
  split
  · rfl
  · next hm =>
    rw [h z]
    refine (ZoneView.incidentOf_congr (v := v) (v' := v.latched i on) (i := i) rfl ?_ ?_ fun j hj => ?_).symm
    · simp [ZoneView.holdsIncident, hm]
    · simp [ZoneView.holdsIncident, ZoneView.latched, hm]
    · simp [ZoneView.holdsIncident, ZoneView.latched, hj]

/-- R107: with the zones of a mask worked out again, their host flags may change. -/
theorem ZoneView.incidentRight.flagged_worked (h : v.incidentRight) (on : Bool) : ((v.flagged m on).worked m).incidentRight := by
  intro z
  show (if hasZone m z then (v.flagged m on).incidentOf z else v.incident z) = (v.flagged m on).incidentOf z
  split
  · rfl
  · next hm =>
    have hinputs : (v.flagged m on).holdsIncident z = v.holdsIncident z := rfl
    have hhost : (v.flagged m on).hostFlag z = v.hostFlag z := if_neg hm
    rw [h z, ZoneView.incidentOf, ZoneView.incidentOf, hinputs, hhost]

theorem ZoneView.deactivated_incidentRight : (v.deactivated x).incidentRight ↔ v.incidentRight := by
  unfold ZoneView.deactivated; split <;> exact Iff.rfl

theorem ZoneView.deactivated_latch : (v.deactivated x).latch = v.latch := by
  unfold ZoneView.deactivated; split <;> rfl

theorem ZoneView.deactivated_parts (y : SourceIx) :
    (v.deactivated x).arbiter.parts[y] = if x = y then none else v.arbiter.parts[y] := by
  unfold ZoneView.deactivated
  split
  · next h =>
    split
    · next e => rw [← e, h]
    · rfl
  · exact v.arbiter.deactivated_parts x y

/-- R107. -/
theorem ZoneView.right.flagged_worked (h : v.right) (on : Bool) : ((v.flagged m on).worked m).right :=
  ⟨h.incidents.flagged_worked on, ⟨h.owners.wf, h.owners.owns⟩, h.contacts⟩

/-- R116: the settings of an input that is not latched bear on nothing. -/
theorem ZoneView.right.withSettings (h : v.right) (hlatch : v.latch i = false) (m : BitVec 8) (flag : Bool) :
    (v.withSettings i m flag).right := by
  refine ⟨fun z => (h.incidents z).trans ?_, ⟨h.owners.wf, h.owners.owns⟩, h.contacts⟩
  refine (ZoneView.incidentOf_congr (v := v) (v' := v.withSettings i m flag) (i := i) rfl ?_ ?_ fun j hj => ?_).symm
  · simp [ZoneView.holdsIncident, hlatch]
  · simp [ZoneView.holdsIncident, ZoneView.withSettings, hlatch]
  · simp [ZoneView.holdsIncident, ZoneView.withSettings, hj]

/-- R124: a console source is activated. -/
theorem ZoneView.right.activated_console (h : v.right) {n : Fin 4} (hn : v.arbiter.parts[consoleSource n] = none) :
    (v.activated (consoleSource n) m p c).right := by
  refine ⟨h.incidents, h.owners.activated hn, fun i => ?_⟩
  show ((v.arbiter.activated _ _ _ _).parts[contactSource i]).isSome = v.latch i
  rw [Arbiter.activated_parts, if_neg (consoleSource_ne_contactSource n i), h.contacts i]

/-- R125: a console source is deactivated. -/
theorem ZoneView.right.deactivated_console (h : v.right) (n : Fin 4) : (v.deactivated (consoleSource n)).right := by
  refine ⟨ZoneView.deactivated_incidentRight.mpr h.incidents, h.owners.deactivated, fun i => ?_⟩
  rw [ZoneView.deactivated_parts, if_neg (consoleSource_ne_contactSource n i), ZoneView.deactivated_latch, h.contacts i]

/-- R113: the latch of an input is set. -/
theorem ZoneView.right.latch_set (h : v.right) (hlatch : v.latch i = false) :
    (((v.latched i true).worked (v.mask i)).activated (contactSource i) (v.mask i) p c).right := by
  have hx : v.arbiter.parts[contactSource i] = none := by
    rw [← Option.not_isSome_iff_eq_none, h.contacts i, hlatch]; exact Bool.false_ne_true
  have howners : ((v.latched i true).worked (v.mask i)).ownersRight := ⟨h.owners.wf, h.owners.owns⟩
  refine ⟨h.incidents.latched_worked true, howners.activated hx, fun j => ?_⟩
  show ((v.arbiter.activated _ _ _ _).parts[contactSource j]).isSome = Function.update v.latch i true j
  rw [Arbiter.activated_parts, Function.update_apply]
  by_cases hj : j = i
  · simp [hj]
  · rw [if_neg (fun e => hj (contactSource_inj.mp e).symm), if_neg hj, h.contacts j]

/-- R113: the latch of an input is cleared. -/
theorem ZoneView.right.latch_cleared (h : v.right) :
    (((v.latched i false).worked (v.mask i)).deactivated (contactSource i)).right := by
  have howners : ((v.latched i false).worked (v.mask i)).ownersRight := ⟨h.owners.wf, h.owners.owns⟩
  refine ⟨ZoneView.deactivated_incidentRight.mpr (h.incidents.latched_worked false), howners.deactivated, fun j => ?_⟩
  rw [ZoneView.deactivated_parts, ZoneView.deactivated_latch]
  show (if contactSource i = contactSource j then none else v.arbiter.parts[contactSource j]).isSome =
    Function.update v.latch i false j
  rw [Function.update_apply]
  by_cases hj : j = i
  · simp [hj]
  · rw [if_neg (fun e => hj (contactSource_inj.mp e).symm), if_neg hj, h.contacts j]

end

end Sys2Proof.Machine
end

section
/-! What the zone unit and the arbiter make of the view (chapters 6 and 7), and that every order, every boundary and every command keeps
the incident states and the owners right. -/

namespace Sys2Proof.Machine

open Sys2Proof

/-! ## The view's terms and the model's -/

theorem mem_allInputs (i : InputIx) : i ∈ allInputs := by revert i; decide

theorem State.incidentOf_eq_zoneView (s : State) (z : ZoneIx) : s.incidentOf z = s.zoneView.incidentOf z := by
  have h : (!(s.incidentInputs z).isEmpty) = allInputs.any (s.zoneView.holdsIncident z) := by
    rw [Bool.eq_iff_iff]
    simp [State.incidentInputs, List.filter_eq_nil_iff, ContactInput.holdsIncident, ZoneView.holdsIncident, State.zoneView, and_assoc]
  rw [State.incidentOf, h]; rfl

/-- The two statements kept, read off the view. -/
theorem State.zoneView_right_iff (s : State) : s.zoneView.right ↔ s.incidentRight ∧ s.ownershipRight := by
  have hincident (z : ZoneIx) : s.zoneView.incident z = s.zoneView.incidentOf z ↔ ((s.zone z).incident = true ↔
      ((s.zone z).hostFlag = true ∨ ∃ i, (s.input i).latch = true ∧ (s.input i).incidentFlag = true ∧
        (s.input i).mask.getLsbD z.val = true)) := by
    rw [Bool.eq_iff_iff]
    simp [ZoneView.incidentOf, ZoneView.holdsIncident, State.zoneView, mem_allInputs, hasZone, and_assoc]
  constructor
  · rintro ⟨hin, ⟨⟨hnd, hmem⟩, howns⟩, hcontacts⟩
    exact ⟨fun z => (hincident z).mp (hin z), hnd, hmem, hcontacts, howns⟩
  · rintro ⟨hin, hnd, hmem, hcontacts, howns⟩
    exact ⟨fun z => (hincident z).mpr (hin z), ⟨⟨hnd, hmem⟩, howns⟩, hcontacts⟩

/-! ## Incident states (6.1) -/

section
variable (s : State)

theorem State.modHostFlag_zoneView (z : ZoneIx) (on : Bool) :
    (s.modZone z (fun x => { x with hostFlag := on })).zoneView = s.zoneView.flag z on := by
  rw [State.modZone_zoneView_eq]
  simp [State.zoneView, ZoneView.flag]

theorem State.modIncident_zoneView (z : ZoneIx) : (s.modZone z (fun x => { x with incident := s.incidentOf z })).zoneView =
    s.zoneView.work z := by
  rw [State.modZone_zoneView_eq, State.incidentOf_eq_zoneView]
  simp [State.zoneView, ZoneView.work]

theorem State.setHostFlags_zoneView (mask : BitVec 8) (on : Bool) : (s.setHostFlags mask on).zoneView = s.zoneView.flagged mask on := by
  rw [← ZoneView.foldl_flag]
  exact (List.foldl_hom State.zoneView fun t z => (t.modHostFlag_zoneView z on).symm).symm

/-- R106: zone z's derived state is the one its host flag and the latched inputs give; nothing else of the view changes. -/
theorem State.updateIncident_zoneView (z : ZoneIx) (cause : IncidentCause) :
    (s.updateIncident z cause).zoneView = s.zoneView.work z := by
  unfold State.updateIncident
  dsimp only
  split
  · next h =>
    have hright : s.zoneView.incidentOf z = s.zoneView.incident z := (s.incidentOf_eq_zoneView z).symm.trans h.symm
    rw [ZoneView.work, hright, Function.update_eq_self]
  · rw [State.notify_zoneView, State.modIncident_zoneView]

theorem State.takeIncident_zoneView (z : ZoneIx) (cause : IncidentCause) : (s.takeIncident z cause).zoneView = s.zoneView.work z := by
  rw [← s.updateIncident_zoneView z cause]
  unfold State.takeIncident
  split
  · next h => rw [State.updateIncident, if_pos h]
  · rw [State.replan_zoneView]

/-- A pass that works out the zones of a mask one after another works out them all. -/
theorem foldl_work_zoneView {f : State → ZoneIx → State} (hf : ∀ s z, (f s z).zoneView = s.zoneView.work z) (mask : BitVec 8) :
    ((zonesOf mask).foldl f s).zoneView = s.zoneView.worked mask := by
  rw [← ZoneView.foldl_work]
  exact (List.foldl_hom State.zoneView fun t z => (hf t z).symm).symm

theorem orderZoneIncident_right (o : Order) (h : s.zoneView.right) : (orderZoneIncident o s).1.zoneView.right := by
  unfold orderZoneIncident
  split
  · exact h
  · next on _ =>
    dsimp only
    rw [foldl_work_zoneView _ (fun s z => s.takeIncident_zoneView z .order), State.setHostFlags_zoneView]
    exact h.flagged_worked on

/-! ## Owners (7.2) -/

theorem State.setOwner_zoneView (z : ZoneIx) (x : Option SourceIx) : (s.setOwner z x).zoneView = s.zoneView.own z x := by
  rw [State.setOwner, State.modZone_zoneView_eq]
  simp [State.zoneView, ZoneView.own]

/-- A zone that takes the owner it has is left as it is. -/
theorem ZoneView.own_self (v : ZoneView) (z : ZoneIx) : v.own z (v.owner z) = v := by rw [ZoneView.own, Function.update_eq_self]

/-- R127. -/
theorem State.claimZone_zoneView (x : SourceIx) (z : ZoneIx) :
    (s.claimZone x z).zoneView = s.zoneView.own z (s.arbiter.claimed x (s.zoneView.owner z)) := by
  have howner : s.zoneView.owner z = (s.zone z).owner := rfl
  unfold State.claimZone
  rw [howner]
  cases h : (s.zone z).owner with
  | none => exact s.setOwner_zoneView z (some x)
  | some y =>
    simp only [Arbiter.claimed]
    split
    · exact s.setOwner_zoneView z (some x)
    · rw [← h, ← howner, ZoneView.own_self]

/-- R128. -/
theorem State.passZone_zoneView (x : SourceIx) (z : ZoneIx) :
    (s.passZone x z).zoneView = s.zoneView.own z (s.arbiter.passed x z (s.zoneView.owner z)) := by
  have howner : s.zoneView.owner z = (s.zone z).owner := rfl
  unfold State.passZone Arbiter.passed
  rw [howner]
  split
  · exact s.setOwner_zoneView z _
  · rw [← howner, ZoneView.own_self]

/-- A pass that settles the owners of the zones of a mask one after another, each by its own owner, settles them all. -/
theorem foldl_own_zoneView {f : State → ZoneIx → State} (g : Arbiter → ZoneIx → Option SourceIx → Option SourceIx)
    (hf : ∀ s z, (f s z).zoneView = s.zoneView.own z (g s.arbiter z (s.zoneView.owner z))) (mask : BitVec 8) :
    ((zonesOf mask).foldl f s).zoneView = { s.zoneView with
      owner := fun z => if hasZone mask z then g s.arbiter z (s.zoneView.owner z) else s.zoneView.owner z } :=
  (List.foldl_hom State.zoneView fun t z => (hf t z).symm).symm.trans (ZoneView.foldl_own g s.zoneView mask)

theorem reportOwners_zoneView (t : State) (zs : List ZoneIx) (cause : OwnerCause) : (reportOwners s t zs cause).zoneView = t.zoneView := by
  rw [reportOwners, State.replanAll_zoneView]
  exact foldl_zoneView t (fun u z => u.notify_zoneView _) _

theorem State.activateSource_zoneView (x : SourceIx) (mask : BitVec 8) (p : Nat) (c : Channel) (cause : OwnerCause) :
    (s.activateSource x mask p c cause).zoneView = s.zoneView.activated x mask p c := by
  rw [State.activateSource, reportOwners_zoneView, foldl_own_zoneView _ (fun a _ => a.claimed x) (fun s z => s.claimZone_zoneView x z)]
  rfl

theorem State.deactivateSource_zoneView (x : SourceIx) (cause : OwnerCause) :
    (s.deactivateSource x cause).zoneView = s.zoneView.deactivated x := by
  have hpart : s.zoneView.arbiter.parts[x] = s.arbiter.parts[x] := rfl
  unfold State.deactivateSource ZoneView.deactivated
  rw [hpart]
  cases s.arbiter.parts[x] with
  | none => rfl
  | some q =>
    dsimp only
    rw [reportOwners_zoneView, foldl_own_zoneView _ (fun a => a.passed x) (fun s z => s.passZone_zoneView x z)]
    rfl

theorem orderBreakinStart_right (o : Order) (h : s.zoneView.right) : (orderBreakinStart o s).1.zoneView.right := by
  unfold orderBreakinStart
  split
  · exact h
  · split
    · exact h
    · split
      · exact h
      · next hn =>
        dsimp only
        rw [State.activateSource_zoneView]
        exact h.activated_console (Option.not_isSome_iff_eq_none.mp hn)

theorem orderBreakinStop_right (o : Order) (h : s.zoneView.right) : (orderBreakinStop o s).1.zoneView.right := by
  unfold orderBreakinStop
  split
  · exact h
  · next n _ =>
    split
    · dsimp only
      rw [State.deactivateSource_zoneView]
      exact h.deactivated_console n
    · exact h

/-! ## Contact inputs (6.2) -/

theorem State.modLatch_zoneView (i : InputIx) (on : Bool) :
    (s.modInput i (fun c => { c with latch := on, acked := false })).zoneView = s.zoneView.latched i on := by
  rw [State.modInput_zoneView_eq]
  simp [State.zoneView, ZoneView.latched]

/-- R113 steps 2 to 4. -/
theorem State.latchEffects_zoneView (i : InputIx) (isSet : Bool) : (s.latchEffects i isSet).zoneView =
    if isSet then (s.zoneView.worked (s.input i).mask).activated (contactSource i) (s.input i).mask (s.input i).priority (s.input i).channel
    else (s.zoneView.worked (s.input i).mask).deactivated (contactSource i) := by
  have hworked := foldl_work_zoneView s (fun s z => s.updateIncident_zoneView z (.line i isSet)) (s.input i).mask
  rw [State.latchEffects, State.replanAll_zoneView]
  split
  · rw [State.activateSource_zoneView, hworked]
  · rw [State.deactivateSource_zoneView, hworked]

theorem State.latch_right (i : InputIx) (cause : LineCause) (h : s.zoneView.right) (hlatch : (s.input i).latch = false) :
    (s.latch i cause).zoneView.right := by
  rw [State.latch, State.latchEffects_zoneView, State.lineEvent, State.notify_zoneView, State.modLatch_zoneView, if_pos rfl]
  simp only [State.notify_input, State.modInput_input_same]
  exact h.latch_set hlatch

theorem State.unlatch_right (i : InputIx) (h : s.zoneView.right) : (s.unlatch i).zoneView.right := by
  rw [State.unlatch, State.latchEffects_zoneView, State.modLatch_zoneView, if_neg Bool.false_ne_true]
  simp only [State.modInput_input_same]
  exact h.latch_cleared

theorem State.unlatchReleased_right (i : InputIx) (h : s.zoneView.right) : (s.unlatchReleased i).zoneView.right := by
  rw [State.unlatchReleased, State.latchEffects_zoneView, State.lineEvent, State.notify_zoneView, State.modLatch_zoneView,
    if_neg Bool.false_ne_true]
  simp only [State.notify_input, State.modInput_input_same]
  exact h.latch_cleared

/-- R113: a latch that has been cleared is clear. -/
theorem State.unlatch_latch (i : InputIx) : ((s.unlatch i).input i).latch = false := by
  show (s.unlatch i).zoneView.latch i = false
  rw [State.unlatch, State.latchEffects_zoneView, if_neg Bool.false_ne_true, ZoneView.deactivated_latch, State.modLatch_zoneView]
  simp [ZoneView.worked, ZoneView.latched]

theorem State.unlatch_if_latched (i : InputIx) (h : s.zoneView.right) :
    (if (s.input i).latch then s.unlatch i else s).zoneView.right ∧
      ((if (s.input i).latch then s.unlatch i else s).input i).latch = false := by
  split
  · exact ⟨s.unlatch_right i h, s.unlatch_latch i⟩
  · next hlatch => exact ⟨h, Bool.eq_false_of_not_eq_true hlatch⟩

/-- R114, R115: only a change of an input that is not latched sets its latch. -/
theorem changeEffect_eq_latched {mode : LineMode} {active latch acked : Bool} (h : changeEffect mode active latch acked = .latched) :
    latch = false := by
  revert h; cases mode <;> cases active <;> cases latch <;> cases acked <;> decide

theorem State.registeredChange_right (i : InputIx) (h : s.zoneView.right) : (s.registeredChange i).zoneView.right := by
  have hlevel : (s.modInput i (fun c => { c with level := !c.level, stability := 0, changeDue := false })).zoneView = s.zoneView :=
    s.modInput_zoneView i _ fun _ => ⟨rfl, rfl, rfl⟩
  rw [← hlevel] at h
  unfold State.registeredChange
  dsimp only
  split
  · exact h
  · next he => exact State.latch_right _ i _ h (by simpa using changeEffect_eq_latched he)
  · exact h
  · exact State.unlatchReleased_right _ i h

theorem State.storeLineSettings_right (i : InputIx) (mode : LineMode) (channel : Channel) (o : Order) (h : s.zoneView.right)
    (hlatch : (s.input i).latch = false) : (s.modInput i (fun c => c.withSettings mode channel o)).zoneView.right := by
  have hview : (s.modInput i (fun c => c.withSettings mode channel o)).zoneView =
      s.zoneView.withSettings i (o.p1.extractLsb' 8 8) (o.p2.getLsbD 0) := by
    rw [State.modInput_zoneView_eq]
    simp [State.zoneView, ZoneView.withSettings, ContactInput.withSettings]
  rw [hview]
  exact h.withSettings hlatch _ _

/-- R116: the settings are stored only once the latch is clear. -/
theorem orderSetLine_right (o : Order) (h : s.zoneView.right) : (orderSetLine o s).1.zoneView.right := by
  unfold orderSetLine
  split
  · exact h
  · next i _ =>
    split
    · next mode channel _ _ =>
      split
      · exact h
      · obtain ⟨hright, hlatch⟩ := s.unlatch_if_latched i h
        have hstored := State.storeLineSettings_right _ i mode channel o hright hlatch
        dsimp only
        split
        · exact State.latch_right _ i .setLine hstored (by simpa [ContactInput.withSettings] using hlatch)
        · exact hstored
    · exact h

theorem orderLineAck_right (o : Order) (h : s.zoneView.right) : (orderLineAck o s).1.zoneView.right := by
  unfold orderLineAck
  split
  · exact h
  · next i _ =>
    dsimp only
    split
    · exact h
    · split
      · split
        · exact h
        · exact (s.modInput_zoneView i (fun c => { c with acked := true }) fun _ => ⟨rfl, rfl, rfl⟩).symm ▸ h
      · exact s.unlatch_right i h

/-! ## Orders (10.1) -/

theorem takeByCode_right (o : Order) (h : s.zoneView.right) : (takeByCode o s).1.zoneView.right := by
  unfold takeByCode
  split
  · rwa [orderSetService_zoneView]
  · rwa [orderEnableService_zoneView]
  · rwa [orderDisableService_zoneView]
  · rwa [orderClearService_zoneView]
  · rwa [orderSetLink_zoneView]
  · rwa [orderLinkListen_zoneView]
  · rwa [orderLinkRange_zoneView]
  · rwa [orderLinkActivate_zoneView]
  · rwa [orderLinkQuiesce_zoneView]
  · rwa [orderLinkAbort_zoneView]
  · rwa [orderLinkDark_zoneView]
  · rwa [orderLinkQuery_zoneView]
  · rwa [orderSetGroup_zoneView]
  · rwa [orderSetZone_zoneView]
  · exact orderZoneIncident_right s o h
  · exact orderSetLine_right s o h
  · exact orderLineAck_right s o h
  · exact orderBreakinStart_right s o h
  · exact orderBreakinStop_right s o h
  · rwa [orderSetNotices_zoneView]
  · exact h

theorem State.takeNext_right (h : s.zoneView.right) : s.takeNext.zoneView.right := by
  obtain ⟨-, -, e⟩ | ⟨-, e⟩ := s.takeNext_cases <;> rw [e]
  · rw [State.execute, State.handResult_zoneView, State.modOrders_zoneView]
    exact takeByCode_right s _ h
  · exact h

theorem State.takeProducer_right (p : Fin 32) (h : s.zoneView.right) : (s.takeProducer p).zoneView.right := by
  unfold State.takeProducer
  dsimp only
  split
  · exact State.takeNext_right _ h
  · split <;> exact h

theorem State.submit_right (o : Order) (h : s.zoneView.right) : (s.submit o).zoneView.right := by
  rw [State.submit, State.arbitrated_zoneView]
  exact State.takeProducer_right _ _ h

/-! ## The memory path (chapter 9): what a write or a completion lets the order unit take -/

theorem State.tapWord_right (x : AccessWord) (h : s.zoneView.right) : (s.tapWord x).zoneView.right := by
  unfold State.tapWord State.takeProducerWord
  dsimp only
  split
  case h_2 =>
    split
    · exact s.takeProducer_right _ h
    · exact h
  all_goals exact h

theorem State.hostWrite_right (a : BitVec 28) (ws : List BusWord) (h : s.zoneView.right) : (s.hostWrite a ws).zoneView.right := by
  unfold State.hostWrite
  dsimp only
  split
  · exact h
  · split
    · exact h
    · rw [State.arbitrated_zoneView, State.admitWrite_zoneView]
      exact foldl_induct (fun t => t.zoneView.right) State.tapWord (fun t x ht => t.tapWord_right x ht) _ s h

theorem State.reportCompletion_right (p : Producer) (h : s.zoneView.right) : (s.reportCompletion p).zoneView.right := by
  cases p with
  | orderUnit => exact State.takeNext_right _ h
  | noticeUnit => exact h
  | statusPoster => exact h
  | combiner => exact h

theorem State.completePort_right (h : s.zoneView.right) : s.completePort.zoneView.right := by
  unfold State.completePort
  split
  · exact h
  · exact h
  · exact h
  · split
    · next p _ _ =>
      have hdone := State.reportCompletion_right (s.modPath MemPath.headDone) p.producer h
      unfold State.completeHead
      dsimp only
      split
      · exact hdone
      · rwa [State.serve_zoneView]
    · exact h

theorem State.releaseHeld_right (h : s.zoneView.right) : s.releaseHeld.zoneView.right := by
  unfold State.releaseHeld
  split
  · split
    · split
      · exact s.completePort_right h
      · split <;> exact h
    · exact h
  · exact h

/-! ## Boundaries and RESET -/

theorem State.registeredChangeIfDue_right (i : InputIx) (h : s.zoneView.right) : (s.registeredChangeIfDue i).zoneView.right := by
  unfold State.registeredChangeIfDue
  split
  · exact s.registeredChange_right i h
  · exact h

/-- Log 3: of what falls due at a boundary the registered changes alone reach the view. -/
theorem State.settle_right (h : s.zoneView.right) : s.settle.zoneView.right := by
  unfold State.settle
  dsimp only
  rw [State.joinSwitchAll_zoneView, State.forZones_zoneView _ State.planSwitchIfDue_zoneView]
  refine State.forInputs_induct (fun t => t.zoneView.right) _ (fun t i ht => t.registeredChangeIfDue_right i ht) _ ?_
  rw [State.forGroups_zoneView _ State.holdExpiryIfDue_zoneView, State.forLinks_zoneView _ State.settleLink_zoneView]
  split
  · rwa [State.superframeWork_zoneView]
  · exact h

theorem State.beginBoundary_right (h : s.zoneView.right) : s.beginBoundary.zoneView.right := by
  have hview : s.beginBoundary.zoneView = (s.settle.modTime Timebase.next).zoneView :=
    State.forLinks_zoneView _ fun t l => t.modMgr_zoneView l Manager.departing
  rw [hview, State.modTime_zoneView]
  exact s.settle_right h

theorem State.atBoundary_right (h : s.zoneView.right) : s.atBoundary.zoneView.right := by
  unfold State.atBoundary
  split
  · exact h
  · exact s.beginBoundary_right h

theorem State.superframeBoundary_right (h : s.zoneView.right) : s.superframeBoundary.zoneView.right := by
  unfold State.superframeBoundary
  split
  · rwa [State.superframeWork_zoneView]
  · split
    · rw [State.superframeWork_zoneView]
      exact s.beginBoundary_right h
    · exact h

/-- An event of a boundary that leaves the view keeps it right, at whichever boundary it is taken. -/
theorem State.boundaryEvent_right {due : State → Bool} {act : State → State} (hact : ∀ t, (act t).zoneView = t.zoneView)
    (h : s.zoneView.right) : (s.boundaryEvent due act).zoneView.right := by
  obtain ⟨-, e⟩ | ⟨-, -, -, e⟩ | ⟨-, -, e⟩ := s.boundaryEvent_cases due act <;> rw [e]
  · rwa [hact]
  · rw [hact]
    exact s.atBoundary_right h
  · exact h

theorem State.registeredChangeEvent_right (i : InputIx) (h : s.zoneView.right) : (s.registeredChangeEvent i).zoneView.right := by
  unfold State.registeredChangeEvent
  split
  · exact s.registeredChange_right i h
  · split
    · rw [State.registerEarly, State.modInput_zoneView _ i (fun c => { c with changeTaken := true }) fun _ => ⟨rfl, rfl, rfl⟩]
      exact State.registeredChange_right _ i (s.atBoundary_right h)
    · exact h

/-- R104, R111, R122: at the release of RESET no zone is in incident, no input is latched, no source is active and no zone is owned. -/
theorem State.atRelease_right (straps : BitVec 14) : (State.atRelease straps).zoneView.right := by
  have hview : (State.atRelease straps).zoneView = State.reset.zoneView := by
    simp only [State.zoneView, State.zone, State.input, State.atRelease, State.reset]
  have howner : ∀ z, State.reset.zoneView.owner z = none := by decide
  rw [hview]
  refine ⟨?_, ⟨⟨List.nodup_nil, by decide⟩, fun z => ?_⟩, ?_⟩
  · intro z; revert z; decide
  · rw [howner z]
    intro x hx
    cases hx
  · intro i; revert i; decide

/-! ## Commands -/

variable {s} {t : State}

/-- While RESET is asserted nothing is taken (R165); else the state is the one the command makes. -/
theorem State.running_right {u : State} (h : s.zoneView.right) (hu : u.zoneView.right) (e : s.running u = .next t) :
    t.zoneView.right := by
  obtain rfl : (if s.path.inReset then s else u) = t := Host.Outcome.next.inj e
  split
  · exact h
  · exact hu

/-- A command that leaves the view where the part runs. -/
theorem State.running_right_of_eq {u : State} (h : s.zoneView.right) (hu : u.zoneView = s.zoneView) (e : s.running u = .next t) :
    t.zoneView.right := State.running_right h (hu ▸ h) e

theorem writeAccess_right {a : BitVec 28} {ws : List BusWord} (h : s.zoneView.right) (e : writeAccess a ws s = .next t) :
    t.zoneView.right := by
  unfold writeAccess at e
  split at e
  · cases e; exact s.hostWrite_right a ws h
  · cases e

theorem execHostRead_right {a : BitVec 28} {n : Nat} (h : s.zoneView.right) (e : execHostRead a n s = .next t) :
    t.zoneView.right := by
  unfold execHostRead at e
  split at e
  · cases e; rwa [State.hostRead_zoneView]
  · cases e

theorem execUplinkFrameArrival_right {l : LinkIx} {f : UplinkFrame} (h : s.zoneView.right)
    (e : execUplinkFrameArrival l f s = .next t) : t.zoneView.right := by
  unfold execUplinkFrameArrival at e
  split at e
  · exact State.running_right_of_eq h (s.takeFrame_zoneView l f) e
  · cases e

theorem execResetRelease_right {straps : BitVec 14} (h : s.zoneView.right) (e : execResetRelease straps s = .next t) :
    t.zoneView.right := by
  obtain rfl : (if s.path.inReset then s.resetReleased straps else s) = t := Host.Outcome.next.inj e
  split
  · exact State.atRelease_right straps
  · exact h

theorem exec_right (c : Instr) (h : s.zoneView.right) (e : exec c s = .next t) : t.zoneView.right := by
  cases c with
  | blockBoundary levels =>
    refine State.running_right h ?_ e
    rw [State.blockWork_zoneView]
    exact s.atBoundary_right h
  | superframeBoundary => exact State.running_right h (s.superframeBoundary_right h) e
  | resetAssert => cases e; exact h
  | resetRelease straps => exact execResetRelease_right h e
  | lockGained l => exact State.running_right_of_eq h (s.lockGained_zoneView l) e
  | lockLost l => exact State.running_right_of_eq h (s.lockLost_zoneView l) e
  | uplinkFrameArrival l f => exact execUplinkFrameArrival_right h e
  | attach l => exact State.running_right_of_eq h (s.attachIfDue_zoneView l) e
  | settlePeriodEnd l => exact State.running_right_of_eq h (s.settlePeriodEndIfDue_zoneView l) e
  | debounceEnd l => exact State.running_right_of_eq h (s.debounceEndIfDue_zoneView l) e
  | helloWaitExpiry l => exact State.running_right_of_eq h (s.helloWaitExpiryIfDue_zoneView l) e
  | quiescingEnd l => exact State.running_right_of_eq h (s.quiescingEndIfDue_zoneView l) e
  | requestDeadlineExpiry l => exact State.running_right h (s.boundaryEvent_right (fun t => t.deadlinesIfDue_zoneView l) h) e
  | echoWindowClose l => exact State.running_right_of_eq h (s.echoWindowCloseIfDue_zoneView l) e
  | trackWindowClose l => exact State.running_right_of_eq h (s.trackWindowCloseIfDue_zoneView l) e
  | trackingMark l => exact State.running_right h (s.boundaryEvent_right (fun t => t.trackingMark_zoneView l) h) e
  | holdExpiry g => exact State.running_right h (s.boundaryEvent_right (fun t => t.holdExpiry_zoneView g) h) e
  | registeredChange i => exact State.running_right h (s.registeredChangeEvent_right i h) e
  | planSwitch z => exact State.running_right h (s.boundaryEvent_right (fun t => t.planSwitchIfDue_zoneView z) h) e
  | joinSwitchSuperframe => exact State.running_right h (s.boundaryEvent_right State.joinSwitchAll_zoneView h) e
  | setService | enableService | disableService | clearService | setLink | linkListen | linkRange | linkActivate | linkQuiesce
  | linkAbort | linkDark | linkQuery | setGroup | setZone | zoneIncident | setLine | lineAck | breakinStart | breakinStop
  | setNotices | unknownOrder => exact State.running_right h (s.submit_right _ h) e
  | orderSlotWrite | commitWordWrite | streamSampleWrite | ownedAreaWrite | hostWrite => exact writeAccess_right h e
  | orderProducerIndexWrite | noticeConsumerIndexWrite => cases e; exact s.hostWrite_right _ _ h
  | flushWordRead => cases e; rwa [State.hostRead_zoneView]
  | heldAccessRelease => cases e; exact s.releaseHeld_right h
  | memoryPortCompletion => cases e; exact s.completePort_right h
  | postingEnqueue p => exact State.running_right_of_eq (u := (s.enqueueFrom p).arbitrated) h (s.enqueueFrom_zoneView p) e
  | noticeHandover => exact State.running_right_of_eq (u := s.noticeHandover.arbitrated) h s.noticeHandover_zoneView e
  | noticesLost => exact State.running_right_of_eq (u := s.noticesLost.arbitrated) h s.noticesLost_zoneView e
  | hostRead a n => exact execHostRead_right h e

theorem step_right (h : s.zoneView.right) (e : step s = .next t) : t.zoneView.right := by
  unfold step at e
  split at e
  · cases e; exact h
  · next c rest _ => exact exec_right (s := { s with pending := rest }) c h e

end

/-- Settles O58: R105, R122 and R127 hold of the view, and every command keeps them there. -/
theorem stepKeepsZonesOwned : Obligations.StepKeepsZonesOwned := fun s t hincident howners e =>
  t.zoneView_right_iff.mp (step_right (s.zoneView_right_iff.mpr ⟨hincident, howners⟩) e)

end Sys2Proof.Machine
end

section
/-! What the units of the part (chapters 1 to 8, and the notices of chapter 10) do to its records: every operation of theirs is a chain of
elementary edits, each with what it keeps. The invariants of the records are then matters of one edit. -/

namespace Sys2Proof.Machine

open Sys2Proof

/-! ## What the invariants say of one record -/

/-- R3, R18, R19, R20, R91 of one link record. -/
structure Link.Legal (x : Link) : Prop where
  laser : x.mgr.laser = (x.mgr.state != .dark)
  exchange : x.exchange.isSome = true → x.mgr.state = .joining ∨ x.mgr.state = .active
  closed : x.mgr.state.controlOpen = false →
    (∀ g : Tag, x.mgr.outstanding[g] = none) ∧ x.mgr.pendingQueue = [] ∧ x.mgr.txQueue = [] ∧ x.mgr.leaving = []
  pending : x.mgr.pendingQueue.length ≤ 8 ∧ (x.mgr.pendingQueue.filter Request.isPlan).length ≤ 1

/-- R137 (log 24) of one received history. -/
structure RxHistory.Canonical (h : RxHistory) : Prop where
  oldest : samplesWf h.oldest.samples = true
  middle : samplesWf h.middle.samples = true
  newest : samplesWf h.newest.samples = true

/-- R58, R137 (log 24) of one link record. -/
structure Link.Canonical (x : Link) : Prop where
  now : samplesWf x.line.now = true
  before : samplesWf x.line.before = true
  rx : ∀ h, x.rx = some h → h.Canonical

/-- R53 of one link record. -/
def Link.DelaysBounded (x : Link) : Prop := x.align.k ≤ 16383 ∧ x.align.kStar ≤ 16383

/-- R49, R53, R55 of one member of a group. -/
def Link.AlignedTo (x : Link) (g : Group) : Prop :=
  ∃ t, g.target = some t ∧ x.rng.path + g.guard ≤ t ∧ (∀ h, g.hold = some h → x.rng.path + g.guard ≤ h.candidate) ∧
    x.align.kStar = min 16383 (t - x.rng.path) ∧ x.align.outOfReach = decide (16383 < t - x.rng.path) ∧
    x.align.slewing = (x.align.k != x.align.kStar)

/-- R70, R71 (log 24) of one service record. -/
structure Service.Canonical (x : Service) : Prop where
  streams : ∀ n r, x.streams.get n = some r → r.wf

/-- R86, R87 of one zone record. -/
def Zone.Fits (x : Zone) : Prop := planFits 0 x.entries ∧ ∀ p, x.staged = some p → planFits 0 p.entries

/-! ## What an edit of one record keeps -/

/-- What an edit of a link record from x to y keeps of the record by itself. -/
structure Link.Keeps (x y : Link) : Prop where
  legal : x.Legal → y.Legal
  canonical : x.Canonical → y.Canonical
  delays : x.DelaysBounded → y.DelaysBounded

/-- An edit of a link record from x to y leaves the link as well aligned to its group as it was, if it is a member afterwards. -/
def Link.StaysAligned (x y : Link) : Prop :=
  y.mgr.state = .active → x.mgr.state = .active ∧ y.settings.group = x.settings.group ∧ ∀ g, x.AlignedTo g → y.AlignedTo g

/-- The fields of a link record that its invariants speak of. -/
structure LinkCore where
  state : LinkState
  laser : Bool
  outstanding : Vector (Option Outstanding) 4
  pendingQueue : List Request
  txQueue : List DownMsg
  leaving : List DownMsg
  exchange : Option Exchange
  group : GroupIx
  align : Align
  path : Nat
  line : DelayLine
  rx : Option RxHistory

def Link.core (x : Link) : LinkCore :=
  { state := x.mgr.state, laser := x.mgr.laser, outstanding := x.mgr.outstanding, pendingQueue := x.mgr.pendingQueue
    txQueue := x.mgr.txQueue, leaving := x.mgr.leaving, exchange := x.exchange, group := x.settings.group, align := x.align
    path := x.rng.path, line := x.line, rx := x.rx }

/-- An edit beside the fields the invariants speak of keeps everything. -/
theorem Link.keeps_of_core {x y : Link} (h : y.core = x.core) : x.Keeps y ∧ x.StaysAligned y := by
  simp only [Link.core, LinkCore.mk.injEq] at h
  obtain ⟨hstate, hlaser, hout, hpend, htx, hleave, hex, hgroup, halign, hpath, hline, hrx⟩ := h
  refine ⟨⟨fun hx => ⟨?_, ?_, ?_, ?_⟩, fun hx => ⟨?_, ?_, ?_⟩, fun hx => ?_⟩, fun hy => ⟨?_, hgroup, fun g hg => ?_⟩⟩
  · rw [hlaser, hstate]; exact hx.laser
  · rw [hex, hstate]; exact hx.exchange
  · rw [hstate, hout, hpend, htx, hleave]; exact hx.closed
  · rw [hpend]; exact hx.pending
  · rw [hline]; exact hx.now
  · rw [hline]; exact hx.before
  · rw [hrx]; exact hx.rx
  · unfold Link.DelaysBounded; rw [halign]; exact hx
  · rwa [← hstate]
  · unfold Link.AlignedTo; rw [halign, hpath]; exact hg

/-- What an edit of a service record from x to y, other than ENABLE_SERVICE, keeps. -/
structure Service.Keeps (x y : Service) : Prop where
  demand : y.state = .enabled →
    x.state = .enabled ∧ y.stagingDemand = x.stagingDemand ∧ y.uplinkDemand = x.uplinkDemand
  cls : x.cls ≤ 7 → y.cls ≤ 7
  canonical : x.Canonical → y.Canonical

/-- An edit of a group record from x to y leaves what its members are aligned to. -/
def Group.SameAim (x y : Group) : Prop :=
  y.guard = x.guard ∧ y.target = x.target ∧ y.hold.map Hold.candidate = x.hold.map Hold.candidate

/-- An edit of the work list that keeps one block a service and every block in its one form. -/
structure Combiner.Keeps (c d : Combiner) : Prop where
  nodup : (c.workList.map (fun b => b.service)).Nodup → (d.workList.map (fun b => b.service)).Nodup
  canonical : (∀ b, b ∈ c.workList → samplesWf b.words = true) → ∀ b, b ∈ d.workList → samplesWf b.words = true

/-- R176: the thresholds and the interrupt enable of SET_NOTICES taken. -/
def NoticeUnit.rethreshold (u : NoticeUnit) (hold resume : Nat) (on : Bool) : NoticeUnit :=
  ({ u with holdAt := hold, resumeAt := resume, irqEnable := on }.enterHold).leaveHold.refreshIrq

/-! ## Edits -/

/-- One edit the units make of the part's records. -/
inductive State.Edit (s : State) : State → Prop
  | notify (n : Notice) : Edit s (s.notify n)
  | thresholds (hold resume : Nat) (on : Bool) : Edit s (s.modNotices (fun u => u.rethreshold hold resume on))
  | link (l : LinkIx) (f : Link → Link) (keeps : (s.link l).Keeps (f (s.link l)))
      (aligned : (s.link l).StaysAligned (f (s.link l))) : Edit s (s.modLink l f)
  /-- R61, R47: a link's path changes, or it becomes a member, and its group is re-evaluated. -/
  | regroup (l : LinkIx) (f : Link → Link) (cause : AlignCause) (keeps : (s.link l).Keeps (f (s.link l)))
      (group : (f (s.link l)).settings.group = (s.link l).settings.group) :
      Edit s ((s.modLink l f).reEvaluate (s.link l).settings.group cause [])
  | reEvaluate (g : GroupIx) (cause : AlignCause) (cleared : List (LinkIx × Bool)) : Edit s (s.reEvaluate g cause cleared)
  /-- R46: the group's settings change and it is re-evaluated. -/
  | setGroup (g : GroupIx) (f : Group → Group) (cause : AlignCause) : Edit s ((s.modGroup g f).reEvaluate g cause [])
  | group (g : GroupIx) (f : Group → Group) (aim : (s.group g).SameAim (f (s.group g))) : Edit s (s.modGroup g f)
  | expireHold (g : GroupIx) : Edit s (s.expireHold g)
  | service (v : ServiceIx) (f : Service → Service) (keeps : (s.service v).Keeps (f (s.service v))) : Edit s (s.modService v f)
  /-- R66: a DEFINED service within the capacities is enabled. -/
  | enable (v : ServiceIx) (b : Seq16) (isDefined : (s.service v).state = .defined)
      (staging : s.enabledSum Service.stagingDemand + (s.service v).stagingDemand ≤ 80)
      (uplink : s.enabledSum Service.uplinkDemand + (s.service v).uplinkDemand ≤ 48) :
      Edit s (s.modService v (fun x => x.enable b))
  | zone (z : ZoneIx) (f : Zone → Zone) (fits : (s.zone z).Fits → (f (s.zone z)).Fits) : Edit s (s.modZone z f)
  | input (i : InputIx) (f : ContactInput → ContactInput) : Edit s (s.modInput i f)
  | arbiter (a : Arbiter) : Edit s { s with arbiter := a }
  | combiner (c : Combiner) (keeps : s.combiner.Keeps c) : Edit s { s with combiner := c }

/-- t is s after a chain of edits. -/
abbrev State.Edits : State → State → Prop := Relation.ReflTransGen State.Edit

theorem State.Edits.refl (s : State) : s.Edits s := Relation.ReflTransGen.refl

theorem State.Edits.trans {s t u : State} (h : s.Edits t) (k : t.Edits u) : s.Edits u := Relation.ReflTransGen.trans h k

theorem State.Edit.edits {s t : State} (e : s.Edit t) : s.Edits t := Relation.ReflTransGen.single e

/-- A fold of steps that are each a chain of edits. -/
theorem State.Edits.foldl {α : Type} {f : State → α → State} (h : ∀ (s : State) a, s.Edits (f s a)) (xs : List α) (s : State) :
    s.Edits (xs.foldl f s) :=
  foldl_induct (fun t => s.Edits t) f (fun t a ht => ht.trans (h t a)) xs s (.refl s)

theorem State.Edits.forLinks {f : State → LinkIx → State} (h : ∀ (s : State) l, s.Edits (f s l)) (s : State) : s.Edits (s.forLinks f) :=
  .foldl h _ s
theorem State.Edits.forServices {f : State → ServiceIx → State} (h : ∀ (s : State) v, s.Edits (f s v)) (s : State) : s.Edits (s.forServices f) :=
  .foldl h _ s
theorem State.Edits.forZones {f : State → ZoneIx → State} (h : ∀ (s : State) z, s.Edits (f s z)) (s : State) : s.Edits (s.forZones f) :=
  .foldl h _ s
theorem State.Edits.forGroups {f : State → GroupIx → State} (h : ∀ (s : State) g, s.Edits (f s g)) (s : State) : s.Edits (s.forGroups f) :=
  .foldl h _ s
theorem State.Edits.forInputs {f : State → InputIx → State} (h : ∀ (s : State) i, s.Edits (f s i)) (s : State) : s.Edits (s.forInputs f) :=
  .foldl h _ s

/-- Links whose record changes beside the fields the invariants speak of. -/
theorem State.modLink_edits {s : State} {l : LinkIx} {f : Link → Link} (h : (f (s.link l)).core = (s.link l).core) :
    s.Edits (s.modLink l f) :=
  (Edit.link l f (Link.keeps_of_core h).1 (Link.keeps_of_core h).2).edits

theorem State.setCombiner_edits (s : State) (c : Combiner) (h : s.combiner.Keeps c) : s.Edits { s with combiner := c } :=
  (Edit.combiner c h).edits

theorem State.notify_edits (s : State) (n : Notice) : s.Edits (s.notify n) := (Edit.notify n).edits

/-- What every edit keeps, a chain of edits keeps. -/
theorem State.Edits.keeps {P : State → Prop} (h : ∀ s t : State, s.Edit t → P s → P t) {s t : State} (e : s.Edits t) (hs : P s) : P t := by
  induction e with
  | refl => exact hs
  | tail _ e ih => exact h _ _ e ih

end Sys2Proof.Machine
end

section
/-! The operations of the links, chapters 1 to 3, in the terms of the statements: what completes, departs, enters or is torn down. -/

namespace Sys2Proof.Machine

open Sys2Proof

/-! ## Notices in a row -/

section
variable (s : State) (l : LinkIx)

@[simp] theorem State.plusNotices_nil : s.plusNotices [] = s := rfl
theorem State.plusNotices_cons (n : Notice) (ns : List Notice) : s.plusNotices (n :: ns) = (s.notify n).plusNotices ns := rfl
theorem State.plusNotices_append (ns ms : List Notice) : s.plusNotices (ns ++ ms) = (s.plusNotices ns).plusNotices ms := by
  simp [State.plusNotices, List.foldl_append]
@[simp] theorem State.plusNotices_link (ns : List Notice) (l' : LinkIx) : (s.plusNotices ns).link l' = s.link l' := rfl
@[simp] theorem State.plusNotices_group (ns : List Notice) (g' : GroupIx) : (s.plusNotices ns).group g' = s.group g' := rfl
@[simp] theorem State.plusNotices_zone (ns : List Notice) (z' : ZoneIx) : (s.plusNotices ns).zone z' = s.zone z' := rfl
@[simp] theorem State.plusNotices_service (ns : List Notice) (v' : ServiceIx) : (s.plusNotices ns).service v' = s.service v' := rfl
@[simp] theorem State.plusNotices_time (ns : List Notice) : (s.plusNotices ns).time = s.time := rfl

theorem State.modLink_plusNotices (f : Link → Link) (ns : List Notice) :
    (s.plusNotices ns).modLink l f = (s.modLink l f).plusNotices ns := rfl
theorem State.modLink_notify (f : Link → Link) (n : Notice) : (s.notify n).modLink l f = (s.modLink l f).notify n := rfl

/-- A query posts its QUERY_DONE, a PLAN none. -/
theorem State.queryDone_eq (r : Request) (c : QueryOutcome) : s.queryDone l r c 0 = s.plusNotices (queryDones l c [r]) := by
  cases r <;> rfl

theorem queryDones_cons (c : QueryOutcome) (r : Request) (rs : List Request) :
    queryDones l c (r :: rs) = queryDones l c [r] ++ queryDones l c rs := by
  cases r <;> rfl

/-- Requests that complete in a row. -/
theorem State.foldl_queryDone (c : QueryOutcome) (rs : List Request) :
    rs.foldl (fun s r => s.queryDone l r c 0) s = s.plusNotices (queryDones l c rs) := by
  induction rs generalizing s with
  | nil => rfl
  | cons r rest ih => rw [List.foldl_cons, ih, s.queryDone_eq, queryDones_cons l c r rest, State.plusNotices_append]

/-! ## Teardown, departure and entry -/

/-- R13 to R16: a teardown as one change of the link, its notices, and the re-evaluation of the group it leaves. -/
theorem State.takeDown_eq (new : LinkState) (cause : LinkCause) : s.takeDown l new cause =
    let x := s.link l
    let down := (s.torn l new).plusNotices
      (.linkState l x.mgr.state new cause x.mgr.wires none :: queryDones l .linkDown x.mgr.heldRequests)
    if x.mgr.state = .active then down.reEvaluate x.settings.group (.left l) (s.clearedFlag l) else down := by
  simp only [State.takeDown, State.completeAllDown, State.foldl_queryDone, State.closeUplink, State.leaveGroupDown, State.modMgr,
    State.modAlign, State.plusNotices_cons, State.modLink_plusNotices, State.modLink_notify, State.modLink_modLink]
  simp only [State.notify_link, State.plusNotices_link, State.modLink_link_same, beq_iff_eq]
  rfl

/-- R9, R10, R47, R48: a departure from ACTIVE as one change of the link, its notices, and the re-evaluation of the group it leaves. -/
theorem State.leaveActive_eq (new : LinkState) (cause : LinkCause) : s.leaveActive l new cause =
    let x := s.link l
    let gone : State := if new = .quiescing then (s.departed l new).modMgr l (fun m => { m with pendingQueue := [] }) else s.departed l new
    (gone.plusNotices (.linkState l x.mgr.state new cause (Vector.replicate 4 false) none ::
      if new = .quiescing then queryDones l .aborted x.mgr.pendingQueue else [])).reEvaluate
      x.settings.group (.left l) (s.clearedFlag l) := by
  unfold State.leaveActive
  by_cases h : new = .quiescing
  · simp only [h, if_true, State.abortPending, State.foldl_queryDone, State.closeUplink, State.leaveGroup, State.modMgr,
      State.modAlign, State.plusNotices_cons, State.modLink_plusNotices, State.modLink_notify, State.modLink_modLink, State.departed]
    simp only [State.notify_link, State.plusNotices_link, State.modLink_link_same]
    rfl
  · simp only [h, if_false, State.closeUplink, State.leaveGroup, State.modMgr,
      State.modAlign, State.plusNotices_cons, State.plusNotices_nil, State.modLink_notify, State.modLink_modLink, State.departed]
    simp only [State.notify_link, State.modLink_link_same]
    rfl

end

end Sys2Proof.Machine
end

section
/-! The units' operations as chains of edits: alignment, control channel, combiner, streams, link states, allocator, ranging, link
manager, break-in, zones, services, and the work of the boundaries. -/

namespace Sys2Proof.Machine

open Sys2Proof

theorem State.plusNotices_edits (s : State) (ns : List Notice) : s.Edits (s.plusNotices ns) := by
  induction ns generalizing s with
  | nil => exact .refl s
  | cons n rest ih => exact (s.notify_edits n).trans (ih _)

section
variable (s : State) (l : LinkIx) (z : ZoneIx)

/-! ## Links -/

variable {s l} in
/-- A manager edit that leaves the state and the laser as they are. -/
theorem State.modMgr_edits {f : Manager → Manager} (hstate : (f (s.link l).mgr).state = (s.link l).mgr.state)
    (hlaser : (f (s.link l).mgr).laser = (s.link l).mgr.laser)
    (hclosed : (s.link l).Legal → (s.link l).mgr.state.controlOpen = false →
      (∀ g : Tag, (f (s.link l).mgr).outstanding[g] = none) ∧ (f (s.link l).mgr).pendingQueue = [] ∧
        (f (s.link l).mgr).txQueue = [] ∧ (f (s.link l).mgr).leaving = [])
    (hpending : (s.link l).Legal → (f (s.link l).mgr).pendingQueue.length ≤ 8 ∧
      ((f (s.link l).mgr).pendingQueue.filter Request.isPlan).length ≤ 1) : s.Edits (s.modMgr l f) := by
  refine (Edit.link l _ ⟨fun h => ⟨?_, ?_, ?_, hpending h⟩, fun h => ⟨h.now, h.before, h.rx⟩, fun h => h⟩ fun h => ⟨?_, rfl, fun g hg => hg⟩).edits
  · show (f (s.link l).mgr).laser = ((f (s.link l).mgr).state != .dark)
    rw [hlaser, hstate]; exact h.laser
  · intro he
    show (f (s.link l).mgr).state = .joining ∨ (f (s.link l).mgr).state = .active
    rw [hstate]; exact h.exchange he
  · intro hc
    exact hclosed h (by rw [← hstate]; exact hc)
  · rw [← hstate]; exact h

variable {s l} in
/-- A change of the exchange of a link whose state may have one. -/
theorem State.setExchange_edits {e : Option Exchange} (h : e.isSome = true → (s.link l).Legal →
    (s.link l).mgr.state = .joining ∨ (s.link l).mgr.state = .active) : s.Edits (s.setExchange l e) :=
  (Edit.link l _ ⟨fun hx => ⟨hx.laser, fun he => h he hx, hx.closed, hx.pending⟩, fun hx => ⟨hx.now, hx.before, hx.rx⟩, fun hx => hx⟩
    fun hy => ⟨hy, rfl, fun _ hg => hg⟩).edits

/-! ## Alignment (chapter 3) -/

theorem State.holdExpiryIfDue_edits (g : GroupIx) : s.Edits (s.holdExpiryIfDue g) := by
  unfold State.holdExpiryIfDue
  split
  · exact (Edit.expireHold g).edits
  · exact .refl s

theorem State.holdExpiry_edits (g : GroupIx) : s.Edits (s.holdExpiry g) := by
  unfold State.holdExpiry State.countAndExpire
  split
  · exact (Edit.expireHold g).edits
  · exact (Edit.group (s := s) g (fun x => { x with counted := true }) ⟨rfl, rfl, rfl⟩).edits.trans (Edit.expireHold g).edits

theorem Group.countHold_sameAim (g : Group) : g.SameAim g.countHold := by
  unfold Group.countHold
  split
  · exact ⟨rfl, rfl, rfl⟩
  · refine ⟨rfl, rfl, ?_⟩
    cases g.hold <;> rfl

/-- R55: a slew step moves K towards K*. -/
theorem Align.slewStep_spec (a : Align) (slew : Nat) : (a.slewStep slew).k ≤ max a.k a.kStar ∧ (a.slewStep slew).kStar = a.kStar ∧
    (a.slewStep slew).outOfReach = a.outOfReach ∧ (a.slewStep slew).slewing = ((a.slewStep slew).k != (a.slewStep slew).kStar) := by
  refine ⟨?_, rfl, rfl, rfl⟩
  unfold Align.slewStep
  dsimp only
  split <;> split <;> omega

theorem State.slewAll_edits : s.Edits s.slewAll := by
  refine State.Edits.forLinks (fun s l => ?_) s
  split
  · obtain ⟨hk, hstar, hreach, hslew⟩ := (s.link l).align.slewStep_spec (s.group (s.link l).settings.group).slew
    refine (Edit.link l _ ⟨fun h => ⟨h.laser, h.exchange, h.closed, h.pending⟩, fun h => ⟨h.now, h.before, h.rx⟩, fun h => ?_⟩
      fun h => ⟨h, rfl, fun g hg => ?_⟩).edits
    · obtain ⟨h1, h2⟩ := h
      exact ⟨by dsimp only; omega, h2⟩
    · obtain ⟨t, ht, hp, hh, hks, ho, -⟩ := hg
      exact ⟨t, ht, hp, hh, hks, ho, hslew⟩
  · exact .refl s

theorem orderSetGroup_edits (o : Order) : s.Edits (orderSetGroup o s).1 := by
  unfold orderSetGroup
  split
  · exact .refl s
  · exact (State.Edit.setGroup _ _ _).edits

/-! ## The control channel (1.3) -/

theorem State.queryDone_edits (r : Request) (c : QueryOutcome) (d : BitVec 32) : s.Edits (s.queryDone l r c d) := by
  unfold State.queryDone
  split
  · exact s.notify_edits _
  · exact .refl s

variable {l} in
theorem LinkState.controlOpen_of_planned {x : LinkState} (h : x = .joining ∨ x = .active) : x.controlOpen = true := by
  obtain rfl | rfl := h <;> rfl

/-- R20: a PLAN placed in the pending queue keeps its bounds. -/
theorem placePlan_bounded {q : List Request} {r : Request} (hr : r.isPlan = true) (hlen : q.length ≤ 8)
    (hplans : (q.filter Request.isPlan).length ≤ 1) :
    (placePlan q r).length ≤ 8 ∧ ((placePlan q r).filter Request.isPlan).length ≤ 1 := by
  unfold placePlan
  split
  · have hmap (q : List Request) : ((q.map (fun x => if x.isPlan then r else x)).filter Request.isPlan).length =
        (q.filter Request.isPlan).length := by
      induction q with
      | nil => rfl
      | cons x rest ih => by_cases hx : x.isPlan = true <;> simp [hx, hr, ih]
    exact ⟨by simpa using hlen, by rwa [hmap]⟩
  · next hnone =>
    have hq : q.filter Request.isPlan = [] := by
      rw [List.filter_eq_nil_iff]
      intro x hx hp
      exact hnone (List.any_eq_true.mpr ⟨x, hx, hp⟩)
    have hfront : q.dropLast.filter Request.isPlan = [] :=
      List.eq_nil_of_sublist_nil (hq ▸ q.dropLast_sublist.filter _)
    split
    · exact ⟨by simp only [List.length_cons]; omega, by simp [hr, hq]⟩
    · exact ⟨by simp only [List.length_cons, List.length_dropLast]; omega, by simp [hr, hfront]⟩

variable {s l} in
/-- R19, R20: a request issued on an open control channel; a query comes where the pending queue has room. -/
theorem State.issueRequest_edits {r : Request} (hopen : (s.link l).Legal → (s.link l).mgr.state.controlOpen = true)
    (hroom : r.isPlan = false → (s.link l).mgr.pendingQueue.length < 8) : s.Edits (s.issueRequest l r) := by
  have hclosed {P : Prop} (hl : (s.link l).Legal) (h : (s.link l).mgr.state.controlOpen = false) : P := by simp [hopen hl] at h
  unfold State.issueRequest
  split
  · exact State.modMgr_edits rfl rfl (fun hl h => hclosed hl h) fun h => h.pending
  · dsimp only
    split
    · next hr =>
      have hplace : s.Edits (s.modMgr l (fun m => { m with pendingQueue := placePlan m.pendingQueue r })) :=
        State.modMgr_edits rfl rfl (fun hl h => hclosed hl h) fun h => placePlan_bounded hr h.pending.1 h.pending.2
      split
      · exact hplace.trans (State.queryDone_edits _ _ _ _ _)
      · exact hplace
    · next hr =>
      have hr : r.isPlan = false := by simpa using hr
      refine State.modMgr_edits rfl rfl (fun hl h => hclosed hl h) fun h => ⟨?_, ?_⟩
      · have := hroom hr
        simp only [List.length_append, List.length_singleton]; omega
      · simpa [hr] using h.pending.2

variable {s l} in
theorem State.issueSetup_edits (hopen : (s.link l).mgr.state.controlOpen = true) : s.Edits (s.issueSetup l) :=
  State.modMgr_edits rfl rfl (fun _ h => by simp [hopen] at h) fun h => h.pending

theorem getElem_set_none {α : Type} {n : Nat} (v : Vector (Option α) n) (i j : Fin n) (h : v[j] = none) : (v.set i none)[j] = none := by
  simp only [Fin.getElem_fin] at h ⊢
  rw [Vector.getElem_set]
  split
  · rfl
  · exact h

theorem State.freeTag_edits (t : Tag) : s.Edits (s.freeTag l t) :=
  State.modMgr_edits rfl rfl (fun h hc => ⟨fun g => getElem_set_none _ _ _ ((h.closed hc).1 g), (h.closed hc).2⟩) fun h => h.pending

/-- What giving freed tags to pending requests keeps: state, laser and messages leaving; it shortens the pending queue from its head, and
does nothing where that is empty. -/
theorem Manager.giveFreedTags_spec (m : Manager) : m.giveFreedTags.state = m.state ∧ m.giveFreedTags.laser = m.laser ∧
    m.giveFreedTags.leaving = m.leaving ∧ m.giveFreedTags.pendingQueue.Sublist m.pendingQueue ∧
    (m.pendingQueue = [] → m.giveFreedTags = m) := by
  unfold Manager.giveFreedTags
  refine foldl_induct (fun m' : Manager => m'.state = m.state ∧ m'.laser = m.laser ∧ m'.leaving = m.leaving ∧
    m'.pendingQueue.Sublist m.pendingQueue ∧ (m.pendingQueue = [] → m' = m)) _ ?_ _ m ⟨rfl, rfl, rfl, .refl _, fun _ => rfl⟩
  rintro m' t ⟨h1, h2, h3, h4, h5⟩
  split
  · split
    · exact ⟨h1, h2, h3, h4, h5⟩
    · next r rest hq =>
      refine ⟨h1, h2, h3, ?_, fun hm => ?_⟩
      · rw [hq] at h4
        exact (List.sublist_cons_self r rest).trans h4
      · rw [h5 hm, hm] at hq
        cases hq
  · exact ⟨h1, h2, h3, h4, h5⟩

theorem State.giveFreedTags_edits : s.Edits (s.modMgr l Manager.giveFreedTags) := by
  obtain ⟨hstate, hlaser, -, hsub, hnone⟩ := (s.link l).mgr.giveFreedTags_spec
  refine State.modMgr_edits hstate hlaser (fun h hc => ?_) fun h => ⟨?_, ?_⟩
  · rw [hnone (h.closed hc).2.1]
    exact h.closed hc
  · exact hsub.length_le.trans h.pending.1
  · exact (hsub.filter _).length_le.trans h.pending.2

/-! ## The uplink combiner (chapter 8) -/

theorem RxBlock.take_canonical {b : RxBlock} {f : UplinkFrame} (hb : samplesWf b.samples = true) (hf : samplesWf f.samples = true) :
    samplesWf (b.take f).samples = true := by
  unfold RxBlock.take
  split
  · exact hb
  · split
    · rfl
    · exact hf

theorem RxHistory.take_canonical {h : RxHistory} {f : UplinkFrame} (p : Seq16) (hh : h.Canonical) (hf : samplesWf f.samples = true) :
    (h.take p f).Canonical := by
  unfold RxHistory.take
  split
  · exact ⟨hh.oldest, hh.middle, RxBlock.take_canonical hh.newest hf⟩
  · split
    · exact ⟨hh.oldest, RxBlock.take_canonical hh.middle hf, hh.newest⟩
    · exact hh

variable {s l} in
/-- An edit of the received history alone. -/
theorem State.modRx_edits {f : Link → Option RxHistory} (h : (s.link l).Canonical → ∀ x, f (s.link l) = some x → x.Canonical) :
    s.Edits (s.modLink l (fun x => { x with rx := f x })) :=
  (Edit.link l _ ⟨fun hx => ⟨hx.laser, hx.exchange, hx.closed, hx.pending⟩, fun hx => ⟨hx.now, hx.before, h hx⟩, fun hx => hx⟩
    fun hy => ⟨hy, rfl, fun _ hg => hg⟩).edits

theorem State.takeSamples_edits (f : UplinkFrame) (hf : samplesWf f.samples = true) : s.Edits (s.takeSamples l f) := by
  unfold State.takeSamples
  split
  · refine State.modRx_edits fun hx h e => ?_
    obtain ⟨h0, hr, rfl⟩ := Option.map_eq_some_iff.mp e
    exact RxHistory.take_canonical _ (hx.rx h0 hr) hf
  · exact .refl s

theorem State.createGates_edits (plan : List Entry) : s.Edits (s.createGates l plan) := by
  refine State.Edits.foldl (fun s v => ?_) _ s
  split
  · exact State.modLink_edits rfl
  · exact .refl s

theorem RxHistory.entered_canonical (owed : Bool) : (RxHistory.entered owed).Canonical := by
  cases owed <;> exact ⟨rfl, rfl, rfl⟩

theorem State.openUplink_edits : s.Edits (s.openUplink l) := by
  have hrx : s.Edits (s.modLink l (fun x => { x with rx := some (.entered s.time.blockOwed) })) :=
    State.modRx_edits fun _ h e => by cases e; exact RxHistory.entered_canonical _
  have hgates (t : State) : t.Edits (t.modLink l (fun x => { x with gates := Vector.replicate 24 none })) := State.modLink_edits rfl
  have hboth := hrx.trans (hgates _)
  rw [State.modLink_modLink] at hboth
  exact hboth.trans (State.createGates_edits _ _ _)

theorem State.pruneGates_edits (r : BlockRecord) : s.Edits (s.pruneGates r) := by
  unfold State.pruneGates
  exact .forLinks (fun _ _ => State.modLink_edits (by simp only [Link.core])) s

theorem State.updateGate_edits (v : ServiceIx) (e : Nat) : s.Edits (s.updateGate v l e) := State.modLink_edits rfl

variable {s} in
/-- An edit of a service record beside its state, definition and streams. -/
theorem State.modService_edits {v : ServiceIx} {f : Service → Service}
    (h : (f (s.service v)).state = (s.service v).state ∧ (f (s.service v)).width = (s.service v).width ∧
      (f (s.service v)).areas = (s.service v).areas ∧ (f (s.service v)).ring = (s.service v).ring ∧ (f (s.service v)).cls = (s.service v).cls)
    (hc : (s.service v).Canonical → (f (s.service v)).Canonical) : s.Edits (s.modService v f) := by
  obtain ⟨hstate, hwidth, hareas, hring, hcls⟩ := h
  refine (Edit.service v f ⟨fun he => ⟨hstate ▸ he, ?_, ?_⟩, fun h => hcls ▸ h, hc⟩).edits
  · simp only [Service.stagingDemand, Service.streamCount, hwidth, hareas]
  · simp only [Service.uplinkDemand, hwidth, hring]

theorem State.appendBlock_edits (b : WorkBlock) (hnew : s.combiner.workList.any (fun x => x.service == b.service) = false)
    (hwf : samplesWf b.words = true) : s.Edits (s.appendBlock b) := by
  unfold State.appendBlock
  have hkeeps : s.combiner.Keeps { s.combiner with workList := s.combiner.workList ++ [b] } := by
    refine ⟨fun h => ?_, fun h x hx => ?_⟩
    · rw [List.map_append, List.map_singleton]
      rw [← List.concat_eq_append]
      refine h.concat fun hmem => ?_
      obtain ⟨x, hx, he⟩ := List.mem_map.mp hmem
      simpa [he] using List.any_eq_false.mp hnew x hx
    · obtain hx | hx := List.mem_append.mp hx
      · exact h x hx
      · rw [List.mem_singleton.mp hx]; exact hwf
  exact (s.setCombiner_edits _ hkeeps).trans (State.modService_edits ⟨rfl, rfl, rfl, rfl, rfl⟩ fun h => ⟨h.streams⟩)

/-- R147, R149: the combine point of a service changes gate records, its accounts, and at most joins one block to the work list. -/
theorem State.combineService_edits (r : BlockRecord) (k : Seq16) (v : ServiceIx) : s.Edits (s.combineService r k v) := by
  unfold State.combineService
  dsimp only
  split
  · have hgates := State.Edits.foldl (fun (s' : State) (c : LinkIx × Nat) => s'.updateGate_edits c.1 v
      (blockEnergy (s'.contribution r c.1 c.2 (s'.service v).width) (s'.service v).width))
      ((expectedOf r v).filter (fun c => s.isPresent v c.1)) s
    refine hgates.trans ?_
    split
    · exact State.modService_edits ⟨rfl, rfl, rfl, rfl, rfl⟩ fun h => ⟨h.streams⟩
    · next h => exact State.appendBlock_edits _ _ (Bool.eq_false_iff.mpr h) (samplesWf_buildSamples _ _)
  · exact .refl s

theorem State.combinePoint_edits : s.Edits s.combinePoint := by
  unfold State.combinePoint
  have hservices (r : BlockRecord) : s.Edits (s.forServices (fun s v => s.combineService r (s.time.block - 2) v)) :=
    .forServices (fun s v => s.combineService_edits r _ v) s
  cases s.combiner.prev with
  | none =>
    cases s.combiner.now with
    | none => exact .refl s
    | some n => exact s.pruneGates_edits n
  | some r =>
    cases s.combiner.now with
    | none => exact hservices r
    | some n => exact (hservices r).trans (State.pruneGates_edits _ n)

theorem State.advanceHistories_edits : s.Edits s.advanceHistories := by
  refine State.Edits.forLinks (fun s l => State.modRx_edits fun hx h e => ?_) s
  obtain ⟨h0, hr, rfl⟩ := Option.map_eq_some_iff.mp e
  exact ⟨(hx.rx h0 hr).middle, (hx.rx h0 hr).newest, rfl⟩

theorem State.pushRecord_edits : s.Edits s.pushRecord := s.setCombiner_edits _ ⟨fun h => h, fun h => h⟩

/-- R149: handing a posting over advances the oldest block or takes it from the work list. -/
theorem State.combinerHanded_edits : s.Edits s.combinerHanded := by
  unfold State.combinerHanded
  split
  · exact .refl s
  · next b rest hw =>
    refine s.setCombiner_edits _ ⟨fun h => ?_, fun h x hx => ?_⟩
    · rw [hw] at h
      dsimp only
      split
      · exact h
      · exact (List.nodup_cons.mp h).2
    · rw [hw] at h
      dsimp only at hx
      split at hx
      · obtain rfl | hx := List.mem_cons.mp hx
        · exact h b (List.mem_cons_self ..)
        · exact h x (List.mem_cons_of_mem _ hx)
      · exact h x (List.mem_cons_of_mem _ hx)

theorem State.disableUplink_edits (v : ServiceIx) : s.Edits (s.disableUplink v) := by
  unfold State.disableUplink
  have hkeeps : s.combiner.Keeps (s.combiner.disable v) :=
    ⟨fun h => h.sublist (List.filter_sublist.map _), fun h b hb => h b (List.mem_of_mem_filter hb)⟩
  exact (s.setCombiner_edits _ hkeeps).trans (State.modService_edits ⟨rfl, rfl, rfl, rfl, rfl⟩ fun h => ⟨h.streams⟩)

theorem State.reportUplink_edits (v : ServiceIx) : s.Edits (s.reportUplink v) := by
  have hsums (t : State) : t.Edits (t.modService v (fun x => { x with sums := .zero })) :=
    State.modService_edits ⟨rfl, rfl, rfl, rfl, rfl⟩ fun h => ⟨h.streams⟩
  unfold State.reportUplink
  dsimp only
  split
  · exact (s.notify_edits _).trans (hsums _)
  · exact hsums s

end

end Sys2Proof.Machine
end

section
namespace Sys2Proof.Machine

open Sys2Proof

section
variable (s : State) (l : LinkIx) (z : ZoneIx)

/-! ## Streams and lanes (chapter 4, 7.3) -/

/-- A stream record replaced by one in its form. -/
theorem Service.Canonical.setStream {v : Service} (h : v.Canonical) (n : StreamName) {r : StreamRec} (hr : r.wf) :
    Service.Canonical { v with streams := v.streams.set n (some r) } := by
  refine ⟨fun m x hx => ?_⟩
  rw [PerStream.get_set] at hx
  split at hx
  · cases hx; exact hr
  · exact h.streams m x hx

theorem Service.Canonical.count {v : Service} (h : v.Canonical) (n : StreamName) (c : CounterName) : (v.count n c).Canonical := by
  unfold Service.count
  split
  · refine ⟨fun m x hx => ?_⟩
    simp only [PerStream.get_set] at hx
    split at hx
    · obtain ⟨r, hr, rfl⟩ := Option.map_eq_some_iff.mp hx
      exact h.streams n r hr
    · exact h.streams m x hx
  · exact h

/-- What the operations of streams leave of a service record: its state and definition, and the form of its stores. -/
structure Service.Stays (x y : Service) : Prop where
  state : y.state = x.state
  width : y.width = x.width
  areas : y.areas = x.areas
  ring : y.ring = x.ring
  cls : y.cls = x.cls
  canonical : x.Canonical → y.Canonical

theorem Service.Stays.refl (x : Service) : x.Stays x := ⟨rfl, rfl, rfl, rfl, rfl, id⟩

theorem Service.Stays.trans {x y w : Service} (h : x.Stays y) (k : y.Stays w) : x.Stays w :=
  ⟨k.state.trans h.state, k.width.trans h.width, k.areas.trans h.areas, k.ring.trans h.ring, k.cls.trans h.cls,
    fun hx => k.canonical (h.canonical hx)⟩

theorem Service.Stays.count {x y : Service} (h : x.Stays y) (n : StreamName) (c : CounterName) : x.Stays (y.count n c) := by
  have hc : y.Stays (y.count n c) := by
    refine ⟨?_, ?_, ?_, ?_, ?_, fun hy => hy.count n c⟩ <;> rw [Service.count_frame]
  exact h.trans hc

/-- A stream record replaced by one in its form. -/
theorem Service.stays_setStream {v : Service} (n : StreamName) {r : StreamRec} (hr : v.Canonical → r.wf) :
    v.Stays { v with streams := v.streams.set n (some r) } :=
  ⟨rfl, rfl, rfl, rfl, rfl, fun h => h.setStream n (hr h)⟩

theorem Slot.opened_wf (seq : Seq16) : (Slot.opened seq).wf := rfl

theorem StreamRec.advance_wf {r : StreamRec} (h : r.wf) (b : Seq16) : (r.advance b).wf := by
  refine ⟨h.2.1, Slot.opened_wf _, fun x hx => ?_⟩
  cases hx
  split
  · exact h.1
  · exact samplesWf_nil

theorem Service.launchStream_stays (v : Service) (b : Seq16) (n : StreamName) : v.Stays (v.launchStream b n) := by
  unfold Service.launchStream
  split
  · exact .refl v
  · next r hr =>
    have hnew {x : StreamRec} (h1 : x.open1 = (r.advance b).open1) (h2 : x.open2 = (r.advance b).open2)
        (h3 : x.launch = (r.advance b).launch) : v.Stays { v with streams := v.streams.set n (some x) } := by
      refine Service.stays_setStream n fun h => ?_
      have hwf := StreamRec.advance_wf (h.streams n r hr) b
      unfold StreamRec.wf at hwf ⊢
      rwa [h1, h2, h3]
    dsimp only
    split
    · split
      · exact hnew rfl rfl rfl
      · refine Service.Stays.count ?_ n .underrun
        exact hnew rfl rfl rfl
    · split
      · exact hnew rfl rfl rfl
      · split
        · exact hnew rfl rfl rfl
        · refine Service.Stays.count ?_ n .underrun
          exact hnew rfl rfl rfl

theorem Service.launchAll_stays (v : Service) (b : Seq16) : v.Stays (v.launchAll b) := by
  unfold Service.launchAll
  split
  · exact foldl_induct (fun w : Service => v.Stays w) _ (fun w n h => h.trans (w.launchStream_stays b n)) _ v (.refl v)
  · exact .refl v

variable {s} in
theorem State.modService_edits_of_stays {v : ServiceIx} {f : Service → Service} (h : (s.service v).Stays (f (s.service v))) :
    s.Edits (s.modService v f) :=
  State.modService_edits ⟨h.state, h.width, h.areas, h.ring, h.cls⟩ h.canonical

theorem State.launchStreams_edits : s.Edits s.launchStreams := by
  unfold State.launchStreams
  exact .forServices (fun s v => State.modService_edits_of_stays ((s.service v).launchAll_stays _)) s

theorem Slot.capture_wf {x : Slot} (h : x.wf) (n : Nat) (w : BusWord) : (x.capture n w).wf := samplesWf_setSample h n _

theorem Service.takeSample_stays (v : Service) (n : StreamName) (blocks i word : Nat) (w : BusWord) :
    v.Stays (v.takeSample n blocks i word w) := by
  unfold Service.takeSample
  split
  · exact .refl v
  · next r hr =>
    dsimp only
    split
    · exact Service.stays_setStream n fun h => ⟨Slot.capture_wf (h.streams n r hr).1 _ _, (h.streams n r hr).2⟩
    · split
      · exact Service.stays_setStream n fun h =>
          ⟨(h.streams n r hr).1, Slot.capture_wf (h.streams n r hr).2.1 _ _, (h.streams n r hr).2.2⟩
      · split
        · exact (Service.Stays.refl v).count n .lateWrite
        · exact .refl v

/-- R74: a commit word marks a slot or counts. -/
theorem Service.takeCommit_stays (v : Service) (n : StreamName) (b : Seq16) (blocks i : Nat) (seq : Seq16) :
    v.Stays (v.takeCommit n b blocks i seq) := by
  have hcount := (Service.Stays.refl v).count n
  cases hr : v.streams.get n with
  | none =>
    rw [Service.takeCommit, hr]
    exact .refl v
  | some r =>
    obtain hd | hd | hd | ⟨hlo, hhi⟩ : (seq - b).toNat = 1 ∨ (seq - b).toNat = 2 ∨
        ((seq - b).toNat = 0 ∨ 32768 ≤ (seq - b).toNat) ∨ (3 ≤ (seq - b).toNat ∧ (seq - b).toNat < 32768) := by omega
    · rw [Service.takeCommit_ahead_one hr blocks i hd]
      split
      · exact hcount _
      · split
        · exact Service.stays_setStream n fun h => h.streams n r hr
        · exact hcount _
    · rw [Service.takeCommit_ahead_two hr blocks i hd]
      split
      · exact hcount _
      · split
        · exact Service.stays_setStream n fun h => h.streams n r hr
        · exact hcount _
    · rw [Service.takeCommit_stale hr blocks i hd]
      exact hcount _
    · rw [Service.takeCommit_early hr blocks i hlo hhi]
      exact hcount _

theorem Service.takeWord_stays (v : Service) (n : StreamName) (b : Seq16) (addr : Nat) (w : BusWord) :
    v.Stays (v.takeWord n b addr w) := by
  unfold Service.takeWord
  split
  · exact .refl v
  · dsimp only
    split
    · split
      · exact Service.takeCommit_stays ..
      · exact .refl v
    · split
      · exact .refl v
      · exact Service.takeSample_stays ..

theorem State.reportStreams_edits (v : ServiceIx) : s.Edits (s.reportStreams v) := by
  have hreport (t : State) (r : PerStream (Option StreamReport)) :
      t.Edits ((t.notify (.stream v true r)).modService v (fun x => { x with report := none })) :=
    (t.notify_edits _).trans (State.modService_edits ⟨rfl, rfl, rfl, rfl, rfl⟩ fun h => ⟨h.streams⟩)
  have hstreams (t : State) (r : PerStream (Option StreamReport)) : t.Edits ((t.notify (.stream v false r)).modService v (fun x =>
      { x with streams := { normal := x.streams.normal.map StreamRec.reported, a := x.streams.a.map StreamRec.reported,
                            b := x.streams.b.map StreamRec.reported } })) := by
    refine (t.notify_edits _).trans (State.modService_edits ⟨rfl, rfl, rfl, rfl, rfl⟩ fun h => ⟨fun n x hx => ?_⟩)
    have hx : (((t.notify (.stream v false r)).service v).streams.get n).map StreamRec.reported = some x := by
      cases n <;> exact hx
    obtain ⟨x0, h0, rfl⟩ := Option.map_eq_some_iff.mp hx
    exact h.streams n x0 h0
  unfold State.reportStreams
  cases (s.service v).report with
  | none =>
    dsimp only
    split
    · exact hstreams _ _
    · exact .refl s
  | some r =>
    dsimp only
    split
    · exact (hreport s r).trans (hstreams _ _)
    · exact hreport s r

theorem State.selectZone_edits : s.Edits (s.selectZone z) := by
  unfold State.selectZone
  exact (State.Edit.zone z _ fun h => ⟨h.1, h.2⟩).edits

theorem State.selectAll_edits : s.Edits s.selectAll := by
  unfold State.selectAll
  exact .forZones State.selectZone_edits s

theorem samplesWf_zoneLanes : samplesWf (s.zoneLanes z) = true := by
  unfold State.zoneLanes
  refine foldl_induct (fun x => samplesWf x = true) _ (fun acc e hacc => ?_) _ [] rfl
  exact foldl_induct (fun x => samplesWf x = true) _ (fun x n hx => samplesWf_setSample hx _ _) _ acc hacc

theorem samplesWf_enteredLanes : samplesWf (s.enteredLanes l) = true := by
  unfold State.enteredLanes
  split
  · exact samplesWf_zoneLanes s _
  · rfl

theorem samplesFrom_filter {lo : Nat} {x : Samples} (p : Nat × Word → Bool) (h : samplesFrom lo x = true) :
    samplesFrom lo (x.filter p) = true := by
  induction x generalizing lo with
  | nil => rfl
  | cons e rest ih =>
    obtain ⟨k, v⟩ := e
    simp only [samplesFrom, Bool.and_eq_true, decide_eq_true_eq] at h
    obtain ⟨⟨hk, hv⟩, hrest⟩ := h
    rw [List.filter_cons]
    split
    · simp only [samplesFrom, Bool.and_eq_true, decide_eq_true_eq]
      exact ⟨⟨hk, hv⟩, ih hrest⟩
    · exact samplesFrom_mono (ih hrest) (by omega)

/-- R18, R19: requests sent keep their tags; nothing else of the manager changes. -/
theorem Manager.markSent_spec (m : Manager) (b : Seq16) (msgs : List DownMsg) :
    m.markSent b msgs = { m with outstanding := (m.markSent b msgs).outstanding } ∧
    ∀ g : Tag, m.outstanding[g] = none → (m.markSent b msgs).outstanding[g] = none := by
  unfold Manager.markSent
  refine foldl_induct (fun m' : Manager => m' = { m with outstanding := m'.outstanding } ∧
    ∀ g : Tag, m.outstanding[g] = none → m'.outstanding[g] = none) _ ?_ _ m ⟨rfl, fun _ h => h⟩
  rintro m' x ⟨hm, hg⟩
  split
  · refine ⟨by rw [hm], fun g h => ?_⟩
    have h0 := hg g h
    simp only [Fin.getElem_fin, Vector.getElem_set]
    split
    · next t _ he =>
      have : t = g := Fin.ext he
      subst this
      simp only [Fin.getElem_fin] at h0
      simp [h0]
    · exact h0
  · exact ⟨hm, hg⟩

theorem State.startFrame_edits : s.Edits (s.startFrame l) := by
  obtain ⟨hsent, hout⟩ := (s.link l).mgr.markSent_spec s.time.block
    (if (s.link l).mgr.state.controlOpen then (s.link l).mgr.leaving else [])
  unfold State.startFrame
  refine (State.Edit.link l _ ⟨fun h => ⟨?_, ?_, ?_, ?_⟩, fun h => ⟨?_, ?_, ?_⟩, fun h => ?_⟩ fun h => ⟨?_, ?_, fun g hg => ?_⟩).edits
  · dsimp only; rw [hsent]; exact h.laser
  · dsimp only; rw [hsent]; exact h.exchange
  · dsimp only
    intro hc
    have hc : (s.link l).mgr.state.controlOpen = false := by rw [hsent] at hc; exact hc
    obtain ⟨h1, h2, h3, h4⟩ := h.closed hc
    exact ⟨fun g => hout g (h1 g), by rw [hsent]; exact h2, by rw [hsent]; exact h3, rfl⟩
  · dsimp only; rw [hsent]; exact h.pending
  · exact samplesWf_enteredLanes s l
  · exact samplesFrom_filter _ h.now
  · exact h.rx
  · exact h
  · dsimp only at h; rw [hsent] at h; exact h
  · rfl
  · obtain ⟨t, h1, h2⟩ := hg
    refine ⟨t, h1, ?_⟩
    simp only [apply_ite Ranging.path, ite_self]
    exact h2

/-- Log 20: a link brought to its new state takes lanes in their form. -/
theorem State.regovern_edits : s.Edits (s.regovern l) := by
  unfold State.regovern
  split
  · exact .refl s
  · extract_lets x t
    have hlink : s.Edits t := (State.Edit.link l _ ⟨fun h => ⟨h.laser, h.exchange, h.closed, h.pending⟩,
      fun h => ⟨samplesWf_enteredLanes s l, h.before, h.rx⟩, id⟩ fun h => ⟨h, rfl, fun _ => id⟩).edits
    exact hlink.trans (t.setCombiner_edits _ ⟨id, id⟩)

/-! ## Link states (1.2) -/

variable {s l} in
/-- R13, R14: a teardown closes the control channel. -/
theorem State.torn_edits {new : LinkState} (hnew : new = .dark ∨ new = .fault) : s.Edits (s.torn l new) := by
  refine (State.Edit.link l _ ⟨fun _ => ⟨rfl, fun h => by simp at h, fun _ => ⟨fun g => ?_, rfl, rfl, rfl⟩, by simp⟩,
    fun h => ⟨h.now, h.before, fun h0 e => by cases e⟩, fun _ => ⟨by simp, by simp⟩⟩ fun h => ?_).edits
  · simp
  · obtain rfl | rfl := hnew <;> cases h

variable {s l} in
theorem State.takeDown_edits {new : LinkState} (hnew : new = .dark ∨ new = .fault) (cause : LinkCause) :
    s.Edits (s.takeDown l new cause) := by
  have hdown := (State.torn_edits (s := s) (l := l) hnew).trans (State.plusNotices_edits _
    (.linkState l (s.link l).mgr.state new cause (s.link l).mgr.wires none :: queryDones l .linkDown (s.link l).mgr.heldRequests))
  rw [State.takeDown_eq]
  dsimp only
  split
  · exact hdown.trans (State.Edit.reEvaluate _ _ _).edits
  · exact hdown

theorem State.fault_edits (c : FaultCause) : s.Edits (s.fault l c) := State.takeDown_edits (.inr rfl) _

variable {s l} in
/-- R9, R47: a link that has entered ACTIVE is a member, and its group is re-evaluated with it. -/
theorem State.enterActive_edits (hstate : (s.link l).mgr.state = .joining) : s.Edits (s.enterActive l) := by
  unfold State.enterActive State.joinGroup
  extract_lets s1 s2
  have hin : s1.Edits (s2.reEvaluate (s2.link l).settings.group (.joined l) []) := by
    have hgroup : (s2.link l).settings.group = (s1.link l).settings.group := by simp [s2]
    rw [hgroup]
    refine (State.Edit.regroup l _ _ ⟨fun h => ⟨?_, by simp, by simp [LinkState.controlOpen], h.pending⟩,
      fun h => ⟨h.now, h.before, h.rx⟩, id⟩ rfl).edits
    have hlaser := h.laser
    rw [State.notify_link, hstate] at hlaser
    exact hlaser
  have hk (t : State) : t.Edits (t.modAlign l (fun a => { a with k := a.kStar, slewing := false })) := by
    refine (State.Edit.link l _ ⟨fun h => ⟨h.laser, h.exchange, h.closed, h.pending⟩, fun h => ⟨h.now, h.before, h.rx⟩,
      fun h => ⟨h.2, h.2⟩⟩ fun h => ⟨h, rfl, fun g hg => ?_⟩).edits
    obtain ⟨t0, htarget, hpath, hhold, hstar, hreach, -⟩ := hg
    exact ⟨t0, htarget, hpath, hhold, hstar, hreach, by simp⟩
  exact (s.notify_edits _).trans (hin.trans ((hk _).trans (State.openUplink_edits _ l)))

variable {s l} in
/-- R10, R48: a departure from ACTIVE into JOINING or QUIESCING. -/
theorem State.leaveActive_edits {new : LinkState} (hactive : (s.link l).mgr.state = .active) (hnew : new = .joining ∨ new = .quiescing)
    (cause : LinkCause) : s.Edits (s.leaveActive l new cause) := by
  have hopen : new.controlOpen = true := by obtain rfl | rfl := hnew <;> rfl
  have hgone : s.Edits (s.departed l new) := by
    refine (State.Edit.link l _ ⟨fun h => ⟨?_, by simp, fun hc => ?_, h.pending⟩, fun h => ⟨h.now, h.before, fun _ e => by cases e⟩,
      fun h => ⟨h.1, h.1⟩⟩ fun h => ?_).edits
    · have hlaser := h.laser
      rw [hactive] at hlaser
      obtain rfl | rfl := hnew <;> exact hlaser
    · exact absurd (hopen.symm.trans hc) (by decide)
    · obtain rfl | rfl := hnew <;> cases h
  rw [State.leaveActive_eq]
  extract_lets x gone
  refine State.Edits.trans (t := gone) ?_ ((State.plusNotices_edits _ _).trans (State.Edit.reEvaluate _ _ _).edits)
  unfold gone
  split
  · refine hgone.trans (State.modMgr_edits rfl rfl (fun _ hc => ?_) fun _ => by simp)
    rw [State.departed, State.modLink_link_same] at hc
    exact absurd (hopen.symm.trans hc) (by decide)
  · exact hgone

end

end Sys2Proof.Machine
end

section
/-! A re-evaluation of a group (R49 to R55): what it makes of the group and of every link, and that it is the one the statements spell out. -/

namespace Sys2Proof.Machine

open Sys2Proof

/-! ## Passes over links -/

/-- A change of a record depends on what it makes of that record alone. -/
theorem State.modLink_congr {s : State} {l : LinkIx} {f f' : Link → Link} (h : f (s.link l) = f' (s.link l)) :
    s.modLink l f = s.modLink l f' := by
  simp only [State.modLink]
  rw [show f s.links[l] = f' s.links[l] from h]

/-- Changes of different links' records, one after another. -/
theorem State.foldl_modLink_link (F : LinkIx → Link → Link) {xs : List LinkIx} (hxs : xs.Nodup) (s : State) (l : LinkIx) :
    (xs.foldl (fun s x => s.modLink x (F x)) s).link l = if l ∈ xs then F l (s.link l) else s.link l := by
  induction xs generalizing s with
  | nil => simp
  | cons x rest ih =>
    obtain ⟨hx, hrest⟩ := List.nodup_cons.mp hxs
    rw [List.foldl_cons, ih hrest, State.modLink_link_eq]
    by_cases h : x = l
    · subst h; simp [hx]
    · simp [h, Ne.symm h]

theorem State.foldl_modLink_eq (F : LinkIx → Link → Link) (xs : List LinkIx) (s : State) :
    xs.foldl (fun s x => s.modLink x (F x)) s = { s with links := (xs.foldl (fun s x => s.modLink x (F x)) s).links } :=
  foldl_induct (fun t => t = { s with links := t.links }) _ (fun t x ht => by rw [ht]; rfl) xs s rfl

theorem allLinks_nodup : allLinks.Nodup := by decide
theorem mem_allLinks (l : LinkIx) : l ∈ allLinks := by revert l; decide

section
variable (s : State) (g : GroupIx)

theorem State.mem_members (l : LinkIx) : l ∈ s.members g ↔ (s.link l).mgr.state = .active ∧ (s.link l).settings.group = g := by
  simp [State.members, State.isMember, mem_allLinks]

theorem State.members_nodup : (s.members g).Nodup := allLinks_nodup.filter _

/-- R53: a member's alignment fields against a target. -/
def Link.towards (x : Link) (t : Nat) : Link := { x with align := x.align.towards t x.rng.path }

theorem State.computeKStar_of_some {t : Nat} (h : (s.group g).target = some t) :
    s.computeKStar g = (s.members g).foldl (fun s l => s.modLink l (fun x => x.towards t)) s := by
  unfold State.computeKStar
  rw [h]
  rfl

/-- R49 step 5, R53: K* of every member, and nothing else, follows the target that stands. -/
theorem State.computeKStar_link (l : LinkIx) : (s.computeKStar g).link l =
    match (s.group g).target with
    | some t => if l ∈ s.members g then (s.link l).towards t else s.link l
    | none => s.link l := by
  cases h : (s.group g).target with
  | none => simp [State.computeKStar, h]
  | some t => rw [s.computeKStar_of_some g h, State.foldl_modLink_link _ (s.members_nodup g)]

theorem State.computeKStar_eq : s.computeKStar g = { s with links := (s.computeKStar g).links } := by
  cases h : (s.group g).target with
  | none => simp [State.computeKStar, h]
  | some t => rw [s.computeKStar_of_some g h]; exact State.foldl_modLink_eq _ _ s

/-! ## The longest path -/

/-- The running maximum of R49 step 2. -/
theorem State.longestPath_foldl (ls : List LinkIx) (p : Nat) :
    ∃ q, ls.foldl (fun acc l => match acc with
      | none => some (s.link l).rng.path
      | some p => some (max p (s.link l).rng.path)) (some p) = some q ∧ p ≤ q ∧ (∀ l ∈ ls, (s.link l).rng.path ≤ q) ∧
        (q = p ∨ ∃ l ∈ ls, (s.link l).rng.path = q) := by
  induction ls generalizing p with
  | nil => exact ⟨p, rfl, le_rfl, by simp, .inl rfl⟩
  | cons x rest ih =>
    obtain ⟨q, hq, hle, hall, hone⟩ := ih (max p (s.link x).rng.path)
    refine ⟨q, hq, by omega, fun l hl => ?_, ?_⟩
    · obtain rfl | hl := List.mem_cons.mp hl
      · omega
      · exact hall l hl
    · obtain h | ⟨l, hl, h⟩ := hone
      · by_cases hp : p < (s.link x).rng.path
        · exact .inr ⟨x, List.mem_cons_self .., by omega⟩
        · exact .inl (by omega)
      · exact .inr ⟨l, List.mem_cons_of_mem _ hl, h⟩

/-- R49 step 2: none where there is no link, else the largest path among the links. -/
theorem State.longestPath_cases (ls : List LinkIx) :
    (ls = [] ∧ s.longestPath ls = none) ∨
      ∃ m ∈ ls, s.longestPath ls = some (s.link m).rng.path ∧ ∀ l ∈ ls, (s.link l).rng.path ≤ (s.link m).rng.path := by
  cases ls with
  | nil => exact .inl ⟨rfl, rfl⟩
  | cons x rest =>
    obtain ⟨q, hq, hle, hall, hone⟩ := s.longestPath_foldl rest (s.link x).rng.path
    obtain ⟨m, hm, rfl⟩ : ∃ m ∈ x :: rest, (s.link m).rng.path = q := by
      obtain rfl | ⟨l, hl, h⟩ := hone
      · exact ⟨x, List.mem_cons_self .., rfl⟩
      · exact ⟨l, List.mem_cons_of_mem _ hl, h⟩
    refine .inr ⟨m, hm, hq, fun l hl => ?_⟩
    obtain rfl | hl := List.mem_cons.mp hl
    · exact hle
    · exact hall l hl

/-! ## The re-evaluation -/

/-- R49, R50: the group a re-evaluation makes. -/
abbrev State.reEvaluatedGroup : Group := (s.group g).reEvaluated (s.longestPath (s.members g))

/-- The state of a re-evaluation before its ALIGN. -/
def State.realigned : State := (s.modGroup g (fun _ => s.reEvaluatedGroup g)).computeKStar g

theorem State.realigned_eq : s.realigned g =
    { s with links := (s.realigned g).links, groups := (s.modGroup g (fun _ => s.reEvaluatedGroup g)).groups } := by
  unfold State.realigned
  rw [State.computeKStar_eq]
  rfl

theorem State.realigned_link (l : LinkIx) : (s.realigned g).link l =
    match (s.reEvaluatedGroup g).target with
    | some t => if l ∈ s.members g then (s.link l).towards t else s.link l
    | none => s.link l := by
  have hmembers : (s.modGroup g (fun _ => s.reEvaluatedGroup g)).members g = s.members g := rfl
  unfold State.realigned
  rw [State.computeKStar_link, State.modGroup_group_same, hmembers]
  rfl

theorem State.realigned_group (g' : GroupIx) : (s.realigned g).group g' = if g = g' then s.reEvaluatedGroup g else s.group g' := by
  rw [State.realigned_eq]
  exact s.modGroup_group_eq g g' (fun _ => s.reEvaluatedGroup g)

/-- A link that is no member stands. -/
theorem State.realigned_link_of_not_mem {l : LinkIx} (h : l ∉ s.members g) : (s.realigned g).link l = s.link l := by
  rw [State.realigned_link]
  split
  · rw [if_neg h]
  · rfl

variable (cause : AlignCause) (cleared : List (LinkIx × Bool))

/-- R52: the flags a re-evaluation reports. -/
def State.alignFlags : List (LinkIx × Bool) := cleared ++ flagChanges s (s.realigned g) (s.members g)

theorem State.reEvaluate_eq : s.reEvaluate g cause cleared =
    if alignPosts (s.group g) (s.reEvaluatedGroup g) (s.alignFlags g cleared) then (s.realigned g).notify
      (.align g cause (s.group g).target (s.reEvaluatedGroup g).target (s.reEvaluatedGroup g).hold (s.alignFlags g cleared))
    else s.realigned g := rfl

theorem State.reEvaluate_link (l : LinkIx) : (s.reEvaluate g cause cleared).link l = (s.realigned g).link l := by
  rw [State.reEvaluate_eq]; split <;> rfl
theorem State.reEvaluate_group (g' : GroupIx) : (s.reEvaluate g cause cleared).group g' = (s.realigned g).group g' := by
  rw [State.reEvaluate_eq]; split <;> rfl

/-- R49, R52: a re-evaluation changes links, the group and the notices alone. -/
theorem State.reEvaluate_frame : s.reEvaluate g cause cleared =
    { s with links := (s.reEvaluate g cause cleared).links, groups := (s.reEvaluate g cause cleared).groups
             notices := (s.reEvaluate g cause cleared).notices } := by
  have h : s.realigned g = { s with links := (s.realigned g).links, groups := (s.realigned g).groups } := by
    conv_lhs => rw [State.realigned_eq]
    rw [State.realigned_eq]
  rw [State.reEvaluate_eq]
  split
  · rw [h]; rfl
  · rw [h]

/-- Beside its alignment fields a re-evaluation leaves every link. -/
theorem State.reEvaluate_link_frame (l : LinkIx) : (s.reEvaluate g cause cleared).link l =
    { s.link l with align := ((s.reEvaluate g cause cleared).link l).align } := by
  rw [State.reEvaluate_link, State.realigned_link]
  split
  · split <;> rfl
  · rfl

theorem Group.reEvaluated_frame (x : Group) (p : Option Nat) :
    (x.reEvaluated p).guard = x.guard ∧ (x.reEvaluated p).slew = x.slew ∧ (x.reEvaluated p).counted = x.counted := by
  unfold Group.reEvaluated
  split
  · exact ⟨rfl, rfl, rfl⟩
  · split
    · exact ⟨rfl, rfl, rfl⟩
    · split <;> exact ⟨rfl, rfl, rfl⟩

/-- R49 step 4: with members there is a target, not before the longest path and the guard, and a hold's candidate is that. -/
theorem Group.reEvaluated_some (x : Group) (p : Nat) : ∃ t, (x.reEvaluated (some p)).target = some t ∧ p + x.guard ≤ t ∧
    ∀ h, (x.reEvaluated (some p)).hold = some h → h.candidate = p + x.guard := by
  unfold Group.reEvaluated
  cases ht : x.target with
  | none => exact ⟨_, rfl, le_rfl, fun h hh => by simp at hh⟩
  | some t =>
    dsimp only
    split
    · exact ⟨_, rfl, le_rfl, fun h hh => by simp at hh⟩
    · next h => exact ⟨t, rfl, by omega, fun h hh => by cases hh; rfl⟩

/-- R53, R55: the alignment fields of a member. -/
theorem Link.towards_eq (x : Link) (t : Nat) : x.towards t = { x with align :=
    { k := x.align.k, kStar := min 16383 (t - x.rng.path), slewing := x.align.k != min 16383 (t - x.rng.path)
      outOfReach := decide (16383 < t - x.rng.path) } } := by
  have hmin : (if t - x.rng.path ≤ 16383 then t - x.rng.path else 16383) = min 16383 (t - x.rng.path) := by split <;> omega
  simp only [Link.towards, Align.towards, hmin, Nat.not_le]

theorem mem_flagChanges (s t : State) (ls : List LinkIx) (l : LinkIx) (on : Bool) : (l, on) ∈ flagChanges s t ls ↔
    l ∈ ls ∧ (t.link l).align.outOfReach = on ∧ (s.link l).align.outOfReach ≠ on := by
  simp only [flagChanges, List.mem_map, List.mem_filter, bne_iff_ne, Prod.mk.injEq]
  constructor
  · rintro ⟨l', ⟨hl, hne⟩, rfl, rfl⟩
    exact ⟨hl, rfl, hne⟩
  · rintro ⟨hl, rfl, hne⟩
    exact ⟨l, ⟨hl, hne⟩, rfl, rfl⟩

theorem alignPosts_iff (x y : Group) (flags : List (LinkIx × Bool)) : alignPosts x y flags = true ↔
    y.target ≠ x.target ∨ y.hold.isSome ≠ x.hold.isSome ∨ flags ≠ [] := by
  simp only [alignPosts, Bool.or_eq_true, bne_iff_ne, Bool.not_eq_true', List.isEmpty_eq_false_iff, or_assoc]
  exact or_congr ne_comm (or_congr ne_comm Iff.rfl)

/-- R49, R50: what the statements say of the group is what the operation makes of it. -/
theorem Group.reEvaluated_spec (x : Group) (p : Nat) :
    ((x.target = none ∨ ∃ t0, x.target = some t0 ∧ t0 ≤ p + x.guard) →
      (x.reEvaluated (some p)).target = some (p + x.guard) ∧ (x.reEvaluated (some p)).hold = none) ∧
    (∀ t0, x.target = some t0 → p + x.guard < t0 → (x.reEvaluated (some p)).target = some t0 ∧
      (x.reEvaluated (some p)).hold = some { candidate := p + x.guard, count := match x.hold with
        | none => 0
        | some h => h.count }) := by
  unfold Group.reEvaluated
  cases ht : x.target with
  | none => simp
  | some t =>
    dsimp only
    split
    · next h => exact ⟨fun _ => ⟨rfl, rfl⟩, fun t0 e hlt => by cases e; omega⟩
    · next h =>
      refine ⟨fun hor => ?_, fun t0 e _ => by cases e; exact ⟨rfl, rfl⟩⟩
      obtain e | ⟨t0, e, hle⟩ := hor
      · cases e
      · cases e; exact absurd hle h

/-- R49 to R55: a re-evaluation is the one the statements spell out, of a state whose group may just have been given other settings. -/
theorem State.reEvaluate_reEvaluated (s : State) (g : GroupIx) (cause : AlignCause) (cleared : List (LinkIx × Bool)) :
    s.reEvaluated (s.reEvaluate g cause cleared) g (s.group g) cause cleared := by
  have hgroup : (s.reEvaluate g cause cleared).group g = s.reEvaluatedGroup g := by
    rw [State.reEvaluate_group, State.realigned_group, if_pos rfl]
  have hlink (l : LinkIx) := (s.reEvaluate_link g cause cleared l).trans (s.realigned_link g l)
  have hrest := s.reEvaluate_frame g cause cleared
  refine ⟨?_, ?_, ?_, ?_, ?_, ?_, ?_, ?_⟩
  · rw [hgroup]; exact Group.reEvaluated_frame _ _
  · intro hnone
    have hempty : s.members g = [] := List.eq_nil_iff_forall_not_mem.mpr fun l hl => hnone l ((s.mem_members g l).mp hl)
    rw [hgroup, State.reEvaluatedGroup, hempty]
    exact ⟨rfl, rfl⟩
  · intro m hm hmax
    obtain ⟨hempty, -⟩ | ⟨m', hm', hlong, hmax'⟩ := s.longestPath_cases (s.members g)
    · have := (s.mem_members g m).mpr hm
      rw [hempty] at this
      cases this
    · have hpath : (s.link m').rng.path = (s.link m).rng.path :=
        le_antisymm (hmax m' ((s.mem_members g m').mp hm')) (hmax' m ((s.mem_members g m).mpr hm))
      rw [hgroup, State.reEvaluatedGroup, hlong, hpath]
      exact Group.reEvaluated_spec _ _
  · intro l t0 hl ht
    rw [hgroup] at ht
    rw [hlink, ht]
    dsimp only
    rw [if_pos ((s.mem_members g l).mpr hl), Link.towards_eq]
  · intro l hl
    rw [s.reEvaluate_link, s.realigned_link_of_not_mem g fun h => hl ((s.mem_members g l).mp h)]
  · intro g' hg
    rw [State.reEvaluate_group, State.realigned_group, if_neg (Ne.symm hg)]
  · refine ⟨s.alignFlags g cleared, fun l on => ?_, ?_, ?_⟩
    · rw [State.alignFlags, List.mem_append, mem_flagChanges, s.reEvaluate_link]
      refine or_congr_right ⟨fun h => h.2, fun h => ⟨?_, h⟩⟩
      by_contra hl
      obtain ⟨h1, h2⟩ := h
      rw [s.realigned_link_of_not_mem g hl] at h1
      exact h2 h1
    · intro h
      rw [hgroup] at h ⊢
      rw [State.reEvaluate_eq, if_pos ((alignPosts_iff _ _ _).mpr h), State.realigned_eq]
      rfl
    · intro h1 h2 h3
      have hposts : ¬ alignPosts (s.group g) (s.reEvaluatedGroup g) (s.alignFlags g cleared) = true := by
        rw [alignPosts_iff, ← hgroup]
        simp [h1, h2, h3]
      rw [State.reEvaluate_eq, if_neg hposts, State.realigned_eq]
  · rw [hrest]
    exact ⟨rfl, rfl, rfl, rfl, rfl, rfl, rfl, rfl, rfl, rfl⟩

end

end Sys2Proof.Machine
end

section
/-! Chains of edits, continued: the allocator, ranging, the link manager, break-in, zones and services. -/

namespace Sys2Proof.Machine

open Sys2Proof

/-! ## Placement (R86, R87) -/

/-- R86 step 2: the services a walk takes fit the lanes it had. -/
theorem walk_width_le (w : ServiceIx → Nat) (free : Nat) (vs : List ServiceIx) :
    ((walk free (vs.map (fun v => (v, w v)))).map w).sum ≤ free := by
  induction vs generalizing free with
  | nil => simp [walk]
  | cons v rest ih =>
    rw [List.map_cons, walk]
    split
    · have := ih (free - w v)
      rw [List.map_cons, List.sum_cons]
      omega
    · exact ih free

/-- R87: services packed from a lane fit where their widths do. -/
theorem planFits_placeFrom (first : Nat) (xs : List (ServiceIx × Nat)) (h : first + (xs.map Prod.snd).sum ≤ 32) :
    planFits first (placeFrom first xs) := by
  induction xs generalizing first with
  | nil => simpa [placeFrom, planFits] using h
  | cons x rest ih =>
    obtain ⟨v, w⟩ := x
    simp only [List.map_cons, List.sum_cons] at h
    exact ⟨le_rfl, ih (first + w) (by omega)⟩

theorem allServices_nodup : allServices.Nodup := by decide

section
variable (s : State) (l : LinkIx) (z : ZoneIx)

/-- R86: the carried set's widths fit the 32 lanes. -/
theorem State.carriedSet_width_le : ((s.carriedSet z).map (fun v => (s.service v).width)).sum ≤ 32 := by
  have hnodup : (s.carriedSet z).Nodup := (allServices_nodup.filter _).filter _
  have hsub : s.carriedSet z ⊆ s.admitted z := fun v hv => by simpa using (List.mem_filter.mp hv).2
  obtain ⟨vs, hperm, hvs⟩ := List.subperm_of_subset hnodup hsub
  calc ((s.carriedSet z).map (fun v => (s.service v).width)).sum = (vs.map (fun v => (s.service v).width)).sum :=
        ((hperm.map _).sum_eq).symm
    _ ≤ ((s.admitted z).map (fun v => (s.service v).width)).sum := (hvs.map _).sum_le_sum (by simp)
    _ ≤ 32 := walk_width_le _ 32 _

theorem State.newPlan_fits : planFits 0 (s.newPlan z).entries := by
  refine planFits_placeFrom 0 _ ?_
  have h := s.carriedSet_width_le z
  rw [List.map_map]
  simpa [Function.comp_def] using h

/-! ## The allocator (chapter 5) -/

variable {s l} in
/-- R91, R92: a PLAN issued for a link in JOINING or ACTIVE. -/
theorem State.issuePlan_edits {x : Exchange} {plan : List Entry}
    (h : (s.link l).Legal → (s.link l).mgr.state = .joining ∨ (s.link l).mgr.state = .active) : s.Edits (s.issuePlan l x plan) := by
  unfold State.issuePlan
  extract_lets serial t
  have hopened : s.Edits t := (State.Edit.link l _ ⟨fun hx => ⟨hx.laser, fun _ => h hx, hx.closed, hx.pending⟩,
    fun hx => ⟨hx.now, hx.before, hx.rx⟩, id⟩ fun hy => ⟨hy, rfl, fun _ => id⟩).edits
  refine hopened.trans (State.issueRequest_edits (fun hx => ?_) (by simp [Request.isPlan]))
  exact LinkState.controlOpen_of_planned (hx.exchange (by simp [t]))

variable {s l} in
theorem State.issueJoin_edits {n : Nat} (h : (s.link l).Legal → (s.link l).mgr.state = .joining ∨ (s.link l).mgr.state = .active) :
    s.Edits (s.issueJoin l n) := State.issuePlan_edits h

theorem State.openExchanges_edits (p : StagedPlan) : s.Edits (s.openExchanges z p) := by
  unfold State.openExchanges
  refine .forLinks (fun s l => ?_) s
  split
  · split
    · next hstate => exact State.issuePlan_edits fun _ => .inr hstate
    · next hstate => exact State.issuePlan_edits fun _ => .inl hstate
    · exact .refl s
  · exact .refl s

/-- R87, R89: a replan stages a plan that fits its lanes, or none. -/
theorem State.replan_edits : s.Edits (s.replan z) := by
  obtain ⟨-, h⟩ | ⟨-, -, h⟩ | ⟨-, -, h⟩ := s.replan_cases z <;> rw [h]
  · exact (State.Edit.zone z _ fun h => ⟨h.1, h.2⟩).edits
  · exact (State.Edit.zone z _ fun h => ⟨h.1, fun p e => by cases e; exact s.newPlan_fits z⟩).edits.trans
      (State.openExchanges_edits _ _ _)

theorem State.replanAll_edits (zs : List ZoneIx) : s.Edits (s.replanAll zs) := .foldl State.replan_edits zs s

variable {s l} in
theorem Link.Legal.planned {x : Link} {e : Exchange} (h : x.exchange = some e) (hx : x.Legal) :
    x.mgr.state = .joining ∨ x.mgr.state = .active := hx.exchange (by simp [h])

variable {s l} in
theorem State.countAttempt_edits {x e : Exchange} (h : (s.link l).exchange = some e) : s.Edits (s.countAttempt l x) := by
  unfold State.countAttempt
  split
  · exact s.fault_edits l _
  · exact State.setExchange_edits fun _ => Link.Legal.planned h

theorem State.planCompleted_edits (n : Nat) (r : PlanReport) : s.Edits (s.planCompleted l n r) := by
  unfold State.planCompleted
  split
  · exact .refl s
  · next x hx =>
    split
    · exact .refl s
    · split
      · exact State.setExchange_edits fun _ => Link.Legal.planned hx
      · exact State.setExchange_edits fun _ => Link.Legal.planned hx
      · split
        · exact s.fault_edits l _
        · exact State.issueJoin_edits (Link.Legal.planned hx)

theorem State.completeReply_edits (r : Request) (c : ReplyStatus) (d : BitVec 32) : s.Edits (s.completeReply l r c d) := by
  unfold State.completeReply
  split
  · split <;> exact State.queryDone_edits _ _ _ _ _
  · exact s.planCompleted_edits l _ _

theorem State.completeTimeout_edits (r : Request) : s.Edits (s.completeTimeout l r) := by
  unfold State.completeTimeout
  split
  · exact State.queryDone_edits _ _ _ _ _
  · exact s.planCompleted_edits l _ _

/-! ### The switch (5.5) -/

/-- R10, R48: a link that leaves ACTIVE stands in its new state. -/
theorem State.leaveActive_state (new : LinkState) (cause : LinkCause) : ((s.leaveActive l new cause).link l).mgr.state = new := by
  rw [State.leaveActive_eq]
  extract_lets x gone
  rw [State.reEvaluate_link_frame]
  show (gone.link l).mgr.state = new
  unfold gone
  split <;> simp [State.departed]

variable {s l} in
theorem State.switchActive_edits (h : (s.link l).mgr.state = .active) : s.Edits (s.switchActive l) := by
  unfold State.switchActive
  split
  · exact State.setExchange_edits fun he => by simp at he
  · refine (State.leaveActive_edits h (.inl rfl) _).trans (State.setExchange_edits fun _ _ => .inl ?_)
    exact s.leaveActive_state l _ _

variable {s l} in
theorem State.switchJoining_edits (h : (s.link l).mgr.state = .joining) : s.Edits (s.switchJoining l) := by
  unfold State.switchJoining
  split
  · exact .refl s
  · next x hx =>
    split
    · exact State.enterActive_edits h
    · split
      · exact State.countAttempt_edits hx
      · exact .refl s

theorem State.switchLinks_edits : s.Edits (s.switchLinks z) := by
  unfold State.switchLinks
  refine .forLinks (fun s l => ?_) s
  split
  · split
    · next h => exact State.switchActive_edits h
    · next h => exact State.switchJoining_edits h
    · exact .refl s
  · exact .refl s

/-- A request issued leaves every link's state. -/
theorem State.issueRequest_state (r : Request) (l' : LinkIx) : ((s.issueRequest l r).link l').mgr.state = (s.link l').mgr.state := by
  have hmod (f : Manager → Manager) (hf : ∀ m, (f m).state = m.state) :
      ((s.modMgr l f).link l').mgr.state = (s.link l').mgr.state := by
    rw [State.modMgr, State.modLink_link_eq]
    split
    · next h => subst h; exact hf _
    · rfl
  unfold State.issueRequest
  split
  · exact hmod _ fun _ => rfl
  · dsimp only
    split
    · split
      · rw [State.queryDone_eq, State.plusNotices_link]
        exact hmod _ fun _ => rfl
      · exact hmod _ fun _ => rfl
    · exact hmod _ fun _ => rfl

theorem State.issueJoin_state (n : Nat) (l' : LinkIx) : ((s.issueJoin l n).link l').mgr.state = (s.link l').mgr.state := by
  unfold State.issueJoin State.issuePlan
  rw [State.issueRequest_state, State.modLink_link_eq]
  split
  · next h => subst h; rfl
  · rfl

/-- R101 step 6: the links renewed are JOINING throughout. -/
theorem State.renewJoins_edits : s.Edits (s.renewJoins z) := by
  unfold State.renewJoins
  split
  · exact .refl s
  · have hfold (xs : List LinkIx) (t : State) (hxs : ∀ l ∈ xs, (t.link l).mgr.state = .joining) :
        t.Edits (xs.foldl (fun s l => s.issueJoin l (match (s.link l).exchange with
          | some x => x.attempts
          | none => 0)) t) := by
      induction xs generalizing t with
      | nil => exact .refl t
      | cons l rest ih =>
        refine (State.issueJoin_edits fun _ => .inl (hxs l (List.mem_cons_self ..))).trans (ih _ fun l' hl' => ?_)
        rw [State.issueJoin_state]
        exact hxs l' (List.mem_cons_of_mem _ hl')
    refine hfold _ s fun l hl => ?_
    simp only [State.zoneLinks, List.mem_filter, Bool.and_eq_true, beq_iff_eq] at hl
    exact hl.2.1

theorem State.deferredReplan_edits : s.Edits (s.deferredReplan z) := by
  unfold State.deferredReplan
  split
  · exact (State.Edit.zone z _ fun h => ⟨h.1, h.2⟩).edits.trans (State.replan_edits _ z)
  · exact .refl s

theorem State.switchGates_edits : s.Edits (s.switchGates z) := by
  unfold State.switchGates
  exact .foldl (fun s l => s.createGates_edits l _) _ s

theorem State.regovernChanged_edits (t : State) : t.Edits (t.regovernChanged s) := by
  unfold State.regovernChanged
  refine .forLinks (fun t l => ?_) t
  split
  · exact .refl t
  · exact t.regovern_edits l

variable {s z} in
theorem State.switchZone_edits {p : StagedPlan} (h : (s.zone z).staged = some p) : s.Edits (s.switchZone z p) := by
  have hcurrent : s.Edits (s.modZone z (fun x => x.switched p)) :=
    (State.Edit.zone z _ fun hz => ⟨hz.2 p h, fun q e => by cases e⟩).edits
  unfold State.switchZone
  exact hcurrent.trans ((State.switchLinks_edits _ z).trans ((State.switchGates_edits _ z).trans ((State.notify_edits _ _).trans
    ((State.deferredReplan_edits _ z).trans ((State.renewJoins_edits _ z).trans (State.regovernChanged_edits s _))))))

theorem State.planSwitchIfDue_edits : s.Edits (s.planSwitchIfDue z) := by
  unfold State.planSwitchIfDue
  split
  · next p hp =>
    split
    · exact State.switchZone_edits hp
    · exact .refl s
  · exact .refl s

variable {s l} in
theorem State.joinSwitch_edits (h : (s.link l).mgr.state = .joining) : s.Edits (s.joinSwitch l) := by
  unfold State.joinSwitch
  split
  · exact .refl s
  · split
    · exact State.enterActive_edits h
    · split
      · split
        · exact s.fault_edits l _
        · exact State.issueJoin_edits fun _ => .inl h
      · exact State.issueJoin_edits fun _ => .inl h

theorem State.joinSwitchAll_edits : s.Edits s.joinSwitchAll := by
  unfold State.joinSwitchAll
  refine State.Edits.trans (State.Edits.forLinks (fun s l => ?_) s) (State.regovernChanged_edits s _)
  split
  · next h =>
    simp only [State.joinDue, Bool.and_eq_true, beq_iff_eq] at h
    exact State.joinSwitch_edits h.1.1
  · exact .refl s

end

end Sys2Proof.Machine
end

section
/-! Chains of edits, continued: ranging, the link manager, break-in, zones and services, and every order. -/

namespace Sys2Proof.Machine

open Sys2Proof

section
variable (s : State) (l : LinkIx) (z : ZoneIx)

/-! ## Ranging (chapter 2) -/

theorem State.startRun_edits (c : RunCause) : s.Edits (s.startRun l c) := by
  unfold State.startRun
  exact State.modLink_edits rfl

variable {s l} in
/-- R34, R61: the ranging fields of a link change and, where the path did in ACTIVE, its group is re-evaluated. -/
theorem State.reportPath_edits {f : Ranging → Ranging} :
    s.Edits ((s.modRng l f).reportPath l) := by
  unfold State.reportPath
  split
  · have hgroup : ((s.modRng l f).link l).settings.group = (s.link l).settings.group := by simp [State.modRng]
    rw [hgroup]
    exact (State.Edit.regroup l _ _ ⟨fun h => ⟨h.laser, h.exchange, h.closed, h.pending⟩, fun h => ⟨h.now, h.before, h.rx⟩, id⟩ rfl).edits
  · next hactive =>
    refine (State.Edit.link l _ ⟨fun h => ⟨h.laser, h.exchange, h.closed, h.pending⟩, fun h => ⟨h.now, h.before, h.rx⟩, id⟩
      fun h => absurd ?_ hactive).edits
    simpa [State.modRng] using h

variable {s l} in
/-- A change of the ranging fields beside the path. -/
theorem State.modRng_edits {f : Ranging → Ranging} (h : (f (s.link l).rng).path = (s.link l).rng.path) : s.Edits (s.modRng l f) :=
  State.modLink_edits (by simp only [Link.core, h])

theorem State.endOk_edits (r : RangingRun) : s.Edits (s.endOk l r) := by
  unfold State.endOk
  extract_lets oldPath inActive t1 t2
  split
  · next h => exact (State.modRng_edits (by simpa [t2, t1, State.modRng, oldPath] using h)).trans (State.notify_edits t1 _)
  · exact (s.notify_edits (t1.rangeResult l r .ok)).trans
      (State.reportPath_edits (s := s.notify _) (f := fun y => (y.accept r (s.link l).settings.cable).runEnded inActive))

theorem State.endFailed_edits (r : RangingRun) (c : RunOutcome) : s.Edits (s.endFailed l r c) := by
  unfold State.endFailed
  split
  · extract_lets t1 t2
    have h : s.Edits t2 := (State.modRng_edits rfl).trans (State.notify_edits t1 _)
    split
    · exact h.trans (t2.fault_edits l _)
    · exact h
  · exact (State.modRng_edits rfl).trans (State.notify_edits _ _)

theorem State.endAborted_edits (r : RangingRun) : s.Edits (s.endAborted l r) :=
  (State.modRng_edits rfl).trans (State.notify_edits _ _)

theorem State.judge_edits (r : RangingRun) : s.Edits (s.judge l r) := by
  unfold State.judge
  split
  · exact s.endFailed_edits l r _
  · exact s.endOk_edits l r

theorem State.countUnexpected_edits : s.Edits (s.countUnexpected l) := by
  unfold State.countUnexpected
  exact State.modLink_edits rfl

theorem State.takeEcho_edits (id : BitVec 8) (m : Fin 4) (turn latency arrival : Nat) :
    s.Edits (s.takeEcho l id m turn latency arrival) := by
  unfold State.takeEcho
  split
  · exact s.countUnexpected_edits l
  · split
    · dsimp only
      split
      · exact s.judge_edits l _
      · exact State.modRng_edits rfl
    · exact s.countUnexpected_edits l

theorem State.echoWindowCloseIfDue_edits : s.Edits (s.echoWindowCloseIfDue l) := by
  unfold State.echoWindowCloseIfDue
  split
  · split
    · exact s.endFailed_edits l _ _
    · exact .refl s
  · exact .refl s

theorem State.useEstimate_edits (d : Nat) : s.Edits (s.useEstimate l d) := by
  unfold State.useEstimate
  extract_lets r t1 t2
  have h1 : s.Edits t1 := State.modRng_edits rfl
  split
  · split
    · exact h1
    · split
      · next h =>
        refine h1.trans (State.modRng_edits ?_)
        simpa [t2, t1, State.modRng, r] using h
      · exact h1.trans State.reportPath_edits
  · split
    · exact s.startRun_edits l _
    · exact State.modRng_edits rfl

theorem State.takeTrackEcho_edits (id : BitVec 8) (turn arrival : Nat) : s.Edits (s.takeTrackEcho l id turn arrival) := by
  unfold State.takeTrackEcho
  split
  · exact s.countUnexpected_edits l
  · split
    · exact (State.modRng_edits rfl).trans (State.useEstimate_edits _ l _)
    · exact s.countUnexpected_edits l

theorem State.trackWindowCloseIfDue_edits : s.Edits (s.trackWindowCloseIfDue l) := State.modRng_edits rfl

theorem State.countTracking_edits : s.Edits (s.countTracking l) := by
  unfold State.countTracking
  dsimp only
  split <;> exact State.modRng_edits rfl

theorem Ranging.settleMarker_path (r : Ranging) : r.settleMarker.path = r.path := by
  unfold Ranging.settleMarker
  split
  · split <;> rfl
  · rfl

theorem State.placeMark_edits : s.Edits (s.placeMark l) := by
  refine State.modLink_edits ?_
  unfold Manager.placeTrackMark
  split <;> simp only [Link.core, Ranging.settleMarker_path]

theorem State.trackingMarkIfDue_edits : s.Edits (s.trackingMarkIfDue l) := by
  unfold State.trackingMarkIfDue
  split
  · exact s.placeMark_edits l
  · exact .refl s

theorem State.trackingMark_edits : s.Edits (s.trackingMark l) := by
  unfold State.trackingMark State.countAndMark
  split
  · exact s.placeMark_edits l
  · exact (s.placeMark_edits l).trans (State.modRng_edits rfl)

/-! ## The link manager (chapter 1) -/

theorem State.recomputePath_edits : s.Edits (s.recomputePath l) := by
  unfold State.recomputePath
  dsimp only
  split
  · exact .refl s
  · exact State.reportPath_edits

variable {s l} in
/-- R2: the settings stored; a link that is a member keeps its group. -/
theorem State.storeSettings_edits {y : Settings} (h : (s.link l).mgr.state = .active → y.group = (s.link l).settings.group) :
    s.Edits (s.storeSettings l y) := by
  have hstored : s.Edits (s.modSettings l (fun _ => y)) :=
    (State.Edit.link l _ ⟨fun h => ⟨h.laser, h.exchange, h.closed, h.pending⟩, fun h => ⟨h.now, h.before, h.rx⟩, id⟩
      fun hy => ⟨hy, h hy, fun _ => id⟩).edits
  have hsetup (x : Settings) (hdue : setupDue (s.link l).mgr.state x y = true) :
      s.Edits ((s.modSettings l (fun _ => y)).issueSetup l) := by
    refine hstored.trans (State.issueSetup_edits ?_)
    have hstate : ((s.modSettings l (fun _ => y)).link l).mgr.state = (s.link l).mgr.state := by simp [State.modSettings]
    rw [hstate]
    revert hdue
    cases (s.link l).mgr.state <;> simp [setupDue, LinkState.controlOpen]
  have hfirst (x : Settings) : s.Edits (if setupDue (s.link l).mgr.state x y then (s.modSettings l (fun _ => y)).issueSetup l
      else s.modSettings l (fun _ => y)) := by
    split
    · next hdue => exact hsetup x hdue
    · exact hstored
  unfold State.storeSettings
  dsimp only
  split
  · exact (hfirst _).trans (State.recomputePath_edits _ l)
  · exact hfirst _

theorem State.abortPending_edits : s.Edits (s.abortPending l) := by
  unfold State.abortPending
  rw [State.foldl_queryDone]
  exact (s.plusNotices_edits _).trans (State.modMgr_edits rfl rfl (fun h hc => ⟨(h.closed hc).1, rfl, (h.closed hc).2.2⟩)
    fun _ => by simp)

variable {s l} in
theorem State.quiesceJoining_edits (h : (s.link l).mgr.state = .joining) : s.Edits (s.quiesceJoining l) := by
  have hleft (t : State) (ht : (t.link l).mgr.state = .joining) :
      t.Edits (t.modLink l (fun x => { x with mgr := { x.mgr with state := .quiescing }, exchange := none })) := by
    refine (State.Edit.link l _ ⟨fun h => ⟨?_, by simp, by simp [LinkState.controlOpen], h.pending⟩,
      fun h => ⟨h.now, h.before, h.rx⟩, id⟩ fun h => by cases h).edits
    have hlaser := h.laser
    rw [ht] at hlaser
    exact hlaser
  unfold State.quiesceJoining
  extract_lets t
  exact (s.notify_edits _).trans ((hleft t h).trans (State.abortPending_edits _ l))

/-- A step between states whose control channel is closed, the laser on. -/
theorem Link.Legal.moveClosed {x y : Link} (h : x.Legal) (hx : x.mgr.state.controlOpen = false) (hlaser : y.mgr.laser = (y.mgr.state != .dark))
    (hrest : y.exchange = x.exchange ∧ y.mgr.outstanding = x.mgr.outstanding ∧ y.mgr.pendingQueue = x.mgr.pendingQueue ∧
      y.mgr.txQueue = x.mgr.txQueue ∧ y.mgr.leaving = x.mgr.leaving) : y.Legal := by
  obtain ⟨hex, hout, hpend, htx, hleave⟩ := hrest
  refine ⟨hlaser, fun he => ?_, fun _ => ?_, ?_⟩
  · rw [hex] at he
    have := LinkState.controlOpen_of_planned (h.exchange he)
    exact absurd (this.symm.trans hx) (by decide)
  · rw [hout, hpend, htx, hleave]; exact h.closed hx
  · rw [hpend]; exact h.pending

variable {s l} in
/-- A manager edit between states whose control channel is closed. -/
theorem State.modMgr_edits_of_closed {f : Manager → Manager} (hx : (s.link l).mgr.state.controlOpen = false)
    (hlaser : (s.link l).Legal → (f (s.link l).mgr).laser = ((f (s.link l).mgr).state != .dark))
    (hy : (f (s.link l).mgr).state.controlOpen = false)
    (hrest : (f (s.link l).mgr).outstanding = (s.link l).mgr.outstanding ∧ (f (s.link l).mgr).pendingQueue = (s.link l).mgr.pendingQueue ∧
      (f (s.link l).mgr).txQueue = (s.link l).mgr.txQueue ∧ (f (s.link l).mgr).leaving = (s.link l).mgr.leaving) :
    s.Edits (s.modMgr l f) := by
  refine (State.Edit.link l _ ⟨fun h => h.moveClosed hx (hlaser h) ⟨rfl, hrest⟩, fun h => ⟨h.now, h.before, h.rx⟩, id⟩ fun h => ?_).edits
  rw [show (f (s.link l).mgr).state = .active from h] at hy
  cases hy

theorem State.lockGained_edits : s.Edits (s.lockGained l) := by
  unfold State.lockGained
  exact State.modLink_edits rfl

theorem State.lockLost_edits : s.Edits (s.lockLost l) := by
  unfold State.lockLost
  extract_lets t
  have ht : s.Edits t := State.modLink_edits rfl
  split
  · next h =>
    refine ht.trans (State.modMgr_edits_of_closed ?_ (fun hl => ?_) rfl ⟨rfl, rfl, rfl, rfl⟩)
    · simp [t, State.modMgr, h, LinkState.controlOpen]
    · have hlaser := hl.laser
      rw [show (t.link l).mgr.state = .attach by simpa [t, State.modMgr] using h] at hlaser
      exact hlaser
  · exact ht.trans (t.fault_edits l _)
  · exact ht.trans (t.fault_edits l _)
  · exact ht.trans (t.fault_edits l _)
  · exact ht.trans (t.fault_edits l _)
  · exact ht

theorem State.settlePeriodEndIfDue_edits : s.Edits (s.settlePeriodEndIfDue l) := by
  unfold State.settlePeriodEndIfDue
  refine State.modLink_edits ?_
  dsimp only
  split <;> rfl

theorem State.attachIfDue_edits : s.Edits (s.attachIfDue l) := by
  unfold State.attachIfDue
  by_cases h : (s.link l).mgr.attachDue ∧ (s.link l).mgr.state = .listen ∧ (s.link l).mgr.listenPhase = some .detect ∧ (s.link l).mgr.lock
  · refine State.modMgr_edits_of_closed ?_ (fun hl => ?_) ?_ ?_
    · rw [h.2.1]; rfl
    · have hlaser := hl.laser
      rw [h.2.1] at hlaser
      simp only [if_pos h]; exact hlaser
    · simp only [if_pos h]; rfl
    · simp only [if_pos h, and_self]
  · refine State.modLink_edits ?_
    dsimp only
    rw [if_neg h]

theorem State.debounceEndIfDue_edits : s.Edits (s.debounceEndIfDue l) := by
  unfold State.debounceEndIfDue
  refine State.modLink_edits ?_
  dsimp only
  split <;> rfl

theorem State.helloWaitExpiryIfDue_edits : s.Edits (s.helloWaitExpiryIfDue l) := by
  unfold State.helloWaitExpiryIfDue
  split
  · exact s.fault_edits l _
  · exact .refl s

theorem State.quiescingEndIfDue_edits : s.Edits (s.quiescingEndIfDue l) := by
  unfold State.quiescingEndIfDue
  split
  · next h =>
    have hstandby : s.Edits (s.modMgr l Manager.quiesced) := by
      refine (State.Edit.link l _ ⟨fun hl => ⟨?_, fun he => ?_, by simp [Manager.quiesced, LinkState.controlOpen], hl.pending⟩,
        fun h => ⟨h.now, h.before, h.rx⟩, id⟩ fun h => by cases h).edits
      · have hlaser := hl.laser
        rw [h.2.1] at hlaser
        exact hlaser
      · have hex := hl.exchange he
        rw [h.2.1] at hex
        simp at hex
    refine hstandby.trans ((State.notify_edits _ _).trans (State.issueSetup_edits ?_))
    simp [State.modMgr, Manager.quiesced, LinkState.controlOpen]
  · exact .refl s

theorem State.expireTag_edits (t : Tag) : s.Edits (s.expireTag l t) := by
  unfold State.expireTag
  split
  · exact (s.freeTag_edits l t).trans (State.completeTimeout_edits _ l _)
  · exact .refl s

theorem State.noteQuiesced_edits : s.Edits (s.noteQuiesced l) := by
  unfold State.noteQuiesced
  refine State.modLink_edits ?_
  dsimp only
  split <;> rfl

theorem State.deadlinesIfDue_edits : s.Edits (s.deadlinesIfDue l) := by
  unfold State.deadlinesIfDue
  split
  · exact .refl s
  · have h := (State.Edits.foldl (fun s t => State.expireTag_edits s l t) (s.expiredTags l) s).trans
      ((State.giveFreedTags_edits _ l).trans (State.noteQuiesced_edits _ l))
    dsimp only
    split
    · exact h
    · exact h.trans (State.regovern_edits _ l)

variable {s l} in
theorem State.takeHello_edits {x : RuIdentity} (h : (s.link l).mgr.state = .attach) : s.Edits (s.takeHello l x) := by
  have hstandby : s.Edits (s.modMgr l (fun m => m.hello x)) := by
    refine (State.Edit.link l _ ⟨fun hl => ⟨?_, fun he => ?_, by simp [Manager.hello, LinkState.controlOpen], hl.pending⟩,
      fun h => ⟨h.now, h.before, h.rx⟩, id⟩ fun h => by cases h).edits
    · have hlaser := hl.laser
      rw [h] at hlaser
      exact hlaser
    · have hex := hl.exchange he
      rw [h] at hex
      simp at hex
  refine hstandby.trans ((State.notify_edits _ _).trans (State.issueSetup_edits ?_))
  simp [State.modMgr, Manager.hello, LinkState.controlOpen]

theorem State.takeReply_edits (t : Tag) (c : ReplyStatus) (d : BitVec 32) : s.Edits (s.takeReply l t c d) := by
  unfold State.takeReply
  split
  · exact (s.freeTag_edits l t).trans ((State.completeReply_edits _ l _ c d).trans (State.giveFreedTags_edits _ l))
  · exact s.countUnexpected_edits l

theorem State.takeAlarm_edits (w : Wire) (on : Bool) : s.Edits (s.takeAlarm l w on) := by
  unfold State.takeAlarm
  split
  · exact State.modLink_edits rfl
  · exact State.Edits.trans (t := s.modMgr l (fun m => { m with wires := m.wires.set (wireIx w) on }))
      (State.modLink_edits (by simp only [Link.core])) (State.notify_edits _ _)

theorem State.takeOpenMessage_edits (arrival : Nat) (m : RxMsg) : s.Edits (s.takeOpenMessage l arrival m) := by
  unfold State.takeOpenMessage
  split
  · exact s.fault_edits l _
  · exact s.takeEcho_edits l _ _ _ _ _
  · exact s.takeTrackEcho_edits l _ _ _
  · exact s.takeReply_edits l _ _ _
  · exact s.takeAlarm_edits l _ _
  · exact s.takeAlarm_edits l _ _
  · exact State.modLink_edits rfl

theorem State.takeMessage_edits (arrival : Nat) (m : RxMsg) : s.Edits (s.takeMessage l arrival m) := by
  unfold State.takeMessage
  split
  · exact s.takeOpenMessage_edits l arrival m
  · split
    · next h =>
      split
      · exact State.takeHello_edits h.1
      · exact .refl s
    · exact .refl s

theorem State.takeErrored_edits : s.Edits (s.takeErrored l) := by
  unfold State.takeErrored
  split
  · extract_lets t
    have ht : s.Edits t := State.modLink_edits rfl
    split
    · exact ht.trans (t.fault_edits l _)
    · exact ht
  · exact .refl s

theorem State.takeGood_edits : s.Edits (s.takeGood l) := by
  unfold State.takeGood
  split
  · exact State.modLink_edits rfl
  · exact .refl s

variable {s l} in
theorem State.takeFrame_edits {f : UplinkFrame} (hf : samplesWf f.samples = true) : s.Edits (s.takeFrame l f) := by
  unfold State.takeFrame
  dsimp only
  split
  · exact (s.takeSamples_edits l f hf).trans (State.takeErrored_edits _ l)
  · exact (s.takeSamples_edits l f hf).trans ((State.takeGood_edits _ l).trans
      (.foldl (fun s m => State.takeMessage_edits s l _ m) _ _))

end

end Sys2Proof.Machine
end

section
/-! Chains of edits, continued: break-in, zones, services, the orders, and the work of the boundaries. -/

namespace Sys2Proof.Machine

open Sys2Proof

section
variable (s : State) (l : LinkIx) (z : ZoneIx) (i : InputIx)

/-! ## The break-in arbiter (chapter 7) -/

theorem State.setArbiter_edits (a : Arbiter) : s.Edits { s with arbiter := a } := (State.Edit.arbiter a).edits

theorem State.setOwner_edits (x : Option SourceIx) : s.Edits (s.setOwner z x) := (State.Edit.zone z _ fun h => ⟨h.1, h.2⟩).edits

theorem State.claimZone_edits (x : SourceIx) : s.Edits (s.claimZone x z) := by
  unfold State.claimZone
  split
  · exact s.setOwner_edits z _
  · split
    · exact s.setOwner_edits z _
    · exact .refl s

theorem State.passZone_edits (x : SourceIx) : s.Edits (s.passZone x z) := by
  unfold State.passZone
  split
  · exact s.setOwner_edits z _
  · exact .refl s

theorem reportOwners_edits (t : State) (zs : List ZoneIx) (cause : OwnerCause) : t.Edits (reportOwners s t zs cause) := by
  unfold reportOwners
  extract_lets changed u
  exact State.Edits.trans (.foldl (fun (u : State) z => u.notify_edits _) changed t) (u.replanAll_edits _)

theorem State.activateSource_edits (x : SourceIx) (mask : BitVec 8) (priority : Nat) (channel : Channel) (cause : OwnerCause) :
    s.Edits (s.activateSource x mask priority channel cause) := by
  unfold State.activateSource
  exact (s.setArbiter_edits _).trans ((State.Edits.foldl (fun t z => State.claimZone_edits t z x) _ _).trans (reportOwners_edits s _ _ _))

theorem State.deactivateSource_edits (x : SourceIx) (cause : OwnerCause) : s.Edits (s.deactivateSource x cause) := by
  unfold State.deactivateSource
  split
  · exact .refl s
  · exact (s.setArbiter_edits _).trans ((State.Edits.foldl (fun t z => State.passZone_edits t z x) _ _).trans (reportOwners_edits s _ _ _))

/-! ## Zones and contact inputs (chapter 6) -/

theorem State.updateIncident_edits (cause : IncidentCause) : s.Edits (s.updateIncident z cause) := by
  unfold State.updateIncident
  dsimp only
  split
  · exact .refl s
  · exact (State.Edit.zone z _ fun h => ⟨h.1, h.2⟩).edits.trans (State.notify_edits _ _)

theorem State.takeIncident_edits (cause : IncidentCause) : s.Edits (s.takeIncident z cause) := by
  unfold State.takeIncident
  split
  · exact .refl s
  · exact (s.updateIncident_edits z cause).trans (State.replan_edits _ z)

theorem State.setHostFlags_edits (mask : BitVec 8) (on : Bool) : s.Edits (s.setHostFlags mask on) := by
  unfold State.setHostFlags
  exact .foldl (fun s z => (State.Edit.zone (s := s) z _ fun h => ⟨h.1, h.2⟩).edits) _ s

theorem State.latchEffects_edits (isSet : Bool) : s.Edits (s.latchEffects i isSet) := by
  unfold State.latchEffects
  extract_lets c zs t u
  have ht : s.Edits t := .foldl (fun s z => s.updateIncident_edits z _) zs s
  have hu : t.Edits u := by
    unfold u
    split
    · exact t.activateSource_edits _ _ _ _ _
    · exact t.deactivateSource_edits _ _
  exact ht.trans (hu.trans (u.replanAll_edits _))

theorem State.modInput_edits (f : ContactInput → ContactInput) : s.Edits (s.modInput i f) := (State.Edit.input i f).edits

theorem State.latch_edits (cause : LineCause) : s.Edits (s.latch i cause) :=
  (s.modInput_edits i _).trans ((State.notify_edits _ _).trans (State.latchEffects_edits _ i _))

theorem State.unlatch_edits : s.Edits (s.unlatch i) := (s.modInput_edits i _).trans (State.latchEffects_edits _ i _)

theorem State.unlatchReleased_edits : s.Edits (s.unlatchReleased i) :=
  (s.modInput_edits i _).trans ((State.notify_edits _ _).trans (State.latchEffects_edits _ i _))

theorem State.sampleContacts_edits (levels : BitVec 4) : s.Edits (s.sampleContacts levels) := by
  unfold State.sampleContacts
  exact .forInputs (fun s i => s.modInput_edits i _) s

theorem State.registeredChange_edits : s.Edits (s.registeredChange i) := by
  unfold State.registeredChange
  extract_lets c cause t
  have ht : s.Edits t := s.modInput_edits i _
  split
  · exact ht
  · exact ht.trans (t.latch_edits i _)
  · exact ht.trans (t.notify_edits _)
  · exact ht.trans (t.unlatchReleased_edits i)

theorem State.registeredChangeIfDue_edits : s.Edits (s.registeredChangeIfDue i) := by
  unfold State.registeredChangeIfDue
  split
  · exact s.registeredChange_edits i
  · exact .refl s

variable (o : Order)

theorem orderZoneIncident_edits : s.Edits (orderZoneIncident o s).1 := by
  unfold orderZoneIncident
  split
  · exact .refl s
  · exact (s.setHostFlags_edits _ _).trans (.foldl (fun s z => s.takeIncident_edits z _) _ _)

theorem orderSetZone_edits : s.Edits (orderSetZone o s).1 := by
  unfold orderSetZone
  split
  · exact .refl s
  · exact .refl s
  · next z on _ _ => exact (State.Edit.zone z (fun x => { x with crossfade := on }) fun h => ⟨h.1, h.2⟩).edits

theorem orderSetLine_edits : s.Edits (orderSetLine o s).1 := by
  unfold orderSetLine
  split
  · exact .refl s
  · next i _ =>
    split
    · next mode channel _ _ =>
      split
      · exact .refl s
      · extract_lets t1 t2
        have h1 : s.Edits t1 := by
          unfold t1
          split
          · exact s.unlatch_edits i
          · exact .refl s
        have h2 : s.Edits t2 := h1.trans (t1.modInput_edits i _)
        dsimp only
        split
        · exact h2.trans (t2.latch_edits i _)
        · exact h2
    · exact .refl s

theorem orderLineAck_edits : s.Edits (orderLineAck o s).1 := by
  unfold orderLineAck
  split
  · exact .refl s
  · dsimp only
    split
    · exact .refl s
    · split
      · split
        · exact .refl s
        · dsimp only; exact s.modInput_edits _ _
      · exact s.unlatch_edits _

theorem orderBreakinStart_edits : s.Edits (orderBreakinStart o s).1 := by
  unfold orderBreakinStart
  split
  · exact .refl s
  · split
    · exact .refl s
    · split
      · exact .refl s
      · exact s.activateSource_edits _ _ _ _ _

theorem orderBreakinStop_edits : s.Edits (orderBreakinStop o s).1 := by
  unfold orderBreakinStop
  split
  · exact .refl s
  · split
    · exact s.deactivateSource_edits _ _
    · exact .refl s

/-! ## Services (4.1) and notices (10.2) -/

theorem clampNat_le (lo hi n : Nat) (h : lo ≤ hi) : clampNat lo hi n ≤ hi := by
  rw [clampNat_eq lo hi n h]; omega

theorem orderSetService_edits : s.Edits (orderSetService o s).1 := by
  unfold orderSetService
  split
  · exact .refl s
  · next v _ =>
    split
    · exact .refl s
    · split
      · exact .refl s
      · split
        · exact .refl s
        · dsimp only
          split
          · exact .refl s
          · split
            · exact .refl s
            · dsimp only
              refine (State.Edit.service v _ ?_).edits
              exact ⟨fun h => by simp [Service.defined] at h, fun _ => clampNat_le 0 7 _ (by decide), fun h => ⟨h.streams⟩⟩

theorem orderEnableService_edits : s.Edits (orderEnableService o s).1 := by
  unfold orderEnableService
  split
  · exact .refl s
  · next v _ =>
    dsimp only
    split
    · exact .refl s
    · next hstate =>
      split
      · exact .refl s
      · next hstaging =>
        split
        · exact .refl s
        · next huplink =>
          exact (State.Edit.enable v _ (by simpa using hstate) (by omega) (by omega)).edits.trans (State.replanAll_edits _ _)

theorem orderDisableService_edits : s.Edits (orderDisableService o s).1 := by
  unfold orderDisableService
  split
  · exact .refl s
  · next v _ =>
    split
    · exact .refl s
    · have hdisable : (s.service v).Keeps (s.service v).disable :=
        ⟨fun h => by simp [Service.disable] at h, id, fun _ => ⟨fun n r hr => by cases n <;> cases hr⟩⟩
      exact (State.Edit.service v Service.disable hdisable).edits.trans
        ((State.disableUplink_edits _ v).trans (State.replanAll_edits _ _))

theorem orderClearService_edits : s.Edits (orderClearService o s).1 := by
  unfold orderClearService
  split
  · exact .refl s
  · next v _ =>
    split
    · exact .refl s
    · split
      · exact .refl s
      · have hclear : (s.service v).Keeps (s.service v).clear :=
          ⟨fun h => by simp [Service.clear, Service.atReset] at h, fun _ => Nat.zero_le 7, fun _ => ⟨fun n r hr => by cases n <;> cases hr⟩⟩
        exact (State.Edit.service v Service.clear hclear).edits

theorem orderSetNotices_edits : s.Edits (orderSetNotices o s).1 := by
  unfold orderSetNotices
  split
  · exact .refl s
  · exact (State.Edit.thresholds _ _ _).edits

/-! ## The orders of the links -/

theorem orderSetLink_edits : s.Edits (orderSetLink o s).1 := by
  unfold orderSetLink
  split
  · next l z g _ _ _ =>
    dsimp only
    split
    · exact .refl s
    · next h =>
      refine State.storeSettings_edits fun hactive => ?_
      simp only [hactive, LinkState.placed, and_true, not_or, not_not] at h
      exact h.2.symm
  · exact .refl s

theorem orderLinkListen_edits : s.Edits (orderLinkListen o s).1 := by
  unfold orderLinkListen
  split
  · exact .refl s
  · split
    · next h =>
      exact State.Edits.trans (State.modMgr_edits_of_closed (by rw [h]; rfl) (fun _ => rfl) rfl ⟨rfl, rfl, rfl, rfl⟩)
        (State.notify_edits _ _)
    · exact .refl s

theorem orderLinkRange_edits : s.Edits (orderLinkRange o s).1 := by
  unfold orderLinkRange
  split
  · exact .refl s
  · split
    · exact .refl s
    · split
      · exact .refl s
      · exact s.startRun_edits _ _

theorem orderLinkActivate_edits : s.Edits (orderLinkActivate o s).1 := by
  unfold orderLinkActivate
  split
  · exact .refl s
  · next l _ =>
    split
    · exact .refl s
    · next hstate =>
      have hstate : (s.link l).mgr.state = .standby := not_not.mp hstate
      split
      · exact .refl s
      · split
        · have hjoining : s.Edits (s.modMgr l (fun m => { m with state := .joining })) := by
            refine (State.Edit.link l _ ⟨fun h => ⟨?_, fun _ => .inl rfl, by simp [LinkState.controlOpen], h.pending⟩,
              fun h => ⟨h.now, h.before, h.rx⟩, id⟩ fun h => by cases h).edits
            have hlaser := h.laser
            rw [hstate] at hlaser
            exact hlaser
          refine hjoining.trans ((State.notify_edits _ _).trans (State.issueJoin_edits fun _ => .inl ?_))
          simp [State.modMgr]
        · exact .refl s

theorem orderLinkQuiesce_edits : s.Edits (orderLinkQuiesce o s).1 := by
  unfold orderLinkQuiesce
  split
  · exact .refl s
  · split
    · next h => exact State.leaveActive_edits h (.inr rfl) _
    · next h => exact State.quiesceJoining_edits h
    · exact .refl s

theorem orderLinkAbort_edits : s.Edits (orderLinkAbort o s).1 := by
  unfold orderLinkAbort
  split
  · exact .refl s
  · split
    · exact .refl s
    · split
      · exact s.endAborted_edits _ _
      · exact .refl s

theorem orderLinkDark_edits : s.Edits (orderLinkDark o s).1 := by
  unfold orderLinkDark
  split
  · exact .refl s
  · split
    · exact .refl s
    · next h =>
      exact State.Edits.trans (State.modMgr_edits_of_closed (by rw [h]; rfl) (fun _ => rfl) rfl ⟨rfl, rfl, rfl, rfl⟩)
        (State.notify_edits _ _)
    · exact State.takeDown_edits (.inl rfl) _

theorem orderLinkQuery_edits : s.Edits (orderLinkQuery o s).1 := by
  unfold orderLinkQuery
  split
  · exact .refl s
  · split
    · exact .refl s
    · split
      · exact .refl s
      · next hopen =>
        split
        · exact .refl s
        · next hroom =>
          exact State.issueRequest_edits (fun _ => by simpa using hopen) fun _ => by omega

/-- R172: whatever order is taken, its units make edits. -/
theorem takeByCode_edits : s.Edits (takeByCode o s).1 := by
  unfold takeByCode
  split
  · exact orderSetService_edits s o
  · exact orderEnableService_edits s o
  · exact orderDisableService_edits s o
  · exact orderClearService_edits s o
  · exact orderSetLink_edits s o
  · exact orderLinkListen_edits s o
  · exact orderLinkRange_edits s o
  · exact orderLinkActivate_edits s o
  · exact orderLinkQuiesce_edits s o
  · exact orderLinkAbort_edits s o
  · exact orderLinkDark_edits s o
  · exact orderLinkQuery_edits s o
  · exact orderSetGroup_edits s o
  · exact orderSetZone_edits s o
  · exact orderZoneIncident_edits s o
  · exact orderSetLine_edits s o
  · exact orderLineAck_edits s o
  · exact orderBreakinStart_edits s o
  · exact orderBreakinStop_edits s o
  · exact orderSetNotices_edits s o
  · exact .refl s

end

end Sys2Proof.Machine
end

section
/-! What one edit keeps: the link records legal and their stores in form, the members aligned, plans and capacity, and, of the memory path, the
order unit and the notice unit, everything but accounts and the notices generated. -/

namespace Sys2Proof.Machine

open Sys2Proof

section
variable {s t : State}

/-! ## What a re-evaluation and a hold expiry leave -/

section
variable (s : State) (g : GroupIx) (cause : AlignCause) (cleared : List (LinkIx × Bool))

@[simp] theorem State.reEvaluate_services : (s.reEvaluate g cause cleared).services = s.services := by rw [State.reEvaluate_frame]
@[simp] theorem State.reEvaluate_zones : (s.reEvaluate g cause cleared).zones = s.zones := by rw [State.reEvaluate_frame]
@[simp] theorem State.reEvaluate_combiner : (s.reEvaluate g cause cleared).combiner = s.combiner := by rw [State.reEvaluate_frame]
@[simp] theorem State.reEvaluate_path : (s.reEvaluate g cause cleared).path = s.path := by rw [State.reEvaluate_frame]
@[simp] theorem State.reEvaluate_orders : (s.reEvaluate g cause cleared).orders = s.orders := by rw [State.reEvaluate_frame]
@[simp] theorem State.reEvaluate_time : (s.reEvaluate g cause cleared).time = s.time := by rw [State.reEvaluate_frame]
@[simp] theorem State.reEvaluate_inputs : (s.reEvaluate g cause cleared).inputs = s.inputs := by rw [State.reEvaluate_frame]
@[simp] theorem State.reEvaluate_arbiter : (s.reEvaluate g cause cleared).arbiter = s.arbiter := by rw [State.reEvaluate_frame]
@[simp] theorem State.reEvaluate_poster : (s.reEvaluate g cause cleared).poster = s.poster := by rw [State.reEvaluate_frame]
@[simp] theorem State.reEvaluate_pending : (s.reEvaluate g cause cleared).pending = s.pending := by rw [State.reEvaluate_frame]
@[simp] theorem State.reEvaluate_service (v : ServiceIx) : (s.reEvaluate g cause cleared).service v = s.service v := by
  rw [State.reEvaluate_frame]; rfl
@[simp] theorem State.reEvaluate_zone (z : ZoneIx) : (s.reEvaluate g cause cleared).zone z = s.zone z := by
  rw [State.reEvaluate_frame]; rfl

/-- R52: a re-evaluation posts one ALIGN or none. -/
theorem State.reEvaluate_notices : (s.reEvaluate g cause cleared).notices = s.notices ∨
    ∃ n, (s.reEvaluate g cause cleared).notices = s.notices.generate n := by
  rw [State.reEvaluate_eq]
  split
  · exact .inr ⟨_, by rw [State.realigned_eq]; rfl⟩
  · exact .inl (by rw [State.realigned_eq])

/-- R51: a hold that expires: the group takes the candidate, its members' K* follow, and ALIGN is posted. -/
theorem State.expireHold_cases : ((s.group g).hold = none ∧ s.expireHold g = s) ∨
    ∃ h n, (s.group g).hold = some h ∧
      s.expireHold g = ((s.modGroup g (fun x => { x with target := some h.candidate, hold := none })).computeKStar g).notify n := by
  unfold State.expireHold
  cases hh : (s.group g).hold with
  | none => exact .inl ⟨rfl, rfl⟩
  | some h => exact .inr ⟨h, _, rfl, rfl⟩

theorem State.expireHold_frame : s.expireHold g = { s with
    links := (s.expireHold g).links, groups := (s.expireHold g).groups, notices := (s.expireHold g).notices } := by
  obtain ⟨-, h⟩ | ⟨h, n, -, e⟩ := s.expireHold_cases g
  · rw [h]
  · rw [e, State.computeKStar_eq]; rfl

theorem State.expireHold_link_frame (l : LinkIx) : (s.expireHold g).link l = { s.link l with align := ((s.expireHold g).link l).align } := by
  obtain ⟨-, h⟩ | ⟨h, n, -, e⟩ := s.expireHold_cases g
  · rw [h]
  · rw [e, State.notify_link, State.computeKStar_link]
    split
    · split <;> rfl
    · rfl

theorem State.expireHold_notices : (s.expireHold g).notices = s.notices ∨ ∃ n, (s.expireHold g).notices = s.notices.generate n := by
  obtain ⟨-, h⟩ | ⟨h, n, -, e⟩ := s.expireHold_cases g
  · exact .inl (by rw [h])
  · exact .inr ⟨n, by rw [e, State.computeKStar_eq]; rfl⟩

end

/-! ## Link records -/

theorem Link.legal_align {x : Link} (a : Align) (h : x.Legal) : Link.Legal { x with align := a } :=
  ⟨h.laser, h.exchange, h.closed, h.pending⟩

theorem Link.canonical_align {x : Link} (a : Align) (h : x.Canonical) : Link.Canonical { x with align := a } := ⟨h.now, h.before, h.rx⟩

theorem State.modLink_keeps {P : Link → Prop} {l : LinkIx} {f : Link → Link} (h : P (s.link l) → P (f (s.link l)))
    (hs : ∀ l, P (s.link l)) (l' : LinkIx) : P ((s.modLink l f).link l') := by
  rw [State.modLink_link_eq]
  split
  · exact h (hs l)
  · exact hs l'

/-- A property of link records that every change of the edits keeps and alignment does not touch. -/
theorem State.Edit.links_keep {P : Link → Prop} (hkeeps : ∀ x y : Link, x.Keeps y → P x → P y)
    (halign : ∀ x a, P x → P { x with align := a }) (e : s.Edit t) (hs : ∀ l, P (s.link l)) : ∀ l, P (t.link l) := by
  cases e with
  | link l f keeps _ => exact State.modLink_keeps (hkeeps _ _ keeps) hs
  | regroup l f cause keeps _ =>
    intro l'
    rw [State.reEvaluate_link_frame]
    exact halign _ _ (State.modLink_keeps (hkeeps _ _ keeps) hs l')
  | reEvaluate g cause cleared =>
    intro l'
    rw [State.reEvaluate_link_frame]
    exact halign _ _ (hs l')
  | setGroup g f cause =>
    intro l'
    rw [State.reEvaluate_link_frame]
    exact halign _ _ (hs l')
  | expireHold g =>
    intro l'
    rw [State.expireHold_link_frame]
    exact halign _ _ (hs l')
  | notify | thresholds | group | service | enable | zone | input | arbiter | combiner => exact hs

/-! ## Members (chapter 3) -/

/-- R49, R53, R55: every link that is a member of a group is aligned to it. -/
def State.AllAligned (s : State) : Prop :=
  ∀ l, (s.link l).mgr.state = .active → (s.link l).AlignedTo (s.group (s.link l).settings.group)

theorem State.membersAligned_iff (s : State) : s.membersAligned ↔ s.AllAligned := Iff.rfl

/-- R49, R53: a re-evaluation aligns its group's members, whatever they were, and leaves the others. -/
theorem State.reEvaluate_allAligned {g : GroupIx} (cause : AlignCause) (cleared : List (LinkIx × Bool))
    (hs : ∀ l, (s.link l).mgr.state = .active → (s.link l).settings.group ≠ g → (s.link l).AlignedTo (s.group (s.link l).settings.group)) :
    (s.reEvaluate g cause cleared).AllAligned := by
  intro l hl
  have hframe := s.reEvaluate_link_frame g cause cleared l
  have hactive : (s.link l).mgr.state = .active := by rw [hframe] at hl; exact hl
  have hgroup : ((s.reEvaluate g cause cleared).link l).settings.group = (s.link l).settings.group := by rw [hframe]
  rw [hgroup, State.reEvaluate_group, State.realigned_group, State.reEvaluate_link]
  by_cases hg : (s.link l).settings.group = g
  · have hmem := (s.mem_members g l).mpr ⟨hactive, hg⟩
    obtain ⟨hempty, -⟩ | ⟨m, -, hlong, hmax⟩ := s.longestPath_cases (s.members g)
    · rw [hempty] at hmem
      cases hmem
    · obtain ⟨t0, ht0, hle, hhold⟩ := (s.group g).reEvaluated_some (s.link m).rng.path
      have hpath := hmax l hmem
      rw [if_pos hg.symm, State.realigned_link, State.reEvaluatedGroup, hlong, ht0]
      dsimp only
      rw [if_pos hmem, Link.towards_eq]
      refine ⟨t0, ht0, ?_, fun h hh => ?_, rfl, rfl, rfl⟩
      · rw [(Group.reEvaluated_frame _ _).1]
        exact (Nat.add_le_add_right hpath _).trans hle
      · rw [(Group.reEvaluated_frame _ _).1, hhold h hh]
        exact Nat.add_le_add_right hpath _
  · rw [if_neg (Ne.symm hg), s.realigned_link_of_not_mem g fun h => hg ((s.mem_members g l).mp h).2]
    exact hs l hactive hg

/-- R51: the members follow the candidate of an expired hold. -/
theorem State.expireHold_allAligned (g : GroupIx) (hs : s.AllAligned) : (s.expireHold g).AllAligned := by
  obtain ⟨-, e⟩ | ⟨h, n, hh, e⟩ := s.expireHold_cases g <;> rw [e]
  · exact hs
  · intro l hl
    set u := s.modGroup g (fun x => { x with target := some h.candidate, hold := none }) with hu
    have hug : u.group g = { s.group g with target := some h.candidate, hold := none } := by simp [hu]
    have hmem : u.members g = s.members g := rfl
    have hlink : ((u.computeKStar g).notify n).link l = if l ∈ s.members g then (s.link l).towards h.candidate else s.link l := by
      rw [State.notify_link, State.computeKStar_link, hug, hmem]; rfl
    have hgroups (g' : GroupIx) : ((u.computeKStar g).notify n).group g' = u.group g' := by rw [State.computeKStar_eq]; rfl
    rw [hlink] at hl ⊢
    rw [hgroups]
    split at hl
    · next hm =>
      obtain ⟨hactive, hg⟩ := (s.mem_members g l).mp hm
      obtain ⟨t0, ht0, hle, hcand, -⟩ := hs l hactive
      rw [hg] at hle hcand
      rw [if_pos hm, Link.towards_eq]
      dsimp only
      rw [hg, hug]
      exact ⟨h.candidate, rfl, hcand h hh, fun _ hx => by simp at hx, rfl, rfl, rfl⟩
    · next hm =>
      have hg : (s.link l).settings.group ≠ g := fun hg => hm ((s.mem_members g l).mpr ⟨hl, hg⟩)
      rw [if_neg hm, hu, State.modGroup_group_other _ _ _ _ (Ne.symm hg)]
      exact hs l hl

theorem Link.AlignedTo.of_sameAim {x : Link} {g g' : Group} (h : x.AlignedTo g) (aim : g.SameAim g') : x.AlignedTo g' := by
  obtain ⟨hguard, htarget, hhold⟩ := aim
  obtain ⟨t0, ht0, hle, hcand, hrest⟩ := h
  refine ⟨t0, by rw [htarget, ht0], by rwa [hguard], fun h hh => ?_, hrest⟩
  rw [hh] at hhold
  obtain ⟨h0, hh0, hc⟩ := Option.map_eq_some_iff.mp hhold.symm
  rw [hguard, ← hc]
  exact hcand h0 hh0

theorem State.Edit.keeps_allAligned (e : s.Edit t) (hs : s.AllAligned) : t.AllAligned := by
  cases e with
  | link l f _ aligned =>
    intro l' hl'
    rw [State.modLink_group]
    rw [State.modLink_link_eq] at hl' ⊢
    split at hl'
    · next h =>
      obtain ⟨hactive, hgroup, hal⟩ := aligned hl'
      rw [if_pos h, hgroup]
      exact hal _ (hs l hactive)
    · next h =>
      rw [if_neg h]
      exact hs l' hl'
  | regroup l f cause _ group =>
    refine State.reEvaluate_allAligned _ _ fun l' hl' hg => ?_
    by_cases h : l = l'
    · subst h
      rw [State.modLink_link_same] at hg
      exact absurd group hg
    · rw [State.modLink_link_other _ _ _ _ h] at hl' ⊢
      exact hs l' hl'
  | reEvaluate g cause cleared => exact State.reEvaluate_allAligned _ _ fun l hl _ => hs l hl
  | setGroup g f cause =>
    refine State.reEvaluate_allAligned _ _ fun l hl hg => ?_
    rw [State.modGroup_link] at hl hg ⊢
    rw [State.modGroup_group_other _ _ _ _ (Ne.symm hg)]
    exact hs l hl
  | group g f aim =>
    intro l hl
    have hl0 := hs l hl
    rw [State.modGroup_link, State.modGroup_group_eq]
    split
    · next h => rw [← h] at hl0; exact hl0.of_sameAim aim
    · exact hl0
  | expireHold g => exact State.expireHold_allAligned g hs
  | notify | thresholds | service | enable | zone | input | arbiter | combiner => exact hs

theorem Link.DelaysBounded.towards {x : Link} (h : x.DelaysBounded) (t : Nat) : (x.towards t).DelaysBounded := by
  rw [Link.towards_eq]
  exact ⟨h.1, min_le_left _ _⟩

theorem State.reEvaluate_delaysBounded (g : GroupIx) (cause : AlignCause) (cleared : List (LinkIx × Bool))
    (hs : ∀ l, (s.link l).DelaysBounded) (l : LinkIx) : ((s.reEvaluate g cause cleared).link l).DelaysBounded := by
  rw [State.reEvaluate_link, State.realigned_link]
  split
  · split
    · exact (hs l).towards _
    · exact hs l
  · exact hs l

theorem State.Edit.keeps_delaysBounded (e : s.Edit t) (hs : ∀ l, (s.link l).DelaysBounded) : ∀ l, (t.link l).DelaysBounded := by
  cases e with
  | link l f keeps _ => exact State.modLink_keeps keeps.delays hs
  | regroup l f cause keeps _ => exact State.reEvaluate_delaysBounded _ _ _ (State.modLink_keeps keeps.delays hs)
  | reEvaluate g cause cleared => exact State.reEvaluate_delaysBounded _ _ _ hs
  | setGroup g f cause => exact State.reEvaluate_delaysBounded _ _ _ hs
  | expireHold g =>
    intro l
    obtain ⟨-, e⟩ | ⟨h, n, -, e⟩ := s.expireHold_cases g <;> rw [e]
    · exact hs l
    · rw [State.notify_link, State.computeKStar_link]
      split
      · split
        · exact (hs l).towards _
        · exact hs l
      · exact hs l
  | notify | thresholds | group | service | enable | zone | input | arbiter | combiner => exact hs

/-! ## Services, plans and the work list -/

/-- A service record's share of a sum over the enabled services. -/
def Service.share (f : Service → Nat) (x : Service) : Nat := if x.state = .enabled then f x else 0

theorem mem_allServices (v : ServiceIx) : v ∈ allServices := by revert v; decide

/-- R66: a sum over the enabled services once one record has changed. -/
theorem State.enabledSum_modService (v : ServiceIx) (k : Service → Service) (f : Service → Nat) :
    (s.modService v k).enabledSum f + (s.service v).share f = s.enabledSum f + (k (s.service v)).share f := by
  have hsum (u : State) : u.enabledSum f = (u.service v).share f + ((allServices.erase v).map (fun w => (u.service w).share f)).sum := by
    have hperm := ((List.perm_cons_erase (mem_allServices v)).map (fun w => (u.service w).share f)).sum_eq
    simpa [State.enabledSum, Service.share] using hperm
  have hothers : (allServices.erase v).map (fun w => ((s.modService v k).service w).share f) =
      (allServices.erase v).map (fun w => (s.service w).share f) := by
    refine List.map_congr_left fun w hw => ?_
    have hne : w ≠ v := ((allServices_nodup.mem_erase_iff).mp hw).1
    rw [State.modService_service_other _ _ _ _ (Ne.symm hne)]
  rw [hsum (s.modService v k), hsum s, hothers, State.modService_service_same]
  omega

theorem Service.Keeps.share_le {x y : Service} (h : x.Keeps y) :
    y.share Service.stagingDemand ≤ x.share Service.stagingDemand ∧ y.share Service.uplinkDemand ≤ x.share Service.uplinkDemand := by
  unfold Service.share
  by_cases hy : y.state = .enabled
  · obtain ⟨hx, hstaging, huplink⟩ := h.demand hy
    simp [hx, hy, hstaging, huplink]
  · simp [hy]

theorem State.Edit.keeps_capacityHeld (e : s.Edit t) (hs : s.capacityHeld) : t.capacityHeld := by
  obtain ⟨hstaging, huplink⟩ := hs
  cases e with
  | service v f keeps =>
    have h1 := s.enabledSum_modService v f Service.stagingDemand
    have h2 := s.enabledSum_modService v f Service.uplinkDemand
    obtain ⟨h3, h4⟩ := keeps.share_le
    exact ⟨by omega, by omega⟩
  | enable v b isDefined staging uplink =>
    have h1 := s.enabledSum_modService v (fun x => x.enable b) Service.stagingDemand
    have h2 := s.enabledSum_modService v (fun x => x.enable b) Service.uplinkDemand
    have h3 : (s.service v).share Service.stagingDemand = 0 := by simp [Service.share, isDefined]
    have h4 : (s.service v).share Service.uplinkDemand = 0 := by simp [Service.share, isDefined]
    have h5 : ((s.service v).enable b).share Service.stagingDemand = (s.service v).stagingDemand := rfl
    have h6 : ((s.service v).enable b).share Service.uplinkDemand = (s.service v).uplinkDemand := rfl
    exact ⟨by omega, by omega⟩
  | regroup | reEvaluate | setGroup =>
    simp only [State.capacityHeld, State.enabledSum, State.reEvaluate_service, State.modLink_service, State.modGroup_service]
    exact ⟨hstaging, huplink⟩
  | expireHold g => rw [State.expireHold_frame]; exact ⟨hstaging, huplink⟩
  | notify | thresholds | link | group | zone | input | arbiter | combiner => exact ⟨hstaging, huplink⟩

theorem State.modService_keeps {P : Service → Prop} {v : ServiceIx} {f : Service → Service} (h : P (s.service v) → P (f (s.service v)))
    (hs : ∀ v, P (s.service v)) (v' : ServiceIx) : P ((s.modService v f).service v') := by
  rw [State.modService_service_eq]
  split
  · exact h (hs v)
  · exact hs v'

/-- A property of service records that the edits' changes keep. -/
theorem State.Edit.services_keep {P : Service → Prop} (hkeeps : ∀ x y : Service, x.Keeps y → P x → P y)
    (henable : ∀ x b, P x → P (x.enable b)) (e : s.Edit t) (hs : ∀ v, P (s.service v)) : ∀ v, P (t.service v) := by
  cases e with
  | service v f keeps => exact State.modService_keeps (hkeeps _ _ keeps) hs
  | enable v b => exact State.modService_keeps (henable _ _) hs
  | regroup | reEvaluate | setGroup => intro v; rw [State.reEvaluate_service]; exact hs v
  | expireHold g => rw [State.expireHold_frame]; exact hs
  | notify | thresholds | link | group | zone | input | arbiter | combiner => exact hs

theorem Service.enable_canonical (x : Service) (b : Seq16) : (x.enable b).Canonical := by
  refine ⟨fun n r hr => ?_⟩
  have hcreated (n : StreamName) : (StreamRec.created b n).wf := ⟨rfl, rfl, fun _ e => by cases e⟩
  cases n with
  | normal => cases hr; exact hcreated .normal
  | a => obtain ⟨_, -, rfl⟩ := Option.map_eq_some_iff.mp hr; exact hcreated .a
  | b => obtain ⟨_, -, rfl⟩ := Option.map_eq_some_iff.mp hr; exact hcreated .b

theorem State.Edit.keeps_plansFit (e : s.Edit t) (hs : ∀ z, (s.zone z).Fits) : ∀ z, (t.zone z).Fits := by
  cases e with
  | zone z f fits =>
    intro z'
    rw [State.modZone_zone_eq]
    split
    · exact fits (hs z)
    · exact hs z'
  | regroup | reEvaluate | setGroup => intro z; rw [State.reEvaluate_zone]; exact hs z
  | expireHold g => rw [State.expireHold_frame]; exact hs
  | notify | thresholds | link | group | service | enable | input | arbiter | combiner => exact hs

/-- A property of the combiner that the edits' changes of the work list keep. -/
theorem State.Edit.combiner_keeps {P : Combiner → Prop} (hkeeps : ∀ c d : Combiner, c.Keeps d → P c → P d) (e : s.Edit t)
    (hs : P s.combiner) : P t.combiner := by
  cases e with
  | combiner c keeps => exact hkeeps _ _ keeps hs
  | regroup | reEvaluate | setGroup => rw [State.reEvaluate_combiner]; exact hs
  | expireHold g => rw [State.expireHold_frame]; exact hs
  | notify | thresholds | link | group | service | enable | zone | input | arbiter => exact hs

/-! ## The invariants of the records -/

/-- R3, R18 to R20, R91 of the whole part. -/
theorem State.legal_iff (s : State) :
    (∀ l, (s.link l).Legal) ↔ s.laserRight ∧ s.exchangesPlaced ∧ s.closedChannelsEmpty ∧ s.pendingBounded :=
  ⟨fun h => ⟨fun l => (h l).laser, fun l => (h l).exchange, fun l => (h l).closed, fun l => (h l).pending⟩,
    fun ⟨h1, h2, h3, h4⟩ l => ⟨h1 l, h2 l, h3 l, h4 l⟩⟩

/-- R58, R70, R137 of the whole part. -/
theorem State.storesCanonical_iff (s : State) : s.storesCanonical ↔ (∀ l, (s.link l).Canonical) ∧ (∀ v, (s.service v).Canonical) ∧
    ∀ b, b ∈ s.combiner.workList → samplesWf b.words = true := by
  constructor
  · rintro ⟨hl, hv, hb⟩
    exact ⟨fun l => ⟨(hl l).1, (hl l).2.1, fun h e => ⟨((hl l).2.2 h e).1, ((hl l).2.2 h e).2.1, ((hl l).2.2 h e).2.2⟩⟩,
      fun v => ⟨hv v⟩, hb⟩
  · rintro ⟨hl, hv, hb⟩
    exact ⟨fun l => ⟨(hl l).now, (hl l).before, fun h e => ⟨((hl l).rx h e).oldest, ((hl l).rx h e).middle, ((hl l).rx h e).newest⟩⟩,
      fun v => (hv v).streams, hb⟩

end

end Sys2Proof.Machine
end

section
/-! Every command as a chain of edits and of changes to the memory path, the order unit and the notice unit alone; and the invariants of the
records, which every step keeps. -/

namespace Sys2Proof.Machine

open Sys2Proof

/-- t is s beside the memory path, the order unit, the notice unit, the poster, the timebase and the commands waiting, with the queues
within their bounds (R159, R173). -/
structure State.SameRecords (s t : State) : Prop where
  eq : t = { s with path := t.path, orders := t.orders, notices := t.notices, poster := t.poster, time := t.time, pending := t.pending }
  postings : s.postingQueueBounded → t.postingQueueBounded
  notices : s.noticeQueueBounded → t.noticeQueueBounded

/-- t is s after a chain of edits and of changes beside the records. -/
abbrev State.Moves : State → State → Prop := Relation.ReflTransGen (fun s t => s.Edit t ∨ s.SameRecords t)

theorem State.Moves.refl (s : State) : s.Moves s := Relation.ReflTransGen.refl
theorem State.Moves.trans {s t u : State} (h : s.Moves t) (k : t.Moves u) : s.Moves u := Relation.ReflTransGen.trans h k
theorem State.Edits.moves {s t : State} (e : s.Edits t) : s.Moves t := by
  induction e with
  | refl => exact .refl s
  | tail _ e ih => exact ih.tail (.inl e)
theorem State.SameRecords.moves {s t : State} (e : s.SameRecords t) : s.Moves t := Relation.ReflTransGen.single (.inr e)

theorem State.Moves.foldl {α : Type} {f : State → α → State} (h : ∀ (s : State) a, s.Moves (f s a)) (xs : List α) (s : State) :
    s.Moves (xs.foldl f s) :=
  foldl_induct (fun t => s.Moves t) f (fun t a ht => ht.trans (h t a)) xs s (.refl s)

section
variable (s : State)

variable {s} in
theorem State.modPath_moves {f : MemPath → MemPath} (h : s.path.queue.length ≤ 64 → (f s.path).queue.length ≤ 64) : s.Moves (s.modPath f) :=
  SameRecords.moves ⟨rfl, h, id⟩

variable {s} in
/-- A posting joins a queue with room. -/
theorem State.push_moves {p : MemPath → Posting} (h : s.path.queue.length < 64) : s.Moves (s.modPath (fun m => m.push (p m))) :=
  State.modPath_moves fun _ => by simpa using h

theorem State.modOrders_moves (f : OrderUnit → OrderUnit) : s.Moves (s.modOrders f) := SameRecords.moves ⟨rfl, id, id⟩

variable {s} in
theorem State.modNotices_moves {f : NoticeUnit → NoticeUnit} (h : s.notices.queue.length ≤ 16 → (f s.notices).queue.length ≤ 16) :
    s.Moves (s.modNotices f) := SameRecords.moves ⟨rfl, id, h⟩

theorem State.arbitrated_moves : s.Moves s.arbitrated := State.modPath_moves fun h => by simpa using h

/-! ## The queues -/

theorem MemPath.hasRoom_iff (m : MemPath) : m.hasRoom = true ↔ m.queue.length < 64 := decide_eq_true_iff

@[simp] theorem MemPath.countOwned_queue (m : MemPath) (p : Place) : (m.countOwned p).queue = m.queue := by cases p <;> rfl

@[simp] theorem MemPath.withhold_queue (m : MemPath) (ws : List AccessWord) : (m.withhold ws).queue = m.queue := by
  unfold MemPath.withhold
  split
  · rfl
  · simp

@[simp] theorem NoticeUnit.enterHold_queue (u : NoticeUnit) : u.enterHold.queue = u.queue := by unfold NoticeUnit.enterHold; split <;> rfl
@[simp] theorem NoticeUnit.leaveHold_queue (u : NoticeUnit) : u.leaveHold.queue = u.queue := by unfold NoticeUnit.leaveHold; split <;> rfl
@[simp] theorem NoticeUnit.refreshIrq_queue (u : NoticeUnit) : u.refreshIrq.queue = u.queue := rfl
@[simp] theorem NoticeUnit.recordHanded_queue (u : NoticeUnit) (n : Notice) (k : Nat) : (u.recordHanded n k).queue = u.queue := by
  simp [NoticeUnit.recordHanded]
@[simp] theorem NoticeUnit.recordPosted_queue (u : NoticeUnit) : u.recordPosted.queue = u.queue := rfl

@[simp] theorem NoticeUnit.decide_queue (u : NoticeUnit) (n : Notice) (rest : List Notice) : (u.decide n rest).queue = rest := by
  unfold NoticeUnit.decide
  split <;> rfl

@[simp] theorem NoticeUnit.takeConsumer_queue (u : NoticeUnit) (w : BusWord) : (u.takeConsumer w).queue = u.queue := by
  unfold NoticeUnit.takeConsumer
  dsimp only
  split
  · split
    · simp
    · rfl
  · rfl

@[simp] theorem NoticeUnit.rethreshold_queue (u : NoticeUnit) (h r : Nat) (on : Bool) : (u.rethreshold h r on).queue = u.queue := by
  simp [NoticeUnit.rethreshold]

/-! ## Boundaries (log 2, log 3, log 19) -/

theorem State.Edits.thenMoves {s t u : State} (h : s.Edits t) (k : t.Moves u) : s.Moves u := h.moves.trans k

theorem State.modTime_moves (f : Timebase → Timebase) : s.Moves (s.modTime f) := SameRecords.moves ⟨rfl, id, id⟩

theorem State.poster_moves (p : Poster) : s.Moves { s with poster := p } := SameRecords.moves ⟨rfl, id, id⟩

theorem State.reportOwned_moves : s.Moves s.reportOwned := by
  unfold State.reportOwned
  dsimp only
  split
  · exact .refl s
  · exact (s.notify_edits _).thenMoves (State.modPath_moves fun h => h)

theorem State.snapshot_moves : s.Moves s.snapshot := SameRecords.moves ⟨rfl, id, id⟩

theorem State.superframeWork_moves : s.Moves s.superframeWork := by
  have hcount (s : State) (g : GroupIx) : s.Edits (s.modGroup g Group.countHold) :=
    (State.Edit.group g _ (s.group g).countHold_sameAim).edits
  unfold State.superframeWork
  extract_lets t1 t2 t3 t4
  have h1 : s.Edits t1 := .forGroups hcount s
  have h2 : t1.Edits t2 := .forLinks State.countTracking_edits t1
  have h3 : t2.Edits t3 := .forServices State.reportStreams_edits t2
  have h4 : t3.Edits t4 := .forServices State.reportUplink_edits t3
  exact (h1.trans (h2.trans (h3.trans h4))).thenMoves
    (t4.reportOwned_moves.trans ((State.snapshot_moves _).trans (State.modTime_moves _ _)))

theorem State.settleLink_edits (l : LinkIx) : s.Edits (s.settleLink l) := by
  unfold State.settleLink
  exact (s.settlePeriodEndIfDue_edits l).trans <| (State.attachIfDue_edits _ l).trans <| (State.debounceEndIfDue_edits _ l).trans <|
    (State.helloWaitExpiryIfDue_edits _ l).trans <| (State.quiescingEndIfDue_edits _ l).trans <|
    (State.deadlinesIfDue_edits _ l).trans <| (State.echoWindowCloseIfDue_edits _ l).trans <|
    (State.trackWindowCloseIfDue_edits _ l).trans (State.trackingMarkIfDue_edits _ l)

theorem State.settle_moves : s.Moves s.settle := by
  unfold State.settle
  extract_lets t1 t2 t3 t4
  have h1 : s.Moves t1 := by
    unfold t1
    split
    · exact s.superframeWork_moves
    · exact .refl s
  have h2 : t1.Edits t2 := .forLinks State.settleLink_edits t1
  have h3 : t2.Edits t3 := .forGroups State.holdExpiryIfDue_edits t2
  have h4 : t3.Edits t4 := .forInputs State.registeredChangeIfDue_edits t3
  exact h1.trans (h2.trans (h3.trans (h4.trans ((State.Edits.forZones State.planSwitchIfDue_edits t4).trans (State.joinSwitchAll_edits _))))).moves

/-- R18: the transmit queue leaves in the frame of the boundary. -/
theorem State.departing_edits (l : LinkIx) : s.Edits (s.modMgr l Manager.departing) :=
  State.modMgr_edits rfl rfl (fun h hc => ⟨(h.closed hc).1, (h.closed hc).2.1, rfl, (h.closed hc).2.2.1⟩) fun h => h.pending

theorem State.beginBoundary_moves : s.Moves s.beginBoundary := by
  unfold State.beginBoundary
  exact s.settle_moves.trans ((State.modTime_moves _ _).trans (State.Edits.forLinks State.departing_edits _).moves)

theorem State.atBoundary_moves : s.Moves s.atBoundary := by
  unfold State.atBoundary
  split
  · exact .refl s
  · exact s.beginBoundary_moves

theorem Manager.countPhase_frame (m : Manager) : m.countPhase = { m with phaseCount := m.countPhase.phaseCount } := by
  unfold Manager.countPhase
  split <;> rfl

theorem State.linkBoundary_edits (l : LinkIx) : s.Edits (s.linkBoundary l) := by
  unfold State.linkBoundary
  refine State.Edits.trans (State.modLink_edits ?_) (State.startFrame_edits _ l)
  simp only [Link.core, Manager.look]
  rw [Manager.countPhase_frame]

theorem State.blockWork_moves (levels : BitVec 4) : s.Moves (s.blockWork levels) := by
  unfold State.blockWork
  refine State.Edits.thenMoves ?_ (State.modTime_moves _ _)
  exact s.combinePoint_edits.trans <| (State.advanceHistories_edits _).trans <| (State.launchStreams_edits _).trans <|
    (State.selectAll_edits _).trans <| (State.sampleContacts_edits _ levels).trans <| (State.slewAll_edits _).trans <|
    (State.Edits.forLinks State.linkBoundary_edits _).trans (State.pushRecord_edits _)

theorem State.superframeBoundary_moves : s.Moves s.superframeBoundary := by
  unfold State.superframeBoundary
  split
  · exact s.superframeWork_moves
  · split
    · exact s.beginBoundary_moves.trans (State.superframeWork_moves _)
    · exact .refl s

theorem State.boundaryEvent_moves {due : State → Bool} {act : State → State} (hact : ∀ t : State, t.Edits (act t)) :
    s.Moves (s.boundaryEvent due act) := by
  obtain ⟨-, e⟩ | ⟨-, -, -, e⟩ | ⟨-, -, e⟩ := s.boundaryEvent_cases due act <;> rw [e]
  · exact (hact s).moves
  · exact s.atBoundary_moves.trans (hact _).moves

theorem State.registeredChangeEvent_moves (i : InputIx) : s.Moves (s.registeredChangeEvent i) := by
  unfold State.registeredChangeEvent
  split
  · exact (s.registeredChange_edits i).moves
  · split
    · exact s.atBoundary_moves.trans ((State.registeredChange_edits _ i).trans (State.modInput_edits _ i _)).moves
    · exact .refl s

/-! ## The order unit (10.1) -/

theorem State.handResult_moves (p : Posting) : s.Moves (s.handResult p) := by
  obtain ⟨hroom, h⟩ | ⟨-, h⟩ := s.handResult_cases p <;> rw [h]
  · exact State.push_moves hroom
  · exact s.modOrders_moves _

theorem State.execute_moves (slot : Fin 32) (o : Order) : s.Moves (s.execute slot o) :=
  (takeByCode_edits s o).moves.trans ((State.modOrders_moves _ _).trans (State.handResult_moves _ _))

theorem State.takeNext_moves : s.Moves s.takeNext := by
  obtain ⟨-, -, h⟩ | ⟨-, h⟩ := s.takeNext_cases <;> rw [h]
  exact s.execute_moves _ _

theorem State.resultLanded_moves : s.Moves s.resultLanded := (s.modOrders_moves _).trans (State.takeNext_moves _)

theorem State.takeProducer_moves (p : Fin 32) : s.Moves (s.takeProducer p) := by
  unfold State.takeProducer
  dsimp only
  split
  · exact (s.modOrders_moves _).trans (State.takeNext_moves _)
  · split
    · exact .refl s
    · exact s.modOrders_moves _

theorem State.takeProducerWord_moves (w : BusWord) : s.Moves (s.takeProducerWord w) := by
  unfold State.takeProducerWord
  split
  · exact s.takeProducer_moves _
  · exact .refl s

theorem State.submit_moves (o : Order) : s.Moves (s.submit o) :=
  (s.modOrders_moves _).trans ((State.takeProducer_moves _ _).trans (State.arbitrated_moves _))

/-! ## The memory path (chapter 9) -/

theorem State.tapWord_moves (x : AccessWord) : s.Moves (s.tapWord x) := by
  unfold State.tapWord
  dsimp only
  split
  · exact s.modOrders_moves _
  · exact s.takeProducerWord_moves _
  · exact State.modNotices_moves fun h => by simpa using h
  · exact (State.modService_edits_of_stays (Service.takeWord_stays ..)).moves
  · exact .refl s
  · exact .refl s
  · exact .refl s
  · exact .refl s
  · exact .refl s
  · exact .refl s

theorem State.admitWrite_moves (ws : List AccessWord) : s.Moves (s.admitWrite ws) := by
  unfold State.admitWrite
  dsimp only
  split
  · exact State.modPath_moves fun h => by simpa using h
  · exact (State.modPath_moves (f := fun m => m.withhold ws) fun h => by simpa using h).trans (State.modPath_moves fun h => h)

theorem State.hostWrite_moves (a : BitVec 28) (ws : List BusWord) : s.Moves (s.hostWrite a ws) := by
  unfold State.hostWrite
  split
  · exact .refl s
  · split
    · exact (State.modPath_moves fun h => h).trans (State.arbitrated_moves _)
    · exact (State.Moves.foldl State.tapWord_moves _ s).trans ((State.admitWrite_moves _ _).trans (State.arbitrated_moves _))

theorem State.hostRead_moves (a : BitVec 28) (n : Nat) : s.Moves (s.hostRead a n) := by
  unfold State.hostRead
  dsimp only
  split
  · exact .refl s
  · split <;> exact (State.modPath_moves fun h => h).trans (State.arbitrated_moves _)

/-! ## Producers and completions (9.4, 10.2, 10.3) -/

theorem State.handRecord_moves : s.Moves s.handRecord := by
  unfold State.handRecord
  split
  · exact .refl s
  · split
    · next hroom => exact (State.push_moves (s.path.hasRoom_iff.mp hroom)).trans (State.modNotices_moves fun h => by simpa using h)
    · exact .refl s

theorem State.noticeHandover_moves : s.Moves s.noticeHandover := by
  unfold State.noticeHandover
  split
  · exact .refl s
  · split
    · exact .refl s
    · next n rest hq =>
      refine State.Moves.trans (State.modNotices_moves fun h => ?_) (State.handRecord_moves _)
      rw [hq] at h
      rw [NoticeUnit.decide_queue]
      exact Nat.le_of_succ_le h

theorem State.noticesLost_moves : s.Moves s.noticesLost := by
  unfold State.noticesLost
  split
  · exact (State.modNotices_moves fun h => h).trans (State.handRecord_moves _)
  · exact .refl s

theorem State.enqueueFrom_moves (p : Producer) : s.Moves (s.enqueueFrom p) := by
  unfold State.enqueueFrom
  split
  · next hroom => cases p with
    | orderUnit =>
      dsimp only
      unfold State.handWaitingResult
      split
      · exact (State.push_moves (s.path.hasRoom_iff.mp hroom)).trans (State.modOrders_moves _ _)
      · exact .refl s
    | noticeUnit => exact s.handRecord_moves
    | statusPoster =>
      dsimp only
      unfold State.handPage
      split
      · exact (State.push_moves (s.path.hasRoom_iff.mp hroom)).trans (State.poster_moves _ _)
      · exact .refl s
    | combiner =>
      dsimp only
      unfold State.handBlock
      split
      · exact (State.push_moves (s.path.hasRoom_iff.mp hroom)).trans (State.Edits.moves (State.combinerHanded_edits _))
      · exact .refl s
  · exact .refl s

theorem State.serve_moves : s.Moves s.serve := by
  unfold State.serve
  split
  · exact s.enqueueFrom_moves _
  · exact .refl s

theorem State.reportCompletion_moves (p : Producer) : s.Moves (s.reportCompletion p) := by
  cases p with
  | orderUnit => exact s.resultLanded_moves
  | noticeUnit => exact State.modNotices_moves fun h => by simpa using h
  | statusPoster | combiner => exact .refl s

theorem State.completePort_moves : s.Moves s.completePort := by
  unfold State.completePort
  split
  · exact .refl s
  · exact State.modPath_moves fun h => h
  · exact State.modPath_moves fun h => h
  · split
    · next p _ _ =>
      have hd : s.Moves (s.modPath MemPath.headDone) :=
        State.modPath_moves fun h => by simp only [MemPath.headDone, List.length_tail]; omega
      have h := hd.trans (State.reportCompletion_moves _ p.producer)
      unfold State.completeHead
      dsimp only
      split
      · exact h
      · exact h.trans (State.serve_moves _)
    · exact State.modPath_moves fun h => h

theorem State.releaseHeld_moves : s.Moves s.releaseHeld := by
  unfold State.releaseHeld
  split
  · split
    · split
      · exact s.completePort_moves
      · split
        · exact State.modPath_moves fun h => h
        · exact .refl s
    · exact .refl s
  · exact .refl s

theorem State.resetAsserted_moves : s.Moves s.resetAsserted := by
  have ht : s.Moves { s with poster := { s.poster with page := none } } := s.poster_moves _
  unfold State.resetAsserted
  dsimp only
  exact ht.trans ((State.modPath_moves fun _ => Nat.zero_le _).trans ((State.modOrders_moves _ _).trans (State.modNotices_moves fun h => h)))

/-! ## Commands -/

variable {s} {t : State}

theorem samplesWf_of_samplesOk {bound : Nat} {x : Samples} (h : samplesOk bound x = true) : samplesWf x = true := by
  have hfrom (lo : Nat) (k : Nat) (v : Word) (rest : Samples) (hlo : lo ≤ k) (h : samplesOk bound ((k, v) :: rest) = true) :
      samplesFrom lo ((k, v) :: rest) = true := by
    induction rest generalizing lo k v with
    | nil =>
      simp only [samplesOk, Bool.and_eq_true] at h
      simp only [samplesFrom, Bool.and_eq_true, decide_eq_true_eq]
      exact ⟨⟨hlo, h.2⟩, trivial⟩
    | cons e rest ih =>
      obtain ⟨k', v'⟩ := e
      simp only [samplesOk, Bool.and_eq_true, decide_eq_true_eq] at h
      rw [samplesFrom, Bool.and_eq_true, Bool.and_eq_true, decide_eq_true_eq]
      exact ⟨⟨hlo, h.1.2⟩, ih (k + 1) k' v' h.1.1 h.2⟩
  cases x with
  | nil => rfl
  | cons e rest => exact hfrom 0 e.1 e.2 rest (Nat.zero_le _) h

theorem State.running_moves {u : State} (hu : s.Moves u) (e : s.running u = .next t) : s.Moves t := by
  obtain rfl : (if s.path.inReset then s else u) = t := Host.Outcome.next.inj e
  split
  · exact .refl s
  · exact hu

theorem writeAccess_moves {a : BitVec 28} {ws : List BusWord} (e : writeAccess a ws s = .next t) : s.Moves t := by
  unfold writeAccess at e
  split at e
  · cases e; exact s.hostWrite_moves a ws
  · cases e

/-- A command makes edits and changes beside the records, or is the release of RESET. -/
theorem exec_moves (c : Instr) (e : exec c s = .next t) : s.Moves t ∨ ∃ straps, t = s.resetReleased straps := by
  cases c with
  | resetRelease straps =>
    obtain rfl : (if s.path.inReset then s.resetReleased straps else s) = t := Host.Outcome.next.inj e
    split
    · exact .inr ⟨straps, rfl⟩
    · exact .inl (.refl s)
  | blockBoundary levels => exact .inl (State.running_moves (s.atBoundary_moves.trans (State.blockWork_moves _ levels)) e)
  | superframeBoundary => exact .inl (State.running_moves s.superframeBoundary_moves e)
  | resetAssert => cases e; exact .inl (s.resetAsserted_moves.trans (State.arbitrated_moves _))
  | lockGained l => exact .inl (State.running_moves (s.lockGained_edits l).moves e)
  | lockLost l => exact .inl (State.running_moves (s.lockLost_edits l).moves e)
  | uplinkFrameArrival l f =>
    replace e : execUplinkFrameArrival l f s = .next t := e
    unfold execUplinkFrameArrival at e
    split at e
    · next h =>
      simp only [frameOk, Bool.and_eq_true] at h
      exact .inl (State.running_moves (State.takeFrame_edits (samplesWf_of_samplesOk h.2)).moves e)
    · cases e
  | attach l => exact .inl (State.running_moves (s.attachIfDue_edits l).moves e)
  | settlePeriodEnd l => exact .inl (State.running_moves (s.settlePeriodEndIfDue_edits l).moves e)
  | debounceEnd l => exact .inl (State.running_moves (s.debounceEndIfDue_edits l).moves e)
  | helloWaitExpiry l => exact .inl (State.running_moves (s.helloWaitExpiryIfDue_edits l).moves e)
  | quiescingEnd l => exact .inl (State.running_moves (s.quiescingEndIfDue_edits l).moves e)
  | requestDeadlineExpiry l => exact .inl (State.running_moves (s.boundaryEvent_moves (fun t => t.deadlinesIfDue_edits l)) e)
  | echoWindowClose l => exact .inl (State.running_moves (s.echoWindowCloseIfDue_edits l).moves e)
  | trackWindowClose l => exact .inl (State.running_moves (s.trackWindowCloseIfDue_edits l).moves e)
  | trackingMark l => exact .inl (State.running_moves (s.boundaryEvent_moves (fun t => t.trackingMark_edits l)) e)
  | holdExpiry g => exact .inl (State.running_moves (s.boundaryEvent_moves (fun t => t.holdExpiry_edits g)) e)
  | registeredChange i => exact .inl (State.running_moves (s.registeredChangeEvent_moves i) e)
  | planSwitch z => exact .inl (State.running_moves (s.boundaryEvent_moves (fun t => t.planSwitchIfDue_edits z)) e)
  | joinSwitchSuperframe => exact .inl (State.running_moves (s.boundaryEvent_moves State.joinSwitchAll_edits) e)
  | setService | enableService | disableService | clearService | setLink | linkListen | linkRange | linkActivate | linkQuiesce
  | linkAbort | linkDark | linkQuery | setGroup | setZone | zoneIncident | setLine | lineAck | breakinStart | breakinStop
  | setNotices | unknownOrder => exact .inl (State.running_moves (s.submit_moves _) e)
  | orderSlotWrite | commitWordWrite | streamSampleWrite | ownedAreaWrite | hostWrite => exact .inl (writeAccess_moves e)
  | orderProducerIndexWrite | noticeConsumerIndexWrite => cases e; exact .inl (s.hostWrite_moves _ _)
  | flushWordRead => cases e; exact .inl (s.hostRead_moves _ _)
  | heldAccessRelease => cases e; exact .inl (s.releaseHeld_moves.trans (State.arbitrated_moves _))
  | memoryPortCompletion => cases e; exact .inl (s.completePort_moves.trans (State.arbitrated_moves _))
  | postingEnqueue p => exact .inl (State.running_moves ((s.enqueueFrom_moves p).trans (State.arbitrated_moves _)) e)
  | noticeHandover => exact .inl (State.running_moves (s.noticeHandover_moves.trans (State.arbitrated_moves _)) e)
  | noticesLost => exact .inl (State.running_moves (s.noticesLost_moves.trans (State.arbitrated_moves _)) e)
  | hostRead a n =>
    replace e : execHostRead a n s = .next t := e
    unfold execHostRead at e
    split at e
    · cases e; exact .inl (s.hostRead_moves a n)
    · cases e

/-- A step makes edits and changes beside the records, or takes the records to their reset values. -/
theorem step_moves (e : step s = .next t) : s.Moves t ∨ ∃ u : State, ∃ straps, t = u.resetReleased straps := by
  unfold step at e
  split at e
  · cases e; exact .inl (.refl s)
  · next c rest _ =>
    obtain h | ⟨straps, h⟩ := exec_moves c e
    · exact .inl ((State.SameRecords.moves (t := { s with pending := rest }) ⟨rfl, id, id⟩).trans h)
    · exact .inr ⟨_, straps, h⟩

/-- What every edit keeps of the records, and they have at reset, every step keeps. -/
theorem step_keeps_records {P : State → Prop} (hedit : ∀ s t : State, s.Edit t → P s → P t)
    (hsame : ∀ s t : State, s.SameRecords t → P s → P t) (hreset : P State.reset) (hs : P s) (e : step s = .next t) : P t := by
  obtain h | ⟨u, straps, rfl⟩ := step_moves e
  · clear e
    induction h with
    | refl => exact hs
    | tail _ h ih =>
      obtain h | h := h
      · exact hedit _ _ h ih
      · exact hsame _ _ h ih
  · exact hsame State.reset _ ⟨rfl, fun _ => Nat.zero_le _, fun _ => Nat.zero_le _⟩ hreset

/-! ## The queues under an edit -/

/-- No edit touches the timebase, the memory path, the order unit, the poster or the commands waiting. -/
theorem State.Edit.frame (e : s.Edit t) :
    t.time = s.time ∧ t.path = s.path ∧ t.orders = s.orders ∧ t.poster = s.poster ∧ t.pending = s.pending := by
  cases e with
  | regroup l f cause | setGroup g f cause | reEvaluate => simp
  | expireHold g => rw [State.expireHold_frame]; exact ⟨rfl, rfl, rfl, rfl, rfl⟩
  | _ => exact ⟨rfl, rfl, rfl, rfl, rfl⟩

theorem State.Edits.frame (e : s.Edits t) :
    t.time = s.time ∧ t.path = s.path ∧ t.orders = s.orders ∧ t.poster = s.poster ∧ t.pending = s.pending :=
  e.keeps (P := fun t => t.time = s.time ∧ t.path = s.path ∧ t.orders = s.orders ∧ t.poster = s.poster ∧ t.pending = s.pending)
    (fun _ _ e h => ⟨e.frame.1.trans h.1, e.frame.2.1.trans h.2.1, e.frame.2.2.1.trans h.2.2.1, e.frame.2.2.2.1.trans h.2.2.2.1,
      e.frame.2.2.2.2.trans h.2.2.2.2⟩) ⟨rfl, rfl, rfl, rfl, rfl⟩

theorem State.Edit.notices_cases (e : s.Edit t) : t.notices = s.notices ∨ (∃ n, t.notices = s.notices.generate n) ∨
    ∃ h r on, t.notices = s.notices.rethreshold h r on := by
  cases e with
  | notify n => exact .inr (.inl ⟨n, rfl⟩)
  | thresholds h r on => exact .inr (.inr ⟨h, r, on, rfl⟩)
  | regroup l f cause => exact (State.reEvaluate_notices (s.modLink l f) _ cause []).imp_right .inl
  | reEvaluate g cause cleared => exact (s.reEvaluate_notices g cause cleared).imp_right .inl
  | setGroup g f cause => exact (State.reEvaluate_notices (s.modGroup g f) g cause []).imp_right .inl
  | expireHold g => exact (s.expireHold_notices g).imp_right .inl
  | _ => exact .inl rfl

theorem State.Edit.keeps_postings (e : s.Edit t) (h : s.postingQueueBounded) : t.postingQueueBounded := by
  rw [State.postingQueueBounded, e.frame.2.1]
  exact h

theorem State.Edit.keeps_notices (e : s.Edit t) (h : s.noticeQueueBounded) : t.noticeQueueBounded := by
  obtain k | ⟨n, k⟩ | ⟨hold, r, on, k⟩ := e.notices_cases <;> rw [State.noticeQueueBounded, k]
  · exact h
  · exact s.notices.generate_queue_length n h
  · rw [NoticeUnit.rethreshold_queue]
    exact h

/-! ## The records at reset -/

theorem Link.atReset_legal : Link.atReset.Legal := ⟨rfl, by simp [Link.atReset], fun _ => ⟨by decide, rfl, rfl, rfl⟩, by decide⟩

theorem State.reset_link (l : LinkIx) : State.reset.link l = .atReset := by
  simp [State.link, State.reset, State.atRelease]
theorem State.reset_service (v : ServiceIx) : State.reset.service v = .atReset := by
  simp [State.service, State.reset, State.atRelease]
theorem State.reset_zone (z : ZoneIx) : State.reset.zone z = .atReset := by
  simp [State.zone, State.reset, State.atRelease]

theorem State.reset_storesCanonical : State.reset.storesCanonical := by
  refine (State.storesCanonical_iff _).mpr ⟨fun l => ?_, fun v => ⟨fun n r hr => ?_⟩, fun b hb => by cases hb⟩
  · rw [State.reset_link]
    exact ⟨rfl, rfl, fun h e => by cases e⟩
  · rw [State.reset_service] at hr
    cases n <;> cases hr

theorem State.reset_allAligned : State.reset.AllAligned := fun l hl => by
  rw [State.reset_link] at hl
  cases hl

theorem State.reset_enabledSum (f : Service → Nat) : State.reset.enabledSum f = 0 := by
  simp [State.enabledSum, State.reset_service, Service.atReset]

end

/-! ## The invariants, each with what it has at reset -/

theorem State.reset_group (g : GroupIx) : State.reset.group g = .atReset := by
  simp [State.group, State.reset, State.atRelease]
theorem State.reset_input (i : InputIx) : State.reset.input i = .atReset := by
  simp [State.input, State.reset, State.atRelease]

theorem State.reset_legal (l : LinkIx) : (State.reset.link l).Legal := by
  rw [State.reset_link]
  exact Link.atReset_legal

theorem State.reset_delaysBounded : State.reset.delaysBounded := fun l => by
  rw [State.reset_link]
  decide

theorem State.reset_capacityHeld : State.reset.capacityHeld := ⟨by simp [State.reset_enabledSum], by simp [State.reset_enabledSum]⟩

theorem State.reset_classesBounded : State.reset.classesBounded := fun v => by
  rw [State.reset_service]
  decide

theorem State.reset_plansFit : State.reset.plansFit := fun z => by
  rw [State.reset_zone]
  exact ⟨Nat.zero_le 32, fun p e => by cases e⟩

/-! ## The statements -/

/-- Settles O53: a posting is handed over where the queue has room, and a notice past the sixteenth is lost. -/
theorem stepKeepsQueuesBounded : Obligations.StepKeepsQueuesBounded := fun _ _ h1 h2 e =>
  step_keeps_records (P := fun s => s.postingQueueBounded ∧ s.noticeQueueBounded) (fun _ _ e h => ⟨e.keeps_postings h.1, e.keeps_notices h.2⟩)
    (fun _ _ e h => ⟨e.postings h.1, e.notices h.2⟩) ⟨Nat.zero_le _, Nat.zero_le _⟩ ⟨h1, h2⟩ e

/-- Settles O56: every change of a link record keeps it legal. -/
theorem stepKeepsLinkRecords : Obligations.StepKeepsLinkRecords := fun s t h1 h2 h3 h4 e =>
  (State.legal_iff t).mp <| step_keeps_records (P := fun s => ∀ l, (s.link l).Legal)
    (fun _ _ e h => e.links_keep (fun _ _ k => k.legal) (fun _ a => Link.legal_align a) h)
    (fun _ _ e h => by rw [e.eq]; exact h) State.reset_legal
    ((State.legal_iff s).mpr ⟨h1, h2, h3, h4⟩) e

/-- Settles O57: a link's path and membership change with a re-evaluation of its group, which aligns every member. -/
theorem stepKeepsMembersAligned : Obligations.StepKeepsMembersAligned := fun s t h1 h2 e =>
  step_keeps_records (P := fun s => s.delaysBounded ∧ s.membersAligned)
    (fun _ _ e h => ⟨e.keeps_delaysBounded h.1, e.keeps_allAligned h.2⟩) (fun _ _ e h => by rw [e.eq]; exact h)
    ⟨State.reset_delaysBounded, State.reset_allAligned⟩ ⟨h1, h2⟩ e

/-- Settles O59: ENABLE_SERVICE asks for the capacity, a replan stages what fits, and a block joins the list where its service has none. -/
theorem stepKeepsPlansAndCapacity : Obligations.StepKeepsPlansAndCapacity := fun s t h1 h2 h3 h4 e =>
  step_keeps_records (P := fun s => s.capacityHeld ∧ s.classesBounded ∧ s.plansFit ∧ s.oneBlockPerService)
    (fun _ _ e h => ⟨e.keeps_capacityHeld h.1, e.services_keep (P := fun x => x.cls ≤ 7) (fun _ _ k => k.cls) (fun _ _ => id) h.2.1,
      e.keeps_plansFit h.2.2.1, e.combiner_keeps (P := fun c => (c.workList.map (fun b => b.service)).Nodup) (fun _ _ k => k.nodup) h.2.2.2⟩)
    (fun _ _ e h => by rw [e.eq]; exact h)
    ⟨State.reset_capacityHeld, State.reset_classesBounded, State.reset_plansFit, List.nodup_nil⟩
    ⟨h1, h2, h3, h4⟩ e

/-- Settles O60: samples come into a store through `setSample`, through whole stores in form, or leave it. -/
theorem stepKeepsStoresCanonical : Obligations.StepKeepsStoresCanonical := fun s t h e =>
  step_keeps_records (P := State.storesCanonical)
    (fun s t e h => by
      obtain ⟨hl, hv, hb⟩ := s.storesCanonical_iff.mp h
      exact t.storesCanonical_iff.mpr ⟨e.links_keep (fun _ _ k => k.canonical) (fun _ a => Link.canonical_align a) hl,
        e.services_keep (fun _ _ k => k.canonical) (fun x b _ => x.enable_canonical b) hv,
        e.combiner_keeps (P := fun c => ∀ b, b ∈ c.workList → samplesWf b.words = true) (fun _ _ k => k.canonical) hb⟩)
    (fun _ _ e h => by rw [e.eq]; exact h) State.reset_storesCanonical h e

end Sys2Proof.Machine
end

section
/-! The commands' queue, the state at reset, and the two invariants that a result posting of another producer breaks. -/

namespace Sys2Proof.Machine

open Sys2Proof

/-- Settles O1. -/
theorem stepExecutesFrontCommand : Obligations.StepExecutesFrontCommand := fun c rest s h => by
  unfold step
  rw [h]

/-- Settles O2: each record at reset is its own reset value, read off field by field. -/
theorem resetLeavesStatedValues : Obligations.ResetLeavesStatedValues := by
  have wires : ∀ w : Fin 4, Manager.atReset.wires[w] = false := by decide
  have tags : ∀ g : Tag, Manager.atReset.outstanding[g] = none := by decide
  have gates : ∀ v : ServiceIx, Link.atReset.gates[v] = none := by decide
  have members (g : GroupIx) : State.reset.members g = [] := by
    simp [State.members, State.isMember, State.reset_link, Link.atReset, Manager.atReset]
  have selection : ∀ v : ServiceIx, Zone.atReset.selection[v] = none := by decide
  refine ⟨⟨rfl, rfl, rfl⟩, fun l => ?_, fun l => ?_, fun l => ?_, fun l => ?_, fun g => ?_, fun v => ?_, fun z => ?_, fun i => ?_,
    ⟨by decide, rfl, rfl⟩, rfl, ⟨rfl, rfl, rfl, rfl, rfl, rfl, rfl, by decide, rfl, rfl, rfl⟩,
    ⟨by decide, by decide, rfl, rfl, rfl, rfl, rfl⟩,
    ⟨rfl, rfl, rfl, rfl, rfl, rfl, rfl, rfl, by decide, rfl, rfl, rfl⟩, rfl, rfl⟩
  · rw [State.reset_link]
    exact ⟨rfl, rfl, rfl, rfl, rfl, rfl, rfl, wires, rfl, tags, rfl, rfl, rfl, rfl, rfl, rfl⟩
  · rw [State.reset_link]
    rfl
  · rw [State.reset_link]
    exact ⟨rfl, rfl, rfl, rfl, rfl, rfl, rfl, rfl, rfl, rfl, rfl, rfl, rfl⟩
  · rw [State.reset_link]
    exact ⟨rfl, rfl, fun n => ⟨rfl, rfl⟩, rfl, gates⟩
  · rw [State.reset_group]
    exact ⟨rfl, rfl, rfl, rfl, members g⟩
  · rw [State.reset_service]
    rfl
  · rw [State.reset_zone]
    exact ⟨rfl, rfl, rfl, rfl, rfl, rfl, rfl, rfl, rfl, selection⟩
  · rw [State.reset_input]
    exact ⟨rfl, rfl, rfl, rfl, rfl, rfl, rfl, rfl, rfl⟩

/-- Settles O3, from what each invariant has at reset. -/
theorem invariantsHoldAtReset : Obligations.InvariantsHoldAtReset := by
  obtain ⟨hlaser, hexchange, hclosed, hpending⟩ := (State.legal_iff State.reset).mp State.reset_legal
  obtain ⟨hincident, howners⟩ := State.reset.zoneView_right_iff.mp (State.atRelease_right 0)
  have hring : State.reset.noticeRingRight := fun _ => ⟨rfl, rfl, by decide, fun n k e => by cases e⟩
  exact ⟨⟨Nat.zero_le _, Nat.zero_le _, fun _ => rfl, rfl⟩, ⟨hring, (fun x e => by cases e), fun _ => ⟨rfl, fun _ => rfl⟩⟩,
    ⟨hlaser, hexchange⟩, ⟨hclosed, hpending, State.reset_delaysBounded, State.reset_allAligned⟩,
    ⟨State.reset_capacityHeld, State.reset_classesBounded, hincident, howners, State.reset_plansFit⟩,
    List.nodup_nil, State.reset_storesCanonical, rfl, by decide⟩

/-! ## A result posting that names another producer -/

/-- At reset but for an order that is executing, its result posting waiting; that posting names the notice unit. -/
def strayResult : State :=
  { State.reset with
    orders := { OrderUnit.atReset with executing := some 0, result := some { producer := .noticeUnit, addr := 0, words := [] } }
    pending := [.postingEnqueue .orderUnit] }

/-- The result of `strayResult` joins the queue, where it counts as a notice record and not as a result. -/
theorem strayResult_steps : ∃ t, step strayResult = .next t ∧ t.recordsQueued = 1 ∧ t.resultPostings = 0 ∧ t.path.inReset = false ∧
    t.orders.executing = some 0 ∧ t.notices = strayResult.notices := ⟨_, rfl, rfl, rfl, rfl, rfl, rfl⟩

/-- Refutes O54: the statement's premises leave the producer of a waiting result free, and a result that names another producer is no
result posting once it is queued, though its order still executes. -/
theorem not_stepKeepsPathPlaced : ¬ Obligations.StepKeepsPathPlaced := by
  intro h
  obtain ⟨t, hstep, -, hresults, hreset, hexec, -⟩ := strayResult_steps
  obtain ⟨-, -, -, hinstep⟩ := h strayResult t ⟨rfl, by decide⟩ (fun _ => rfl) (fun x e => (Option.some.inj e).symm)
    (fun _ => ⟨rfl, fun e => by cases e⟩) hstep
  have hcount := (hinstep hreset).1
  rw [hresults, hexec] at hcount
  cases hcount

/-- Refutes O55: the statement's premises leave the producer of a waiting result free, and a result that names the notice unit counts as a
record handed over once it is queued. -/
theorem not_stepKeepsNoticeRing : ¬ Obligations.StepKeepsNoticeRing := by
  intro h
  obtain ⟨t, hstep, hrecords, -, hreset, -, hnotices⟩ := strayResult_steps
  obtain ⟨-, hring⟩ := h strayResult t (fun _ => rfl) rfl (fun _ => ⟨rfl, rfl, by decide, fun n k e => by cases e⟩) hstep
  have hcount := (hring hreset).1
  rw [hrecords, hnotices] at hcount
  cases hcount

end Sys2Proof.Machine
end

section
/-! Orders: how one that finds the order unit idle is taken, its refusals of an unknown code and of an index outside its table, and the
orders that a few fields answer. -/

namespace Sys2Proof.Machine

open Sys2Proof

/-! ## Taking an order (log 6) -/

/-- R169, R170: order o written into the slot at the producer index, and that index advanced over it. -/
def State.advanced (s : State) (o : Order) : State :=
  s.modOrders (fun u => { u with shadow := u.shadow.set u.producer (wordsOfOrder o), producer := u.producer + 1 })

/-- R171: the order in the slot at the consumer index is taken. -/
theorem State.takeNext_of_pending {s : State} (hidle : s.orders.executing = none) (hpending : s.orders.frozen s.orders.consumer = true) :
    s.takeNext = s.execute s.orders.consumer (orderOfWords s.orders.shadow[s.orders.consumer]) := by
  obtain ⟨-, -, h⟩ | ⟨h, -⟩ := s.takeNext_cases
  · exact h
  · simp [hidle, hpending] at h

/-- R171: an order taken with room in the posting queue: its effects, its slot executing, its result posted. -/
theorem State.execute_of_room {s : State} (slot : Fin 32) (o : Order) (h : s.path.queue.length < 64) :
    s.execute slot o = { (takeByCode o s).1 with
      orders := { s.orders with executing := some slot }
      path := s.path.push (resultPosting s.path.windowBase slot (takeByCode o s).2 o.tag) } := by
  obtain ⟨-, hpath, horders, -⟩ := (takeByCode_edits s o).frame
  unfold State.execute State.handResult
  simp only [State.modOrders_path, hpath, (s.path.hasRoom_iff).mpr h, if_true]
  rw [← horders, ← hpath]
  rfl

/-- R170: a producer index further on takes the next order. -/
theorem State.takeProducer_of_ahead {s : State} {p : Fin 32} (h : s.orders.pendingCount < (p - s.orders.consumer).val) :
    s.takeProducer p = (s.modOrders (fun u => { u with producer := p })).takeNext := by
  unfold State.takeProducer
  rw [if_pos h]

variable {s : State} {c : Instr} {o : Order}

/-- An order submitted to an idle order unit is taken at once. -/
theorem State.submit_of_idle (h : s.ordersIdle) :
    s.submit o = s.answered o (takeByCode o (s.advanced o)).2 (takeByCode o (s.advanced o)).1 := by
  obtain ⟨-, hidle, hempty, hroom⟩ := h
  have hpending : (s.advanced o).orders.frozen (s.advanced o).orders.consumer = true := by
    simp [State.advanced, OrderUnit.frozen, OrderUnit.pendingCount, hempty]
  have hcount : (s.modOrders (fun u => { u with shadow := u.shadow.set s.orders.producer (wordsOfOrder o) })).orders.pendingCount <
      (s.orders.producer + 1 - s.orders.consumer).val := by
    simp [OrderUnit.pendingCount, hempty]
  have hslot : (s.advanced o).orders.shadow[(s.advanced o).orders.consumer] = wordsOfOrder o := by
    simp [State.advanced, ← hempty]
  have htake : (s.modOrders (fun u => { u with shadow := u.shadow.set s.orders.producer (wordsOfOrder o) })).takeProducer
      (s.orders.producer + 1) = (s.advanced o).takeNext := State.takeProducer_of_ahead hcount
  unfold State.submit
  dsimp only
  rw [htake, State.takeNext_of_pending (s := s.advanced o) hidle hpending, hslot, orderOfWords_wordsOfOrder, State.execute_of_room (s := s.advanced o) _ _ hroom,
    show (s.advanced o).orders.consumer = s.orders.producer from hempty.symm]
  rfl

/-- Every order's command submits its order. -/
theorem exec_commandOrder (hc : commandOrder c = some o) : exec c s = s.running (s.submit o) := by
  cases c <;> simp only [commandOrder, Option.some.injEq, reduceCtorEq] at hc <;> subst hc <;> rfl

/-- R171, log 6: an order's command, the order unit idle. -/
theorem exec_order (h : s.ordersIdle) (hc : commandOrder c = some o) :
    exec c s = .next (s.answered o (takeByCode o (s.advanced o)).2 (takeByCode o (s.advanced o)).1) := by
  rw [exec_commandOrder hc, State.running_of_released _ _ h.1, State.submit_of_idle h]

/-- An order's answer is given by what its owning block does, the order unit's own account apart. -/
theorem exec_order_of_take (h : s.ordersIdle) (hc : commandOrder c = some o) {r : OrderResult} {t : State}
    (ht : takeByCode o (s.advanced o) = ({ t with orders := (s.advanced o).orders }, r)) : exec c s = .next (s.answered o r t) := by
  rw [exec_order h hc, ht]
  rfl

/-- A refused order changes nothing. -/
theorem exec_order_refused (h : s.ordersIdle) (hc : commandOrder c = some o) {r : OrderResult}
    (ht : takeByCode o (s.advanced o) = (s.advanced o, r)) : exec c s = .next (s.answered o r s) :=
  exec_order_of_take h hc ht

/-- R172: no block owns a code of 0 or above 20. -/
theorem takeByCode_of_unknown (h : o.code.toNat = 0 ∨ 20 < o.code.toNat) : takeByCode o s = (s, .refused .unknownOrder) := by
  unfold takeByCode
  split
  case h_21 => rfl
  all_goals omega

/-- Settles O4. -/
theorem unknownOrderIsRefused : Obligations.UnknownOrderIsRefused := by
  intro s code index tag h hcode
  refine exec_order_refused h rfl (takeByCode_of_unknown ?_)
  obtain rfl | hbig := hcode
  · exact .inl rfl
  · exact .inr hbig

/-! ## Indices (R172) -/

theorem indexBelow_of_le {n x : Nat} (h : n ≤ x) : indexBelow n x = none := dif_neg (Nat.not_lt.mpr h)

theorem indexBelow_of_eq {n x : Nat} {i : Fin n} (h : x = i.val) : indexBelow n x = some i := by
  subst h
  exact dif_pos i.isLt

theorem Order.link?_of_eq {l : LinkIx} (h : o.index.toNat = l.val) : o.link? = some l := indexBelow_of_eq h

theorem Order.service?_of_eq {v : ServiceIx} (h : o.index.toNat = v.val) : o.service? = some v := indexBelow_of_eq h

/-- R172: an order that names an object checks its index before anything else. -/
theorem takeByCode_of_badIndex {n : Nat} (hn : objectCount o.code = some n) (h : n ≤ o.index.toNat) :
    takeByCode o s = (s, .refused .badIndex) := by
  have hnone : indexBelow n o.index.toNat = none := indexBelow_of_le h
  unfold objectCount at hn
  unfold takeByCode
  split at hn
  case h_19 => cases hn
  all_goals
    next hcode =>
      obtain rfl := Option.some.inj hn
      simp [hcode, orderSetService, orderEnableService, orderDisableService, orderClearService, Order.service?, orderSetLink,
        orderLinkListen, orderLinkRange, orderLinkActivate, orderLinkQuiesce, orderLinkAbort, orderLinkDark, orderLinkQuery, Order.link?,
        orderSetGroup, orderSetZone, orderSetLine, orderLineAck, orderBreakinStart, orderBreakinStop, hnone]

/-- Settles O5. -/
theorem orderIndexOutsideTableIsRefused : Obligations.OrderIndexOutsideTableIsRefused := fun _ _ _ _ h hc hn hle =>
  exec_order_refused h hc (takeByCode_of_badIndex hn hle)

end Sys2Proof.Machine
end

section
/-! Requests and PLANs in the terms of the statements (R19, R20, R92): the tag a request takes, what a PLAN issued makes of its link, and
PLANs issued on several links in turn. -/

namespace Sys2Proof.Machine

open Sys2Proof

/-! ## Tags (R19) -/

theorem Manager.freeTag_of_free {m : Manager} {g : Tag} (h : m.outstanding[g] = none) (hlow : ∀ g' : Tag, g' < g → m.outstanding[g'] ≠ none) :
    m.freeTag = some g := by
  unfold Manager.freeTag
  have hsplit : ∀ g : Tag, allTags = allTags.take g.val ++ g :: allTags.drop (g.val + 1) ∧ ∀ a ∈ allTags.take g.val, a < g := by decide
  obtain ⟨hall, hbefore⟩ := hsplit g
  rw [List.find?_eq_some_iff_append]
  exact ⟨by simp [h], _, _, hall, fun a ha => by simpa using Option.isSome_iff_ne_none.mpr (hlow a (hbefore a ha))⟩

theorem mem_allTags (g : Tag) : g ∈ allTags := by revert g; decide

theorem Manager.freeTag_eq_none_iff (m : Manager) : m.freeTag = none ↔ ∀ g : Tag, m.outstanding[g] ≠ none := by
  unfold Manager.freeTag
  rw [List.find?_eq_none]
  exact ⟨fun h g => by simpa using h g (mem_allTags g), fun h g _ => by simpa using h g⟩

theorem Manager.freeTag_eq_some {m : Manager} {g : Tag} (h : m.freeTag = some g) :
    m.outstanding[g] = none ∧ ∀ g' : Tag, g' < g → m.outstanding[g'] ≠ none := by
  have hex : ∃ g : Tag, m.outstanding[g] = none := by
    by_contra hall
    push Not at hall
    rw [m.freeTag_eq_none_iff.mpr hall] at h
    cases h
  obtain ⟨g0, hg0, hlow⟩ : ∃ g0 : Tag, m.outstanding[g0] = none ∧ ∀ g' : Tag, g' < g0 → m.outstanding[g'] ≠ none :=
    ⟨Fin.find _ hex, Fin.find_spec hex, fun g' hg' => Fin.find_min hex hg'⟩
  rw [Manager.freeTag_of_free hg0 hlow, Option.some.injEq] at h
  subst h
  exact ⟨hg0, hlow⟩

/-! ## A request issued (R19, R20) -/

/-- R19, R20: a link manager's fields once a PLAN has been issued. -/
def Manager.issued (m : Manager) (r : Request) : Manager :=
  m.freeTag.elim { m with pendingQueue := placePlan m.pendingQueue r } (fun g => m.giveTag g r)

/-- R20: the request a PLAN issued now drops from a full pending queue. -/
def Manager.planDrops (m : Manager) : Option Request := m.freeTag.elim (Machine.planDrops m.pendingQueue) (fun _ => none)

section
variable {s : State} {l : LinkIx} {r : Request}

theorem State.issueRequest_of_free {g : Tag} (h : (s.link l).mgr.freeTag = some g) :
    s.issueRequest l r = s.modMgr l (fun m => m.giveTag g r) := by
  unfold State.issueRequest
  rw [h]

theorem State.issueRequest_query_of_held {item : Item} {tag : BitVec 16} (h : (s.link l).mgr.freeTag = none) :
    s.issueRequest l (.query item tag) = s.modMgr l (fun m => { m with pendingQueue := m.pendingQueue ++ [.query item tag] }) := by
  unfold State.issueRequest
  rw [h]
  rfl

theorem State.issueRequest_plan (hr : r.isPlan = true) : s.issueRequest l r =
    (s.modMgr l (fun m => m.issued r)).plusNotices (queryDones l .aborted (s.link l).mgr.planDrops.toList) := by
  have hissued (f : Manager → Manager) (h : f (s.link l).mgr = (s.link l).mgr.issued r) : s.modMgr l (fun m => m.issued r) = s.modMgr l f :=
    State.modLink_congr (by dsimp only; rw [h])
  unfold State.issueRequest
  split
  · next g hg =>
    rw [hissued (fun m => m.giveTag g r) (by simp [Manager.issued, hg]), show (s.link l).mgr.planDrops = none by simp [Manager.planDrops, hg]]
    rfl
  · next hg =>
    rw [if_pos hr, hissued (fun m => { m with pendingQueue := placePlan m.pendingQueue r }) (by simp [Manager.issued, hg]),
      show (s.link l).mgr.planDrops = Machine.planDrops (s.link l).mgr.pendingQueue by simp [Manager.planDrops, hg]]
    dsimp only
    split
    · next x hx => rw [State.queryDone_eq, hx]; rfl
    · next hx => rw [hx]; rfl

end

/-! ## A PLAN in the pending queue (R20) -/

theorem Request.isPlan_eq_false_of {q : List Request} (h : ∀ n m its, Request.plan n m its ∉ q) : ∀ r ∈ q, r.isPlan = false := by
  intro r hr
  cases r with
  | query => rfl
  | plan n m its => exact absurd hr (h n m its)

theorem placePlan_of_plan {before after : List Request} {p r : Request} (hp : p.isPlan = true)
    (h : ∀ x ∈ before ++ after, x.isPlan = false) : placePlan (before ++ p :: after) r = before ++ r :: after := by
  have hmap (xs : List Request) (hxs : ∀ x ∈ xs, x.isPlan = false) : xs.map (fun x => if x.isPlan then r else x) = xs := by
    conv_rhs => rw [← List.map_id xs]
    exact List.map_congr_left fun x hx => by simp [hxs x hx]
  unfold placePlan
  rw [if_pos (by simp [hp]), List.map_append, List.map_cons, hmap before fun x hx => h x (by simp [hx]),
    hmap after fun x hx => h x (by simp [hx]), if_pos hp]

theorem planDrops_of_plan {q : List Request} (h : q.any Request.isPlan = true) : planDrops q = none := by
  unfold planDrops
  rw [if_pos h]

theorem placePlan_of_noPlan {q : List Request} {r : Request} (h : ∀ x ∈ q, x.isPlan = false) :
    placePlan q r = r :: (if q.length < 8 then q else q.dropLast) := by
  unfold placePlan
  rw [if_neg (by simpa using h)]

theorem planDrops_of_noPlan {q : List Request} (h : ∀ x ∈ q, x.isPlan = false) :
    planDrops q = if q.length < 8 then none else q.getLast? := by
  unfold planDrops
  rw [if_neg (by simpa using h)]

/-! ## A PLAN issued (R92) -/

/-- R92: a link's record once a PLAN of these items has been issued for exchange x. -/
def Link.withPlan (y : Link) (x : Exchange) (items : List PlanItem) : Link :=
  { y with
    mgr := y.mgr.issued (.plan y.planSerial x.m items)
    planSerial := y.planSerial + 1
    exchange := some { x with current := some y.planSerial, standing := .waiting } }

theorem State.issuePlan_eq (s : State) (l : LinkIx) (x : Exchange) (plan : List Entry) : s.issuePlan l x plan =
    (s.modLink l (fun y => y.withPlan x (s.planItems plan))).plusNotices (queryDones l .aborted (s.link l).mgr.planDrops.toList) := by
  unfold State.issuePlan
  dsimp only
  rw [State.issueRequest_plan rfl, State.modMgr, State.modLink_modLink, State.modLink_link_same]
  rfl

/-- R19, R20, R92: a PLAN issued is the one the statements spell out. -/
theorem Link.withPlan_planIssued (y : Link) (x : Exchange) (items : List PlanItem) :
    y.planIssued (y.withPlan x items) x items y.mgr.planDrops := by
  refine ⟨fun g hg hlow => ?_, fun hheld => ?_⟩
  · have hfree := Manager.freeTag_of_free hg hlow
    exact ⟨by simp [Manager.planDrops, hfree], by simp [Link.withPlan, Manager.issued, hfree, Manager.giveTag]⟩
  · have hfree := y.mgr.freeTag_eq_none_iff.mpr hheld
    have hdrops : y.mgr.planDrops = Machine.planDrops y.mgr.pendingQueue := by simp [Manager.planDrops, hfree]
    have hissued (q : List Request) (hq : placePlan y.mgr.pendingQueue (.plan y.planSerial x.m items) = q) :
        y.withPlan x items = { y with
          mgr := { y.mgr with pendingQueue := q }, planSerial := y.planSerial + 1
          exchange := some { x with current := some y.planSerial, standing := .waiting } } := by
      simp [Link.withPlan, Manager.issued, hfree, hq]
    rw [hdrops]
    refine ⟨fun before n m its after hq hno => ?_, fun hno hlen => ?_, fun front last hno hlen hq => ?_⟩
    · rw [hissued (before ++ _ :: after) (by rw [hq]; exact placePlan_of_plan rfl (Request.isPlan_eq_false_of hno)), hq]
      exact ⟨planDrops_of_plan (by simp [Request.isPlan]), rfl⟩
    · have hq := Request.isPlan_eq_false_of hno
      exact ⟨by rw [planDrops_of_noPlan hq, if_pos hlen], hissued _ (by rw [placePlan_of_noPlan hq, if_pos hlen])⟩
    · have hq' := Request.isPlan_eq_false_of hno
      refine ⟨by rw [planDrops_of_noPlan hq', if_neg (Nat.not_lt.mpr hlen), hq, List.getLast?_concat], hissued _ ?_⟩
      rw [placePlan_of_noPlan hq', if_neg (Nat.not_lt.mpr hlen), hq, List.dropLast_concat]

/-! ## PLANs issued on several links in turn (R93) -/

/-- A PLAN issued on a link that is offered one. -/
def State.issueOffer (s : State) (l : LinkIx) (offer : Option (Exchange × List Entry)) : State :=
  offer.elim s (fun o => s.issuePlan l o.1 o.2)

/-- R93: what a PLAN offered makes of a link's record. -/
def Link.withOffer (y : Link) (s : State) (offer : Option (Exchange × List Entry)) : Link :=
  offer.elim y (fun o => y.withPlan o.1 (s.planItems o.2))

/-- R20: the request that a PLAN offered to link l would drop. -/
def State.offerDrops (s : State) (l : LinkIx) (offer : Option (Exchange × List Entry)) : Option Request :=
  offer.bind (fun _ => (s.link l).mgr.planDrops)

theorem State.issueOffer_eq (s : State) (l : LinkIx) (offer : Option (Exchange × List Entry)) : s.issueOffer l offer =
    (s.modLink l (fun y => y.withOffer s offer)).plusNotices (queryDones l .aborted (s.offerDrops l offer).toList) := by
  cases offer with
  | none =>
    have hsame : s.modLink l (fun y => y.withOffer s none) = s := by
      simp [State.modLink, Link.withOffer]
    rw [hsame]
    rfl
  | some o => exact s.issuePlan_eq l o.1 o.2

/-- PLANs issued on links one after another: each changes its own record, and drops from its own queue. -/
theorem State.foldl_issueOffer (offer : LinkIx → Option (Exchange × List Entry)) {ls : List LinkIx} (hls : ls.Nodup) (s : State) :
    let t := ls.foldl (fun u l => u.issueOffer l (offer l)) s
    t = { s.plusNotices (ls.map (fun l => queryDones l .aborted (s.offerDrops l (offer l)).toList)).flatten with links := t.links } ∧
    ∀ l, t.link l = if l ∈ ls then (s.link l).withOffer s (offer l) else s.link l := by
  induction ls generalizing s with
  | nil => exact ⟨rfl, fun l => by simp⟩
  | cons x rest ih =>
    obtain ⟨hx, hrest⟩ := List.nodup_cons.mp hls
    obtain ⟨heq, hlink⟩ := ih hrest (s.issueOffer x (offer x))
    have hother (l : LinkIx) (hl : x ≠ l) : (s.issueOffer x (offer x)).link l = s.link l := by
      rw [s.issueOffer_eq, State.plusNotices_link, State.modLink_link_other _ _ _ _ hl]
    have hself : (s.issueOffer x (offer x)).link x = (s.link x).withOffer s (offer x) := by
      rw [s.issueOffer_eq, State.plusNotices_link, State.modLink_link_same]
    have hitems (y : Link) (o : Option (Exchange × List Entry)) : y.withOffer (s.issueOffer x (offer x)) o = y.withOffer s o := by
      rw [s.issueOffer_eq]; rfl
    have hne (l : LinkIx) (hl : l ∈ rest) : x ≠ l := fun e => hx (e ▸ hl)
    have hdrops : rest.map (fun l => queryDones l .aborted ((s.issueOffer x (offer x)).offerDrops l (offer l)).toList) =
        rest.map (fun l => queryDones l .aborted (s.offerDrops l (offer l)).toList) :=
      List.map_congr_left fun l hl => by rw [State.offerDrops, hother l (hne l hl)]; rfl
    refine ⟨?_, fun l => ?_⟩
    · rw [List.foldl_cons, heq, hdrops, s.issueOffer_eq x, List.map_cons, List.flatten_cons, State.plusNotices_append]
      rfl
    · rw [List.foldl_cons, hlink l, hitems]
      by_cases hl : x = l
      · subst hl; simp [hx, hself]
      · simp [hother l hl, Ne.symm hl]

/-- R20, R92, R93: PLANs issued on every link that is offered one are the ones the statements spell out. -/
theorem State.forLinks_issueOffer (offer : LinkIx → Option (Exchange × List Entry)) (s : State) :
    s.plansIssued (s.forLinks (fun u l => u.issueOffer l (offer l))) offer := by
  obtain ⟨heq, hlink⟩ := State.foldl_issueOffer offer allLinks_nodup s
  refine ⟨fun l => s.offerDrops l (offer l), fun l => ?_, heq⟩
  have hl : (s.forLinks (fun u l => u.issueOffer l (offer l))).link l = (s.link l).withOffer s (offer l) := by
    rw [State.forLinks, hlink l, if_pos (mem_allLinks l)]
  rw [hl]
  dsimp only
  cases offer l with
  | none => exact ⟨rfl, rfl⟩
  | some o => exact Link.withPlan_planIssued _ _ _

end Sys2Proof.Machine
end

section
/-! What the statements say of an order's effects does not speak of the order unit: each relation between two states stands when the order
unit of both is replaced. -/

namespace Sys2Proof.Machine

open Sys2Proof

/-- The part with another order unit. -/
def State.withOrders (s : State) (y : OrderUnit) : State := { s with orders := y }

variable {s t : State} (y : OrderUnit)

theorem State.reEvaluated.withOrders {g : GroupIx} {x : Group} {cause : AlignCause} {cleared : List (LinkIx × Bool)}
    (h : s.reEvaluated t g x cause cleared) : (s.withOrders y).reEvaluated (t.withOrders y) g x cause cleared := by
  obtain ⟨h1, h2, h3, h4, h5, h6, h7, h8, h9, h10, h11, h12, h13, h14, -, h16, h17⟩ := h
  exact ⟨h1, h2, h3, h4, h5, h6, h7, h8, h9, h10, h11, h12, h13, h14, rfl, h16, h17⟩

theorem TornDown.withOrders {l : LinkIx} {new : LinkState} {cause : LinkCause} (h : TornDown s t l new cause) :
    TornDown (s.withOrders y) (t.withOrders y) l new cause :=
  ⟨fun hs => congrArg (State.withOrders · y) (h.1 hs), fun hs => (h.2 hs).withOrders y⟩

theorem State.plansIssued.withOrders {offer : LinkIx → Option (Exchange × List Entry)} (h : s.plansIssued t offer) :
    (s.withOrders y).plansIssued (t.withOrders y) offer := by
  obtain ⟨dropped, hlink, heq⟩ := h
  exact ⟨dropped, hlink, congrArg (State.withOrders · y) heq⟩

theorem State.replanned.withOrders {z : ZoneIx} (h : s.replanned t z) : (s.withOrders y).replanned (t.withOrders y) z := by
  refine ⟨fun hs => congrArg (State.withOrders · y) (h.1 hs), fun hs hcls => ?_⟩
  obtain ⟨carried, shed, hadmits, hsame, hstage⟩ := h.2 hs hcls
  refine ⟨carried, shed, hadmits, fun e => congrArg (State.withOrders · y) (hsame e), fun hne => ?_⟩
  obtain ⟨p, hid, hn, hshed, hplaces, hstages⟩ := hstage hne
  exact ⟨p, hid, hn, hshed, hplaces, State.plansIssued.withOrders y hstages⟩

theorem State.replannedAll.withOrders {zs : List ZoneIx} (h : s.replannedAll t zs) : (s.withOrders y).replannedAll (t.withOrders y) zs := by
  induction zs generalizing s with
  | nil => exact congrArg (State.withOrders · y) h
  | cons z rest ih =>
    obtain ⟨u, hu, hrest⟩ := h
    exact ⟨u.withOrders y, hu.withOrders y, ih hrest⟩

theorem State.incidentsWorked.withOrders {p : ZoneIx → Prop} {cause : IncidentCause} {changed : List ZoneIx}
    (h : s.incidentsWorked t p cause changed) : (s.withOrders y).incidentsWorked (t.withOrders y) p cause changed := by
  obtain ⟨inputs, hinputs, hchanged, hzone, heq⟩ := h
  exact ⟨inputs, hinputs, hchanged, hzone, congrArg (State.withOrders · y) heq⟩

theorem State.incidentsTaken.withOrders {cause : IncidentCause} {zs : List ZoneIx} (h : s.incidentsTaken t cause zs) :
    (s.withOrders y).incidentsTaken (t.withOrders y) cause zs := by
  induction zs generalizing s with
  | nil => exact congrArg (State.withOrders · y) h
  | cons z rest ih =>
    obtain ⟨u, v, changed, hu, hv, hrest⟩ := h
    exact ⟨u.withOrders y, v.withOrders y, changed, hu.withOrders y, hv.withOrders y, ih hrest⟩

theorem State.ownersChanged.withOrders {a : Arbiter} {mask : BitVec 8} {cause : OwnerCause} {settles : ZoneIx → Option SourceIx → Prop}
    (h : s.ownersChanged t a mask cause settles) : (s.withOrders y).ownersChanged (t.withOrders y) a mask cause settles := by
  obtain ⟨u, changed, switched, h1, h2, h3, h4, h5, heq, hreplans⟩ := h
  exact ⟨u.withOrders y, changed, switched, h1, h2, h3, h4, h5, congrArg (State.withOrders · y) heq, hreplans.withOrders y⟩

theorem State.sourceActivated.withOrders {x : SourceIx} {mask : BitVec 8} {priority : Nat} {channel : Channel} {cause : OwnerCause}
    (h : s.sourceActivated t x mask priority channel cause) :
    (s.withOrders y).sourceActivated (t.withOrders y) x mask priority channel cause := by
  unfold State.sourceActivated at h
  exact State.ownersChanged.withOrders y h

theorem State.sourceDeactivated.withOrders {x : SourceIx} {cause : OwnerCause} (h : s.sourceDeactivated t x cause) :
    (s.withOrders y).sourceDeactivated (t.withOrders y) x cause :=
  ⟨fun hp => congrArg (State.withOrders · y) (h.1 hp), fun q hq => State.ownersChanged.withOrders y (h.2 q hq)⟩

theorem State.latchTaken.withOrders {i : InputIx} {isSet : Bool} (h : s.latchTaken t i isSet) :
    (s.withOrders y).latchTaken (t.withOrders y) i isSet := by
  obtain ⟨u, v, changed, hincidents, hset, hcleared, hreplans⟩ := h
  exact ⟨u.withOrders y, v.withOrders y, changed, hincidents.withOrders y, fun e => (hset e).withOrders y,
    fun e => (hcleared e).withOrders y, hreplans.withOrders y⟩

/-! ## Orders whose effects a relation states -/

/-- An order's answer, the state it leaves known by a property. -/
theorem exec_order_exists {c : Instr} {o : Order} {r : OrderResult} {P : State → Prop} (h : s.ordersIdle) (hc : commandOrder c = some o)
    (ht : takeByCode o (s.advanced o) = (t, r)) (hP : P (t.withOrders s.orders)) : ∃ t, exec c s = .next (s.answered o r t) ∧ P t := by
  refine ⟨t.withOrders s.orders, ?_, hP⟩
  rw [exec_order h hc, ht]
  rfl

/-- The same, the state it leaves given a name. -/
theorem exec_order_exists_of {c : Instr} {o : Order} {r : OrderResult} {P : State → Prop} (h : s.ordersIdle) (hc : commandOrder c = some o)
    (ht : takeByCode o (s.advanced o) = (t, r)) (hP : ∀ u, u = t.withOrders s.orders → P u) :
    ∃ t, exec c s = .next (s.answered o r t) ∧ P t :=
  exec_order_exists h hc ht (hP _ rfl)

end Sys2Proof.Machine
end

section
/-! The orders to the links (chapters 1 and 2). -/

namespace Sys2Proof.Machine

open Sys2Proof

variable {s : State} {o : Order} {l : LinkIx}

/-! ## What each order does to the link it names -/

theorem orderLinkListen_eq (hl : o.link? = some l) : orderLinkListen o s =
    if (s.link l).mgr.state = .dark then ((s.modMgr l Manager.listen).notify (.linkState l .dark .listen .order noWires none), .done)
    else (s, .refused .wrongState) := by
  simp [orderLinkListen, hl]

theorem orderLinkRange_eq (hl : o.link? = some l) : orderLinkRange o s =
    if (s.link l).mgr.state ≠ .standby ∧ (s.link l).mgr.state ≠ .active then (s, .refused .wrongState)
    else if s.hasRun l then (s, .refused .busy)
    else (s.startRun l .order, .done) := by
  simp [orderLinkRange, hl]

theorem orderLinkActivate_eq (hl : o.link? = some l) : orderLinkActivate o s =
    if (s.link l).mgr.state ≠ .standby then (s, .refused .wrongState)
    else if s.hasRun l then (s, .refused .busy)
    else if (s.link l).rng.valid then (s.activate l, .done)
    else (s, .refused .wrongState) := by
  simp [orderLinkActivate, hl]

/-- Settles O6. -/
theorem linkListenTurnsDarkLinkOn : Obligations.LinkListenTurnsDarkLinkOn := fun _ _ _ _ h hl =>
  ⟨fun hdark => exec_order_of_take h rfl ((orderLinkListen_eq (Order.link?_of_eq hl)).trans (if_pos hdark)),
    fun hdark => exec_order_refused h rfl ((orderLinkListen_eq (Order.link?_of_eq hl)).trans (if_neg hdark))⟩

/-- Settles O7. -/
theorem linkRangeStartsRun : Obligations.LinkRangeStartsRun := by
  intro s index tag l h hl
  have heq (u : State) := orderLinkRange_eq (s := u) (o := plainOrder 7 index tag) (Order.link?_of_eq hl)
  refine ⟨fun hstate hrun => ?_, fun hstate hrun => ?_, fun hstandby hactive => ?_⟩
  · have hnorun : ¬ (s.hasRun l = true) := by simp [State.hasRun, hrun]
    exact exec_order_of_take h rfl ((heq _).trans ((if_neg (by tauto)).trans (if_neg hnorun)))
  · exact exec_order_refused h rfl ((heq _).trans ((if_neg (by tauto)).trans (if_pos hrun)))
  · exact exec_order_refused h rfl ((heq _).trans (if_pos ⟨hstandby, hactive⟩))

theorem orderLinkAbort_eq (hl : o.link? = some l) : orderLinkAbort o s =
    if (s.link l).mgr.state = .fault then (s, .refused .wrongState)
    else (s.link l).rng.run.elim (s, .done) (fun r => (s.endAborted l r, .done)) := by
  cases hrun : (s.link l).rng.run <;> simp [orderLinkAbort, hl, hrun]

/-- R38, R40: a run aborted, with its RANGE_RESULT. -/
theorem State.endAborted_eq (r : RangingRun) : s.endAborted l r =
    (s.modRng l (fun x => { x with run := none, trackCount := if (s.link l).mgr.state = .active then 0 else x.trackCount })).plusNotice
      (.rangeResult l r.runId r.cause .aborted (s.link l).mgr.state r.roundTrips none none none none none false
        (s.link l).rng.valid (s.link l).rng.failures none) := by
  simp [State.endAborted, State.rangeResult, State.modRng, Ranging.runEnded]
  rfl

/-- Settles O8. -/
theorem linkAbortEndsRun : Obligations.LinkAbortEndsRun := by
  intro s index tag l h hl
  have heq (u : State) := orderLinkAbort_eq (s := u) (o := plainOrder 10 index tag) (Order.link?_of_eq hl)
  refine ⟨fun r hfault hrun => ?_, fun hfault hrun => ?_, fun hfault => ?_⟩
  · refine exec_order_of_take h rfl ((heq _).trans ((if_neg hfault).trans ?_))
    rw [show ((s.advanced _).link l).rng.run = some r from hrun, Option.elim_some, State.endAborted_eq]
    rfl
  · refine exec_order_refused h rfl ((heq _).trans ((if_neg hfault).trans ?_))
    rw [show ((s.advanced _).link l).rng.run = none from hrun]
    rfl
  · exact exec_order_refused h rfl ((heq _).trans (if_pos hfault))

/-! ## LINK_ACTIVATE (R8, R92, R94) -/

theorem foldl_issueOffer_none (ls : List LinkIx) (s : State) (offer : LinkIx → Option (Exchange × List Entry)) (h : ∀ l ∈ ls, offer l = none) :
    ls.foldl (fun u l => u.issueOffer l (offer l)) s = s := by
  induction ls with
  | nil => rfl
  | cons x rest ih =>
    rw [List.foldl_cons, h x (List.mem_cons_self ..)]
    exact ih fun l hl => h l (List.mem_cons_of_mem _ hl)

/-- A PLAN issued on one link alone. -/
theorem State.issuePlan_plansIssued (s : State) (l : LinkIx) (x : Exchange) (plan : List Entry) :
    s.plansIssued (s.issuePlan l x plan) (fun l' => if l' = l then some (x, plan) else none) := by
  have hsplit : ∀ l : LinkIx, allLinks = allLinks.take l.val ++ l :: allLinks.drop (l.val + 1) ∧ l ∉ allLinks.take l.val ∧
      l ∉ allLinks.drop (l.val + 1) := by decide
  obtain ⟨before, after, hall, hbefore, hafter⟩ : ∃ before after, allLinks = before ++ l :: after ∧ l ∉ before ∧ l ∉ after :=
    ⟨_, _, hsplit l⟩
  have hnone {ls : List LinkIx} (hls : l ∉ ls) : ∀ l' ∈ ls, (if l' = l then some (x, plan) else none) = none :=
    fun l' hl' => if_neg fun (e : l' = l) => hls (e ▸ hl')
  have hfold : s.issuePlan l x plan = s.forLinks (fun u l' => u.issueOffer l' (if l' = l then some (x, plan) else none)) := by
    rw [State.forLinks, hall, List.foldl_append, List.foldl_cons, foldl_issueOffer_none _ _ _ (hnone hbefore),
      foldl_issueOffer_none _ _ _ (hnone hafter), if_pos rfl]
    rfl
  rw [hfold]
  exact State.forLinks_issueOffer _ s

/-- R94, R96: the offer a JOINING link of a zone gets. -/
theorem State.offer_of_offers {z : ZoneIx} {target : BitVec 8} {m : Seq16} {entries : List Entry} (h : s.offers z target m entries) :
    s.offer z = (target, m, entries) := by
  unfold State.offer
  obtain ⟨p, hp, rfl, rfl, rfl⟩ | ⟨hnone, rfl, rfl, rfl⟩ := h
  · rw [hp]
  · rw [hnone]

theorem State.issueJoin_of_offers {target : BitVec 8} {m : Seq16} {entries : List Entry} (attempts : Nat)
    (h : s.offers (s.link l).settings.zone target m entries) :
    s.issueJoin l attempts = s.issuePlan l (exchangeFor .join target m attempts) entries := by
  unfold State.issueJoin
  rw [State.offer_of_offers h]
  rfl

/-- A PLAN issued under the lowest free tag. -/
theorem Link.withPlan_of_free {y : Link} {g : Tag} (x : Exchange) (items : List PlanItem) (h : y.mgr.freeTag = some g) :
    y.withPlan x items = { y with
      mgr := y.mgr.giveTag g (.plan y.planSerial x.m items)
      planSerial := y.planSerial + 1
      exchange := some { x with current := some y.planSerial, standing := .waiting } } := by
  simp [Link.withPlan, Manager.issued, h]

/-- R8: a link's record on its entry to JOINING by LINK_ACTIVATE. -/
def Link.toJoining (y : Link) : Link := { y with mgr := { y.mgr with state := .joining } }

/-- R16: the LINK_STATE of LINK_ACTIVATE. -/
def joiningNotice (l : LinkIx) : Notice := .linkState l .standby .joining .order (Vector.replicate 4 false) none

/-- R8: LINK_ACTIVATE's entry to JOINING, its PLAN still to be issued. -/
def State.enteringJoining (s : State) (l : LinkIx) : State := (s.modLink l Link.toJoining).plusNotice (joiningNotice l)

theorem State.activate_eq {target : BitVec 8} {m : Seq16} {entries : List Entry} (h : s.offers (s.link l).settings.zone target m entries) :
    s.activate l = (s.enteringJoining l).issuePlan l (exchangeFor .join target m 0) entries := by
  have hoffers : (s.enteringJoining l).offers ((s.enteringJoining l).link l).settings.zone target m entries := by
    rw [show ((s.enteringJoining l).link l).settings = (s.link l).settings by
      simp [State.enteringJoining, State.plusNotice, Link.toJoining, State.link, State.modLink]]
    exact h
  exact State.issueJoin_of_offers 0 hoffers

theorem State.activate_plansIssued {target : BitVec 8} {m : Seq16} {entries : List Entry}
    (h : s.offers (s.link l).settings.zone target m entries) :
    (s.enteringJoining l).plansIssued (s.activate l) (fun l' => if l' = l then some (exchangeFor .join target m 0, entries) else none) := by
  rw [State.activate_eq h]
  exact State.issuePlan_plansIssued _ l _ _

/-- R8, R19: LINK_ACTIVATE with a tag free. -/
theorem State.activate_of_free {g : Tag} {target : BitVec 8} {m : Seq16} {entries : List Entry} (hfree : (s.link l).mgr.freeTag = some g)
    (h : s.offers (s.link l).settings.zone target m entries) : s.activate l = (s.modLink l (fun x => { x with
      mgr := { x.mgr with
        state := .joining
        outstanding := x.mgr.outstanding.set g (some { request := .plan x.planSerial m (s.planItems entries), sentIn := none })
        txQueue := x.mgr.txQueue ++ [.request g (.plan x.planSerial m (s.planItems entries))] }
      exchange := some { purpose := .join, target := target, m := m, current := some x.planSerial, standing := .waiting, attempts := 0 }
      planSerial := x.planSerial + 1 })).plusNotice (.linkState l .standby .joining .order (Vector.replicate 4 false) none) := by
  have hlink : (s.enteringJoining l).link l = (s.link l).toJoining := State.modLink_link_same s l _
  have hnodrop : ((s.enteringJoining l).link l).mgr.planDrops = none := by
    rw [hlink]
    exact congrArg (fun g : Option Tag => g.elim _ (fun _ => none)) hfree
  have hmod (x : Exchange) (items : List PlanItem) : (s.enteringJoining l).modLink l (fun y => y.withPlan x items) =
      (s.modLink l (fun y => y.toJoining.withPlan x items)).plusNotice (joiningNotice l) :=
    congrArg (fun u : State => u.plusNotice (joiningNotice l)) (State.modLink_modLink s l Link.toJoining (fun y => y.withPlan x items))
  rw [State.activate_eq h, State.issuePlan_eq, hnodrop, hmod, show queryDones l .aborted (none : Option Request).toList = [] from rfl,
    State.plusNotices_nil]
  refine congrArg (fun u : State => u.plusNotice (joiningNotice l)) (State.modLink_congr ?_)
  exact Link.withPlan_of_free _ _ hfree

/-- Settles O9. -/
theorem linkActivateOpensJoinExchange : Obligations.LinkActivateOpensJoinExchange := by
  intro s index tag l h hl
  have heq (u : State) := orderLinkActivate_eq (s := u) (o := plainOrder 8 index tag) (Order.link?_of_eq hl)
  have hactivated (hstate : (s.link l).mgr.state = .standby) (hrun : (s.link l).rng.run = none) (hvalid : (s.link l).rng.valid = true) :
      takeByCode (plainOrder 8 index tag) (s.advanced (plainOrder 8 index tag)) =
        ((s.advanced (plainOrder 8 index tag)).activate l, .done) := by
    have hnorun : ¬ (s.hasRun l = true) := by simp [State.hasRun, hrun]
    exact (heq _).trans ((if_neg (not_not_intro hstate)).trans ((if_neg hnorun).trans (if_pos hvalid)))
  refine ⟨fun g target m entries hstate hrun hvalid hfree hlow hoffers => ?_, fun target m entries hstate hrun hvalid hoffers => ?_,
    fun hstate hrun => ?_, fun hstate hrun hvalid => ?_, fun hstate => ?_⟩
  · refine exec_order_of_take h rfl ((hactivated hstate hrun hvalid).trans ?_)
    rw [State.activate_of_free (s := s.advanced (plainOrder 8 index tag)) (Manager.freeTag_of_free hfree hlow) hoffers]
    rfl
  · have hplans := State.activate_plansIssued (s := s.advanced (plainOrder 8 index tag)) hoffers
    exact exec_order_exists h rfl (hactivated hstate hrun hvalid) (hplans.withOrders s.orders)
  · exact exec_order_refused h rfl ((heq _).trans ((if_neg (not_not_intro hstate)).trans (if_pos hrun)))
  · have hnorun : ¬ (s.hasRun l = true) := by simp [State.hasRun, hrun]
    exact exec_order_refused h rfl ((heq _).trans ((if_neg (not_not_intro hstate)).trans ((if_neg hnorun).trans
      (if_neg (by simp [State.advanced, hvalid])))))
  · exact exec_order_refused h rfl ((heq _).trans (if_pos hstate))

/-! ## LINK_QUIESCE (R10) -/

theorem orderLinkQuiesce_eq (hl : o.link? = some l) : orderLinkQuiesce o s =
    if (s.link l).mgr.state = .active then (s.leaveActive l .quiescing .order, .done)
    else if (s.link l).mgr.state = .joining then (s.quiesceJoining l, .done)
    else (s, .refused .wrongState) := by
  cases hstate : (s.link l).mgr.state <;> simp [orderLinkQuiesce, hl, hstate]

/-- R20, R23: the QUERY_DONE notices of a pending queue that is emptied, request by request. -/
theorem foldl_generate_queryDones (outcome : QueryOutcome) (q : List Request) (u : NoticeUnit) :
    q.foldl (fun u r => match r with
      | .query item orderTag => u.generate (.queryDone l item outcome orderTag 0)
      | .plan _ _ _ => u) u = (queryDones l outcome q).foldl NoticeUnit.generate u := by
  induction q generalizing u with
  | nil => rfl
  | cons r rest ih => cases r <;> exact ih _

theorem State.plusNotices_eq_of {ns : List Notice} {u : NoticeUnit} (h : ns.foldl NoticeUnit.generate s.notices = u) :
    s.plusNotices ns = { s with notices := u } := by
  subst h
  rfl

/-- R10, R98: a JOINING link quiesced, as one change of its record and its notices. -/
theorem State.quiesceJoining_eq : s.quiesceJoining l =
    (s.modLink l (fun x => { x with mgr := { x.mgr with state := .quiescing, pendingQueue := [] }, exchange := none })).plusNotices
      (.linkState l .joining .quiescing .order noWires none :: queryDones l .aborted (s.link l).mgr.pendingQueue) := by
  simp only [State.quiesceJoining, State.abortPending, State.foldl_queryDone, State.modMgr, State.modLink_plusNotices, State.modLink_modLink,
    State.modLink_notify, State.notify_link, State.modLink_link_same, State.plusNotices_cons]

/-- R53: a re-evaluation leaves every K. -/
theorem State.reEvaluate_align_k (g : GroupIx) (cause : AlignCause) (cleared : List (LinkIx × Bool)) (l : LinkIx) :
    ((s.reEvaluate g cause cleared).link l).align.k = (s.link l).align.k := by
  rw [State.reEvaluate_link, State.realigned_link]
  split
  · split <;> rfl
  · rfl

/-- A re-evaluation leaves a link that is no member. -/
theorem State.reEvaluate_link_of_inactive {g : GroupIx} {cause : AlignCause} {cleared : List (LinkIx × Bool)}
    (h : (s.link l).mgr.state ≠ .active) : (s.reEvaluate g cause cleared).link l = s.link l := by
  rw [State.reEvaluate_link, State.realigned_link_of_not_mem _ _ fun hm => h ((s.mem_members g l).mp hm).1]

/-- R10, R41, R47, R48, R98: a link that leaves ACTIVE for QUIESCING, before its group is re-evaluated. -/
def State.quiesced (s : State) (l : LinkIx) : State :=
  ((s.departed l .quiescing).modMgr l (fun m => { m with pendingQueue := [] })).plusNotices
    (.linkState l .active .quiescing .order (Vector.replicate 4 false) none :: queryDones l .aborted (s.link l).mgr.pendingQueue)

theorem State.leaveActive_quiescing (h : (s.link l).mgr.state = .active) : s.leaveActive l .quiescing .order =
    (s.quiesced l).reEvaluate (s.link l).settings.group (.left l) (s.clearedFlag l) := by
  rw [State.leaveActive_eq]
  simp only [if_true, h]
  rfl

theorem State.quiesced_link_same : (s.quiesced l).link l = { s.link l with
    mgr := { (s.link l).mgr with state := .quiescing, pendingQueue := [] }
    rng := { (s.link l).rng with trackCount := 0, outliers := 0, marker := none, skipCount := false }
    align := { k := (s.link l).align.k, kStar := (s.link l).align.k, slewing := false, outOfReach := false }
    exchange := none, rx := none, gates := Vector.replicate 24 none } := by
  rw [State.quiesced, State.plusNotices_link, State.modMgr, State.modLink_link_same, State.departed, State.modLink_link_same]

theorem State.quiesced_link_other {l' : LinkIx} (h : l' ≠ l) : (s.quiesced l).link l' = s.link l' := by
  rw [State.quiesced, State.plusNotices_link, State.modMgr, State.modLink_link_other _ _ _ _ h.symm, State.departed,
    State.modLink_link_other _ _ _ _ h.symm]

/-- R10, R47 to R50: what a link that leaves ACTIVE for QUIESCING leaves of itself and of the other links. -/
theorem State.leaveActive_quiescing_links (h : (s.link l).mgr.state = .active) :
    (s.leaveActive l .quiescing .order).link l = (s.quiesced l).link l ∧
    ∀ l', l' ≠ l → (s.leaveActive l .quiescing .order).link l' =
        { s.link l' with align := ((s.leaveActive l .quiescing .order).link l').align } ∧
      ((s.leaveActive l .quiescing .order).link l').align.k = (s.link l').align.k := by
  rw [State.leaveActive_quiescing h]
  refine ⟨State.reEvaluate_link_of_inactive ?_, fun l' hl' => ⟨?_, ?_⟩⟩
  · rw [State.quiesced_link_same]
    simp
  · rw [State.reEvaluate_link_frame]
    simp only [State.quiesced_link_other hl']
  · rw [State.reEvaluate_align_k, State.quiesced_link_other hl']

theorem State.leaveActive_quiescing_reEvaluated (h : (s.link l).mgr.state = .active) :
    (s.quiesced l).reEvaluated (s.leaveActive l .quiescing .order) (s.link l).settings.group (s.group (s.link l).settings.group) (.left l)
      (s.clearedFlag l) := by
  rw [State.leaveActive_quiescing h]
  exact (s.quiesced l).reEvaluate_reEvaluated _ _ _

/-- Settles O10. -/
theorem linkQuiesceEmptiesPendingQueue : Obligations.LinkQuiesceEmptiesPendingQueue := by
  intro s index tag l h hl
  have heq (u : State) := orderLinkQuiesce_eq (s := u) (o := plainOrder 9 index tag) (Order.link?_of_eq hl)
  refine ⟨fun hjoining => ?_, fun hactive => ?_, fun hjoining hactive => ?_⟩
  · refine exec_order_of_take h rfl ((heq _).trans ((if_neg ?_).trans ((if_pos hjoining).trans ?_)))
    · rw [show ((s.advanced _).link l).mgr.state = .joining from hjoining]
      decide
    · rw [State.quiesceJoining_eq]
      exact congrArg (Prod.mk · OrderResult.done) (State.plusNotices_eq_of (foldl_generate_queryDones _ _ _).symm)
  · refine exec_order_exists h rfl ((heq _).trans (if_pos hactive)) ?_
    have hreev := (State.leaveActive_quiescing_reEvaluated (s := s.advanced (plainOrder 9 index tag)) hactive).withOrders s.orders
    obtain ⟨hself, hothers⟩ := State.leaveActive_quiescing_links (s := s.advanced (plainOrder 9 index tag)) hactive
    generalize ht : ((s.advanced (plainOrder 9 index tag)).leaveActive l .quiescing .order).withOrders s.orders = t at hreev ⊢
    replace hself : t.link l = (s.quiesced l).link l := by rw [← ht]; exact hself
    replace hothers : ∀ l', l' ≠ l → t.link l' = { s.link l' with align := (t.link l').align } ∧
        (t.link l').align.k = (s.link l').align.k := by rw [← ht]; exact hothers
    have hrest := hreev
    obtain ⟨-, -, -, -, -, -, -, htime, hservices, hzones, hinputs, harbiter, hcombiner, -, -, hposter, -⟩ := hrest
    rw [State.quiesced_link_same] at hself
    refine ⟨hreev, by rw [hself], by rw [hself], by rw [hself], by rw [hself], fun v => ?_, by rw [hself], by rw [hself], by rw [hself],
      by rw [hself], fun l' hl' => ?_, htime, hservices, hzones, hinputs, harbiter, hcombiner, hposter⟩
    · rw [hself]
      exact Vector.getElem_replicate ..
    · obtain ⟨hother, hk⟩ := hothers l' hl'
      exact ⟨by rw [hother], by rw [hother], by rw [hother], hk, by rw [hother]⟩
  · exact exec_order_refused h rfl ((heq _).trans ((if_neg hactive).trans (if_neg hjoining)))

/-! ## LINK_DARK (R14) -/

/-- R13 to R16: a teardown is the one the statements spell out. -/
theorem State.takeDown_tornDown (s : State) (l : LinkIx) (new : LinkState) (cause : LinkCause) :
    TornDown s (s.takeDown l new cause) l new cause := by
  rw [State.takeDown_eq]
  refine ⟨fun h => if_neg h, fun h => ?_⟩
  dsimp only
  rw [if_pos h]
  exact State.reEvaluate_reEvaluated _ _ _ _

theorem orderLinkDark_eq (hl : o.link? = some l) : orderLinkDark o s =
    if (s.link l).mgr.state = .dark then (s, .done)
    else if (s.link l).mgr.state = .fault then
      ((s.modMgr l (fun m => { m with state := .dark, laser := false })).notify (.linkState l .fault .dark .order noWires none), .done)
    else (s.takeDown l .dark .order, .done) := by
  cases hstate : (s.link l).mgr.state <;> simp [orderLinkDark, hl, hstate]

/-- Settles O11. -/
theorem linkDarkTearsLinkDown : Obligations.LinkDarkTearsLinkDown := by
  intro s index tag l h hl
  have heq (u : State) := orderLinkDark_eq (s := u) (o := plainOrder 11 index tag) (Order.link?_of_eq hl)
  refine ⟨fun hdark => ?_, fun hfault => ?_, fun hdark hfault => ?_⟩
  · exact exec_order_refused h rfl ((heq _).trans (if_pos hdark))
  · have hdark : ¬ (s.link l).mgr.state = .dark := by simp [hfault]
    exact exec_order_of_take h rfl ((heq _).trans ((if_neg hdark).trans (if_pos hfault)))
  · exact exec_order_exists h rfl ((heq _).trans ((if_neg hdark).trans (if_neg hfault)))
      ((State.takeDown_tornDown (s.advanced (plainOrder 11 index tag)) l .dark .order).withOrders s.orders)

/-! ## LINK_QUERY (R23) -/

theorem LinkState.controlOpen_iff (x : LinkState) :
    x.controlOpen = true ↔ x ∈ ([.standby, .joining, .active, .quiescing] : List LinkState) := by
  cases x <;> decide

theorem orderLinkQuery_eq (hl : o.link? = some l) {item : Item} (hitem : itemOf o.p1 = some item) : orderLinkQuery o s =
    if (s.link l).mgr.state.controlOpen = false then (s, .refused .wrongState)
    else if 8 ≤ (s.link l).mgr.pendingQueue.length then (s, .refused .queueFull)
    else (s.issueRequest l (.query item o.tag), .done) := by
  simp [orderLinkQuery, hl, hitem]

theorem orderLinkQuery_of_noItem (hl : o.link? = some l) (hitem : itemOf o.p1 = none) : orderLinkQuery o s = (s, .refused .badValue) := by
  simp [orderLinkQuery, hl, hitem]

theorem itemOf_of_four_le {w : Word} (h : 4 ≤ w.toNat) : itemOf w = none := by
  unfold itemOf
  split
  case h_5 => rfl
  all_goals omega

theorem itemOf_of_mem {w : Word} {item : Item}
    (h : (w, item) ∈ ([(0, .temp), (1, .outPower), (2, .feederRl), (3, .supply)] : List (Word × Item))) : itemOf w = some item := by
  simp only [List.mem_cons, Prod.mk.injEq, List.not_mem_nil, or_false] at h
  obtain ⟨rfl, rfl⟩ | ⟨rfl, rfl⟩ | ⟨rfl, rfl⟩ | ⟨rfl, rfl⟩ := h <;> rfl

/-- Settles O12. -/
theorem linkQueryIssuesRequest : Obligations.LinkQueryIssuesRequest := by
  intro s index tag w1 l item h hl
  have hlink : ({ plainOrder 12 index tag with p1 := w1 } : Order).link? = some l := Order.link?_of_eq hl
  refine ⟨fun hbad => ?_, fun hitem => ⟨fun hclosed => ?_, fun hopen => ⟨fun hfull => ?_, fun hroom => ⟨fun g hg hlow => ?_, fun hheld => ?_⟩⟩⟩⟩
  · exact exec_order_refused h rfl (orderLinkQuery_of_noItem hlink (itemOf_of_four_le hbad))
  all_goals
    have heq (u : State) := orderLinkQuery_eq (s := u) (o := { plainOrder 12 index tag with p1 := w1 }) hlink (itemOf_of_mem hitem)
  · have hc : (s.link l).mgr.state.controlOpen = false := by
      rw [← Bool.not_eq_true, LinkState.controlOpen_iff]
      exact hclosed
    exact exec_order_refused h rfl ((heq _).trans (if_pos hc))
  all_goals
    have hc : ¬ (s.link l).mgr.state.controlOpen = false := by
      rw [Bool.not_eq_false, LinkState.controlOpen_iff]
      exact hopen
  · exact exec_order_refused h rfl ((heq _).trans ((if_neg hc).trans (if_pos hfull)))
  · refine exec_order_of_take h rfl ((heq _).trans ((if_neg hc).trans ((if_neg (Nat.not_le.mpr hroom)).trans ?_)))
    rw [State.issueRequest_of_free (s := s.advanced _) (Manager.freeTag_of_free hg hlow)]
    rfl
  · refine exec_order_of_take h rfl ((heq _).trans ((if_neg hc).trans ((if_neg (Nat.not_le.mpr hroom)).trans ?_)))
    rw [State.issueRequest_query_of_held (s := s.advanced _) ((Manager.freeTag_eq_none_iff _).mpr hheld)]
    rfl

/-! ## SET_LINK (R2) -/

/-- R2, R24: the changes of settings that call for a SETUP. -/
theorem setupDue_iff (st : LinkState) (x y : Settings) : setupDue st x y = true ↔
    (st = .standby ∧ (x.zone ≠ y.zone ∨ x.group ≠ y.group)) ∨
      (st ∈ ([.standby, .joining, .active] : List LinkState) ∧ x.power ≠ y.power) := by
  cases st with
  | standby =>
    simp [setupDue]
    tauto
  | _ => simp [setupDue]

/-- R34: the path a link's settings and range give. -/
def Link.pathBy (x : Link) (y : Settings) : Nat := pathOf x.rng.delay x.rng.latency y.cable

/-- R2: a link's record once settings y are stored, its group still to be re-evaluated. -/
def Link.stored (x : Link) (y : Settings) : Link :=
  { x with
    settings := y
    mgr := { x.mgr with txQueue := if setupDue x.mgr.state x.settings y then placeSetup x.mgr.txQueue y.toSetup else x.mgr.txQueue }
    rng := { x.rng with path := if x.rng.valid = true ∧ x.settings.cable ≠ y.cable then x.pathBy y else x.rng.path } }

/-- R2, R24: a link's record once settings y are stored, its path still to be recomputed. -/
def Link.resettled (x : Link) (y : Settings) : Link :=
  { x with
    settings := y
    mgr := { x.mgr with txQueue := if setupDue x.mgr.state x.settings y then placeSetup x.mgr.txQueue y.toSetup else x.mgr.txQueue } }

theorem State.storeSettings_unfold (y : Settings) : s.storeSettings l y =
    if (s.link l).settings.cable ≠ y.cable ∧ (s.link l).rng.valid then (s.modLink l (fun x => x.resettled y)).recomputePath l
    else s.modLink l (fun x => x.resettled y) := by
  have hsetup : (if setupDue (s.link l).mgr.state (s.link l).settings y then (s.modSettings l (fun _ => y)).issueSetup l
      else s.modSettings l (fun _ => y)) = s.modLink l (fun x => x.resettled y) := by
    split
    · next hdue =>
      simp only [State.issueSetup, State.modSettings, State.modMgr, State.modLink_modLink, State.modLink_link_same]
      exact State.modLink_congr (by simp [Link.resettled, hdue])
    · next hdue => exact State.modLink_congr (by simp [Link.resettled, hdue])
  unfold State.storeSettings
  dsimp only
  rw [hsetup]

/-- R2, R34, R49: settings stored, and a new path of an ACTIVE link reported to its group. -/
theorem State.storeSettings_eq (y : Settings) : s.storeSettings l y =
    if (s.link l).mgr.state = .active ∧ (s.link l).rng.valid = true ∧ (s.link l).settings.cable ≠ y.cable ∧
        (s.link l).pathBy y ≠ (s.link l).rng.path then
      (s.modLink l (fun x => x.stored y)).reEvaluate y.group (.path l ((s.link l).pathBy y)) []
    else s.modLink l (fun x => x.stored y) := by
  have hstands (h : ¬ ((s.link l).rng.valid = true ∧ (s.link l).settings.cable ≠ y.cable) ∨ (s.link l).pathBy y = (s.link l).rng.path) :
      s.modLink l (fun x => x.resettled y) = s.modLink l (fun x => x.stored y) := by
    refine State.modLink_congr ?_
    have hpath : (if (s.link l).rng.valid = true ∧ (s.link l).settings.cable ≠ y.cable then (s.link l).pathBy y else (s.link l).rng.path) =
        (s.link l).rng.path := by
      obtain h | h := h
      · exact if_neg h
      · rw [h, ite_self]
    simp only [Link.resettled, Link.stored, hpath]
  rw [State.storeSettings_unfold]
  by_cases hdue : (s.link l).rng.valid = true ∧ (s.link l).settings.cable ≠ y.cable
  · rw [if_pos ⟨hdue.2, hdue.1⟩]
    unfold State.recomputePath
    simp only [State.modLink_link_same]
    by_cases hp : (s.link l).pathBy y = (s.link l).rng.path
    · refine (if_pos hp).trans ?_
      rw [if_neg (fun h => h.2.2.2 hp), hstands (.inr hp)]
    · have hmod : (s.modLink l (fun x => x.resettled y)).modRng l (fun r => { r with path := (s.link l).pathBy y }) =
          s.modLink l (fun x => x.stored y) := by
        rw [State.modRng, State.modLink_modLink]
        exact State.modLink_congr (by simp only [Link.stored, if_pos hdue]; rfl)
      refine (if_neg hp).trans ((congrArg (State.reportPath · l) hmod).trans ?_)
      have hpath : ((s.link l).stored y).rng.path = (s.link l).pathBy y := if_pos hdue
      simp only [State.reportPath, State.modLink_link_same, hpath]
      exact if_congr ⟨fun h => ⟨h, hdue.1, hdue.2, hp⟩, fun h => h.1⟩ rfl rfl
  · rw [if_neg fun h => hdue ⟨h.2, h.1⟩, if_neg (fun h => hdue ⟨h.2.1, h.2.2.1⟩), hstands (.inl hdue)]

theorem orderSetLink_eq (hl : o.link? = some l) {z : ZoneIx} {g : GroupIx} (hz : fieldAt o.p1 0 8 = z.val) (hg : fieldAt o.p1 8 8 = g.val) :
    orderSetLink o s =
      if ((s.link l).settings.zone ≠ z ∨ (s.link l).settings.group ≠ g) ∧ (s.link l).mgr.state.placed then (s, .refused .wrongState)
      else (s.storeSettings l (o.settings z g), doneOr o.settingsClamped) := by
  simp [orderSetLink, hl, indexBelow_of_eq hz, indexBelow_of_eq hg]

theorem orderSetLink_of_badIndex (h : 8 ≤ fieldAt o.p1 0 8 ∨ 4 ≤ fieldAt o.p1 8 8) : orderSetLink o s = (s, .refused .badIndex) := by
  unfold orderSetLink
  split
  · next hz hg =>
    obtain h | h := h
    · rw [indexBelow_of_le h] at hz
      cases hz
    · rw [indexBelow_of_le h] at hg
      cases hg
  · rfl

theorem LinkState.placed_iff (x : LinkState) : x.placed = true ↔ x ∈ ([.joining, .active, .quiescing] : List LinkState) := by
  cases x <;> decide

/-- R24: a SETUP in a transmit queue. -/
theorem setupsReplaceOneAnother : SetupsReplaceOneAnother := by
  have hnone {q : List DownMsg} (hq : ∀ y : Setup, .setup y ∉ q) : ∀ m ∈ q, m.isSetup = false := by
    intro m hm
    cases m with
    | setup y => exact absurd hm (hq y)
    | _ => rfl
  have hmap {q : List DownMsg} (x : Setup) (hq : ∀ m ∈ q, m.isSetup = false) : q.map (fun m => if m.isSetup then .setup x else m) = q := by
    conv_rhs => rw [← List.map_id q]
    exact List.map_congr_left fun m hm => by simp [hq m hm]
  intro q x
  refine ⟨fun hq => ?_, fun before y after hq hno => ?_⟩
  · unfold placeSetup
    rw [if_neg (by simpa using hnone hq)]
  · have hall := hnone hno
    subst hq
    unfold placeSetup
    rw [if_pos (by simp [DownMsg.isSetup]), List.map_append, List.map_cons, hmap x fun m hm => hall m (by simp [hm]),
      hmap x fun m hm => hall m (by simp [hm]),
      if_pos (show (DownMsg.setup y).isSetup = true from rfl)]

theorem clampInt_ne_iff {lo hi n : Int} (h : lo ≤ hi) : (clampInt lo hi n != n) = true ↔ ¬ (lo ≤ n ∧ n ≤ hi) := by
  rw [bne_iff_ne, ne_eq, clampInt_eq_self_iff lo hi n h]

theorem clampNat_ne_iff {lo hi n : Nat} (h : lo ≤ hi) : (clampNat lo hi n != n) = true ↔ ¬ (lo ≤ n ∧ n ≤ hi) := by
  rw [bne_iff_ne, ne_eq, clampNat_eq_self_iff lo hi n h]

/-- R1, R2: the tuning values of a SET_LINK, clamped into their ranges. -/
theorem Order.settings_eq (o : Order) (z : ZoneIx) (g : GroupIx) : o.settings z g =
    { zone := z, group := g, power := min 100 (fieldAt o.p1 16 16), asymmetry := max (-1024) (min 1023 (signedAt o.p2 0))
      cable := max (-2048) (min 2047 (signedAt o.p2 16)), jitter := min 255 (fieldAt o.p3 0 16)
      gateHold := max 1 (min 255 (fieldAt o.p3 16 16)), gain := min 32767 (fieldAt o.p4 0 16) } := by
  simp [Order.settings, clampNat_eq, clampInt_eq]

theorem Order.settingsClamped_iff (o : Order) : o.settingsClamped = true ↔
    ¬ (fieldAt o.p1 16 16 ≤ 100 ∧ -1024 ≤ signedAt o.p2 0 ∧ signedAt o.p2 0 ≤ 1023 ∧ -2048 ≤ signedAt o.p2 16 ∧ signedAt o.p2 16 ≤ 2047 ∧
      fieldAt o.p3 0 16 ≤ 255 ∧ 1 ≤ fieldAt o.p3 16 16 ∧ fieldAt o.p3 16 16 ≤ 255 ∧ fieldAt o.p4 0 16 ≤ 32767) := by
  simp only [Order.settingsClamped, Bool.or_eq_true, clampNat_ne_iff (show 0 ≤ 100 by decide), clampNat_ne_iff (show 0 ≤ 255 by decide),
    clampNat_ne_iff (show 1 ≤ 255 by decide), clampNat_ne_iff (show 0 ≤ 32767 by decide),
    clampInt_ne_iff (show (-1024 : Int) ≤ 1023 by decide), clampInt_ne_iff (show (-2048 : Int) ≤ 2047 by decide)]
  omega

theorem doneOr_of_iff {b : Bool} {p : Prop} [Decidable p] (h : b = true ↔ ¬ p) : doneOr b = if p then .done else .clamped := by
  unfold doneOr
  by_cases hp : p
  · rw [if_pos hp, if_neg (fun hb => h.mp hb hp)]
  · rw [if_neg hp, if_pos (h.mpr hp)]

/-- Settles O13. -/
theorem setLinkStoresClampedSettings : Obligations.SetLinkStoresClampedSettings := by
  refine ⟨setupsReplaceOneAnother, ?_⟩
  intro s index tag w1 w2 w3 w4 l h hl o x power a c j hold gain
  have hlink : o.link? = some l := Order.link?_of_eq hl
  refine ⟨fun hbad => exec_order_refused h rfl (orderSetLink_of_badIndex hbad), fun z g hz hg => ⟨fun hmove hplaced => ?_, fun hstay => ?_⟩⟩
  all_goals
    have heq (u : State) := orderSetLink_eq (s := u) (o := o) hlink hz hg
  · exact exec_order_refused h rfl ((heq _).trans (if_pos ⟨hmove, (LinkState.placed_iff _).mpr hplaced⟩))
  · intro y setup path result stored
    have hy : o.settings z g = y := o.settings_eq z g
    have hresult : doneOr o.settingsClamped = result := doneOr_of_iff o.settingsClamped_iff
    have hkeep : ¬ (((s.link l).settings.zone ≠ z ∨ (s.link l).settings.group ≠ g) ∧ (s.link l).mgr.state.placed = true) := by
      rw [LinkState.placed_iff]
      tauto
    have hanswer : takeByCode o (s.advanced o) = ((s.advanced o).storeSettings l y, result) := by
      rw [← hy, ← hresult]
      exact (heq _).trans (if_neg hkeep)
    have hqueue : (if setupDue x.mgr.state x.settings y = true then placeSetup x.mgr.txQueue y.toSetup else x.mgr.txQueue) =
        if setup then placeSetup x.mgr.txQueue y.toSetup else x.mgr.txQueue := if_congr (setupDue_iff _ _ _) rfl rfl
    have hstored : s.modLink l (fun x => x.stored y) = stored :=
      State.modLink_congr (congrArg (fun q => ({ x with
        settings := y
        mgr := { x.mgr with txQueue := q }
        rng := { x.rng with path := if x.rng.valid = true ∧ x.settings.cable ≠ y.cable then path else x.rng.path } } : Link)) hqueue)
    refine ⟨fun hsame => ?_, fun hactive hvalid hcable hnew => ?_⟩
    · refine exec_order_of_take h rfl (hanswer.trans ?_)
      rw [State.storeSettings_eq, if_neg, ← hstored]
      · rfl
      · rintro ⟨hactive, hvalid, hcable, hnew⟩
        obtain hs | hs | hs | hs := hsame
        · exact hs hactive
        · cases hs.symm.trans hvalid
        · exact hcable hs.symm
        · exact hnew hs
    · refine exec_order_exists h rfl hanswer ?_
      rw [State.storeSettings_eq, if_pos ⟨hactive, hvalid, Ne.symm hcable, hnew⟩, ← hstored]
      exact (State.reEvaluate_reEvaluated ((s.advanced o).modLink l (fun x => x.stored y)) g _ []).withOrders s.orders

end Sys2Proof.Machine
end

section
/-! The orders to the groups, the zones' settings, the notice unit and the service table that make no replan (R46, R65, R68, R110, R176). -/

namespace Sys2Proof.Machine

open Sys2Proof

variable {s : State} {o : Order}

/-! ## SET_ZONE (R110) -/

theorem onOff_of_le_one {w : Word} (h : w.toNat ≤ 1) : onOff w = some (decide (w = 1)) := by
  obtain rfl | rfl : w = 0 ∨ w = 1 := by bv_omega
  · rfl
  · rfl

theorem onOff_of_two_le {w : Word} (h : 2 ≤ w.toNat) : onOff w = none := by
  unfold onOff
  split
  case h_3 => rfl
  all_goals omega

theorem orderSetZone_eq {z : ZoneIx} (hz : o.index.toNat = z.val) : orderSetZone o s =
    (onOff o.p1).elim (s, .refused .badValue) (fun on => (s.modZone z (fun x => { x with crossfade := on }), .done)) := by
  unfold orderSetZone
  rw [indexBelow_of_eq hz]
  cases onOff o.p1 <;> rfl

/-- Settles O15. -/
theorem setZoneStoresCrossfade : Obligations.SetZoneStoresCrossfade := by
  intro s index tag w1 z h hz
  have heq (u : State) := orderSetZone_eq (s := u) (o := { plainOrder 14 index tag with p1 := w1 }) hz
  refine ⟨fun hle => ?_, fun hle => ?_⟩
  · refine exec_order_of_take h rfl ((heq _).trans ?_)
    rw [show onOff _ = some (decide (w1 = 1)) from onOff_of_le_one hle]
    rfl
  · refine exec_order_refused h rfl ((heq _).trans ?_)
    rw [show onOff _ = none from onOff_of_two_le hle]
    rfl

/-! ## SET_NOTICES (R176) -/

theorem orderSetNotices_eq : orderSetNotices o s = (onOff o.p2).elim (s, .refused .badValue) (fun on =>
    (s.modNotices (fun u => u.rethreshold (clampNat 0 (clampNat 1 64 (fieldAt o.p1 16 16) - 1) (fieldAt o.p1 0 16))
      (clampNat 1 64 (fieldAt o.p1 16 16)) on),
      doneOr (clampNat 1 64 (fieldAt o.p1 16 16) != fieldAt o.p1 16 16 ||
        clampNat 0 (clampNat 1 64 (fieldAt o.p1 16 16) - 1) (fieldAt o.p1 0 16) != fieldAt o.p1 0 16))) := by
  unfold orderSetNotices
  cases onOff o.p2 <;> rfl

/-- R174 to R176: the hold state and NIRQ under new thresholds, the hold threshold below the resume threshold. -/
theorem NoticeUnit.rethreshold_eq (u : NoticeUnit) {hold resume : Nat} (on : Bool) (h : hold < resume) : u.rethreshold hold resume on =
    { u with
      holdAt := hold, resumeAt := resume, irqEnable := on
      holdState := if u.holdState = .normal then (if u.free ≤ hold then .hold else .normal)
        else if resume ≤ u.free then .normal else .hold
      nirq := u.posted != u.consumed && on } := by
  have hfree (x : HoldState) (a b : Nat) (on : Bool) :
      ({ u with holdAt := a, resumeAt := b, irqEnable := on, holdState := x } : NoticeUnit).free = u.free := rfl
  unfold NoticeUnit.rethreshold NoticeUnit.enterHold NoticeUnit.leaveHold NoticeUnit.refreshIrq
  cases hstate : u.holdState with
  | normal =>
    by_cases hle : u.free ≤ hold
    · simp [hfree, hle, show ¬ resume ≤ u.free by omega]
    · simp [hfree, hle]
  | hold => by_cases hle : resume ≤ u.free <;> simp [hfree, hle]

/-- Settles O21. -/
theorem setNoticesClampsThresholds : Obligations.SetNoticesClampsThresholds := by
  intro s index tag w1 w2 h o hold resume
  have hresume : clampNat 1 64 (fieldAt o.p1 16 16) = resume := clampNat_eq _ _ _ (by decide)
  have hpos : 1 ≤ resume := Nat.le_max_left ..
  have hhold : clampNat 0 (resume - 1) (fieldAt o.p1 0 16) = min hold (resume - 1) := by
    rw [clampNat_eq _ _ _ (Nat.zero_le _)]
    show max 0 (min (resume - 1) hold) = _
    omega
  have heq (u : State) := orderSetNotices_eq (s := u) (o := o)
  rw [hresume, hhold] at heq
  refine ⟨fun hle => ?_, fun hle => ?_⟩
  · refine exec_order_refused h rfl ((heq _).trans ?_)
    rw [show onOff o.p2 = none from onOff_of_two_le hle]
    rfl
  · have hresult : doneOr (resume != fieldAt o.p1 16 16 || min hold (resume - 1) != fieldAt o.p1 0 16) =
        if (w1.extractLsb' 16 16).toNat = resume ∧ hold < resume then .done else .clamped := by
      refine doneOr_of_iff ?_
      rw [Bool.or_eq_true, bne_iff_ne, bne_iff_ne]
      show (resume ≠ (w1.extractLsb' 16 16).toNat ∨ min hold (resume - 1) ≠ hold) ↔ _
      omega
    refine exec_order_of_take h rfl ((heq _).trans ?_)
    rw [show onOff o.p2 = some (decide (w2 = 1)) from onOff_of_le_one hle, hresult]
    refine congrArg (Prod.mk · _) ?_
    exact congrArg (fun n => ({ s.advanced o with notices := n } : State)) (s.notices.rethreshold_eq _ (by omega))

/-! ## SET_GROUP (R46) -/

theorem orderSetGroup_eq {g : GroupIx} (hg : o.index.toNat = g.val) : orderSetGroup o s =
    ((s.modGroup g (fun x => { x with guard := min 255 (fieldAt o.p1 0 16), slew := max 1 (min 80 (fieldAt o.p1 16 16)) })).reEvaluate
      g .setGroup [], if fieldAt o.p1 0 16 ≤ 255 ∧ 1 ≤ fieldAt o.p1 16 16 ∧ fieldAt o.p1 16 16 ≤ 80 then .done else .clamped) := by
  have hresult := doneOr_of_iff (b := clampNat 0 255 (fieldAt o.p1 0 16) != fieldAt o.p1 0 16 ||
    clampNat 1 80 (fieldAt o.p1 16 16) != fieldAt o.p1 16 16)
    (p := fieldAt o.p1 0 16 ≤ 255 ∧ 1 ≤ fieldAt o.p1 16 16 ∧ fieldAt o.p1 16 16 ≤ 80) (by
      rw [Bool.or_eq_true, clampNat_ne_iff (by decide), clampNat_ne_iff (by decide)]
      omega)
  unfold orderSetGroup
  rw [indexBelow_of_eq hg]
  dsimp only
  rw [hresult, clampNat_eq _ _ _ (by decide), clampNat_eq _ _ _ (by decide), Nat.zero_max]

/-- R49 step 1: a re-evaluation of a group without members. -/
theorem State.reEvaluate_of_no_members {g : GroupIx} {cause : AlignCause}
    (h : ∀ l, (s.link l).mgr.state = .active → (s.link l).settings.group ≠ g) : s.reEvaluate g cause [] =
      { s.modGroup g (fun x => { x with target := none, hold := none }) with
        notices := if (s.group g).target = none ∧ (s.group g).hold = none then s.notices
          else s.notices.generate (.align g cause (s.group g).target none none []) } := by
  have hempty : s.members g = [] := List.eq_nil_iff_forall_not_mem.mpr fun l hl => by
    obtain ⟨hactive, hgroup⟩ := (s.mem_members g l).mp hl
    exact h l hactive hgroup
  have hgroup : s.reEvaluatedGroup g = { s.group g with target := none, hold := none } := by
    rw [State.reEvaluatedGroup, hempty]
    rfl
  have hrealigned : s.realigned g = s.modGroup g (fun x => { x with target := none, hold := none }) := by
    rw [State.realigned, State.computeKStar, State.modGroup_group_same, hgroup]
    simp [State.modGroup, State.group]
  have hflags : s.alignFlags g [] = [] := by
    rw [State.alignFlags, hempty]
    rfl
  rw [State.reEvaluate_eq, hflags, hgroup, hrealigned]
  by_cases hnone : (s.group g).target = none ∧ (s.group g).hold = none
  · rw [if_neg (by rw [alignPosts_iff]; simp [hnone.1, hnone.2]), if_pos hnone]
    rfl
  · rw [if_pos (by
      rw [alignPosts_iff]
      by_cases ht : (s.group g).target = none
      · exact .inr (.inl fun e => hnone ⟨ht, by simpa using e.symm⟩)
      · exact .inl (Ne.symm ht)), if_neg hnone]
    rfl

/-- Settles O14. -/
theorem setGroupStoresAndReEvaluates : Obligations.SetGroupStoresAndReEvaluates := by
  intro s index tag w1 g h hg guard slew r stored
  have heq (u : State) := orderSetGroup_eq (s := u) (o := { plainOrder 13 index tag with p1 := w1 }) hg
  have hreev := (State.reEvaluate_reEvaluated ((s.advanced { plainOrder 13 index tag with p1 := w1 }).modGroup g
    (fun x => { x with guard := min 255 guard, slew := max 1 (min 80 slew) })) g .setGroup []).withOrders s.orders
  refine ⟨exec_order_exists h rfl (heq _) hreev, fun hnone => ?_, fun p t0 m hm hmg hpath hmax htarget hhold => ?_⟩
  · have hno := State.reEvaluate_of_no_members (s := (s.advanced { plainOrder 13 index tag with p1 := w1 }).modGroup g
      (fun x => { x with guard := min 255 guard, slew := max 1 (min 80 slew) })) (g := g) (cause := .setGroup) hnone
    refine exec_order_of_take h rfl ((heq _).trans (congrArg (Prod.mk · r) (hno.trans ?_)))
    simp only [State.modGroup_group_same, State.modGroup_modGroup]
    rfl
  · refine exec_order_exists_of h rfl (heq _) fun t ht => ?_
    have hlink (l : LinkIx) : t.link l = { s.link l with align := (t.link l).align } := by
      rw [ht]
      exact State.reEvaluate_link_frame _ g .setGroup [] l
    have hk (l : LinkIx) : (t.link l).align.k = (s.link l).align.k := by
      rw [ht]
      exact State.reEvaluate_align_k g .setGroup [] l
    have hstored : stored.group g = { s.group g with guard := min 255 guard, slew := max 1 (min 80 slew) } :=
      State.modGroup_group_same ..
    replace hreev : stored.reEvaluated t g (stored.group g) .setGroup [] := by
      rw [ht]
      exact hreev
    rw [hstored] at hreev
    dsimp only at hreev
    obtain ⟨⟨hguard, hslew, -⟩, -, hmember, hkstar, -, hgroups, -, htime, hservices, hzones, hinputs, harbiter, hcombiner, -, -, hposter, -⟩ :=
      hreev
    have hlongest (l : LinkIx) (hl : (s.link l).mgr.state = .active ∧ (s.link l).settings.group = g) :
        (s.link l).rng.path ≤ (s.link m).rng.path := hpath ▸ hmax l hl.1 hl.2
    obtain ⟨hrise, hwait⟩ := hmember m ⟨hm, hmg⟩ hlongest
    dsimp only at hrise hwait hguard hslew
    rw [show (stored.link m).rng.path = p from hpath] at hrise hwait
    have htop : (t.group g).target = some (max t0 (p + min 255 guard)) := by
      by_cases hle : t0 ≤ p + min 255 guard
      · rw [max_eq_right hle]
        exact (hrise (.inr ⟨t0, htarget, hle⟩)).1
      · rw [max_eq_left (by omega)]
        exact (hwait t0 htarget (by omega)).1
    refine ⟨hguard, hslew, fun hle => hrise (.inr ⟨t0, htarget, hle⟩), fun hlt => ?_, fun l hactive hgroup => ?_, fun l => ?_, fun g' hne => ?_,
      htime, hservices, hzones, hinputs, harbiter, hcombiner, hposter⟩
    · obtain ⟨h1, h2⟩ := hwait t0 htarget hlt
      refine ⟨h1, h2.trans ?_⟩
      rw [show ({ s.group g with guard := min 255 guard, slew := max 1 (min 80 slew) } : Group).hold = none from hhold]
    · rw [hkstar l _ ⟨hactive, hgroup⟩ htop]
      rfl
    · have hl := hlink l
      exact ⟨hk l, by rw [hl], by rw [hl], by rw [hl]⟩
    · rw [hgroups g' hne]
      exact State.modGroup_group_other _ _ _ _ (Ne.symm hne)

end Sys2Proof.Machine
end

section
/-! The definition of a service: SET_SERVICE and CLEAR_SERVICE (R64, R65, R68). -/

namespace Sys2Proof.Machine

open Sys2Proof

variable {s : State} {o : Order} {v : ServiceIx}

theorem mem_allZones (z : ZoneIx) : z ∈ allZones := by revert z; decide

/-- R65, R68: a service with an entry in some zone's current or staged plan. -/
theorem State.inSomePlan_iff : s.inSomePlan v = true ↔
    ∃ z, v ∈ carriedOf (s.zone z).entries ∨ ∃ p, (s.zone z).staged = some p ∧ v ∈ carriedOf p.entries := by
  unfold State.inSomePlan
  rw [List.any_eq_true]
  have hzone (z : ZoneIx) : ((carriedOf (s.zone z).entries).contains v || (match (s.zone z).staged with
      | some p => (carriedOf p.entries).contains v
      | none => false)) = true ↔ v ∈ carriedOf (s.zone z).entries ∨ ∃ p, (s.zone z).staged = some p ∧ v ∈ carriedOf p.entries := by
    cases (s.zone z).staged <;> simp
  exact ⟨fun ⟨z, _, h⟩ => ⟨z, (hzone z).mp h⟩, fun ⟨z, h⟩ => ⟨z, mem_allZones z, (hzone z).mpr h⟩⟩

/-! ## CLEAR_SERVICE (R68) -/

theorem orderClearService_eq (hv : o.service? = some v) : orderClearService o s =
    if (s.service v).state ≠ .defined then (s, .refused .wrongState)
    else if s.inSomePlan v then (s, .refused .busy)
    else (s.modService v Service.clear, .done) := by
  simp [orderClearService, hv]

/-- Settles O25. -/
theorem clearServiceRestoresResetValues : Obligations.ClearServiceRestoresResetValues := by
  refine ⟨fun s index tag h hle => exec_order_refused h rfl (takeByCode_of_badIndex (n := 24) rfl hle), ?_⟩
  intro s index tag v h hv planned
  have heq (u : State) := orderClearService_eq (s := u) (o := plainOrder 4 index tag) (Order.service?_of_eq hv)
  refine ⟨fun hstate => ?_, fun hstate hplanned => ?_, fun hstate hplanned => ?_⟩
  · exact exec_order_refused h rfl ((heq _).trans (if_pos hstate))
  · exact exec_order_refused h rfl ((heq _).trans ((if_neg (not_not_intro hstate)).trans (if_pos (State.inSomePlan_iff.mpr hplanned))))
  · have hno : ¬ s.inSomePlan v = true := fun e => hplanned (State.inSomePlan_iff.mp e)
    exact exec_order_of_take h rfl ((heq _).trans ((if_neg (not_not_intro hstate)).trans (if_neg hno)))

/-! ## The ranges of a definition (R64, R65) -/

/-- R64: the areas of a service, in the order of the words that carry them. -/
def Service.given (x : Service) : Vector (Option Area) 4 := #v[x.areas.normal, x.areas.a, x.areas.b, x.ring]

/-- R64: two areas, each of a service of some width, have a byte in common. -/
def areasMeet (base1 size1 base2 size2 : Nat) : Prop := base1 < base2 + size2 ∧ base2 < base1 + size1

theorem rangesOverlap_iff (x y : Nat × Nat) : rangesOverlap x y = true ↔ areasMeet x.1 x.2 y.1 y.2 := by
  simp [rangesOverlap, areasMeet]

theorem Service.mem_ranges (x : Service) (r : Nat × Nat) :
    r ∈ x.ranges ↔ ∃ a, some a ∈ [x.areas.normal, x.areas.a, x.areas.b, x.ring] ∧ r = (a.base, areaBytes a x.width) := by
  simp only [Service.ranges, List.mem_map, List.mem_filterMap, id]
  constructor
  · rintro ⟨a, ⟨_, ha, rfl⟩, rfl⟩
    exact ⟨a, ha, rfl⟩
  · rintro ⟨a, ha, rfl⟩
    exact ⟨a, ⟨_, ha, rfl⟩, rfl⟩

theorem Service.mem_given (x : Service) (a : Area) : some a ∈ [x.areas.normal, x.areas.a, x.areas.b, x.ring] ↔ ∃ n : Fin 4, x.given[n] = some a := by
  simp [Service.given, Fin.exists_fin_succ, eq_comm]

theorem pairwiseApart_iff (rs : List (Nat × Nat)) : pairwiseApart rs = true ↔ rs.Pairwise (fun x y => ¬ areasMeet x.1 x.2 y.1 y.2) := by
  induction rs with
  | nil => simp [pairwiseApart]
  | cons x rest ih =>
    rw [pairwiseApart, Bool.and_eq_true, ih, List.pairwise_cons, List.all_eq_true]
    refine and_congr_left fun _ => forall₂_congr fun y _ => ?_
    rw [Bool.not_eq_true', ← Bool.not_eq_true, rangesOverlap_iff]

/-- R65: no two areas of a definition meet, position by position. -/
theorem Service.pairwiseApart_ranges (x : Service) : pairwiseApart x.ranges = true ↔
    ∀ (n m : Fin 4) (a a' : Area), n ≠ m → x.given[n] = some a → x.given[m] = some a' →
      ¬ areasMeet a.base (areaBytes a x.width) a'.base (areaBytes a' x.width) := by
  have hsymm (b1 s1 b2 s2 : Nat) : areasMeet b1 s1 b2 s2 ↔ areasMeet b2 s2 b1 s1 := and_comm
  have hlist : [x.areas.normal, x.areas.a, x.areas.b, x.ring] = x.given.toList := rfl
  rw [pairwiseApart_iff, Service.ranges, List.pairwise_map, List.pairwise_filterMap, hlist, List.pairwise_iff_getElem]
  constructor
  · intro h n m a a' hne hn hm
    obtain hlt | hlt := lt_or_gt_of_ne hne
    · exact h n.val m.val n.isLt m.isLt hlt a hn a' hm
    · rw [hsymm]
      exact h m.val n.val m.isLt n.isLt hlt a' hm a hn
  · intro h i j hi hj hlt a ha a' ha'
    exact h ⟨i, hi⟩ ⟨j, hj⟩ a a' (fun e => absurd (congrArg Fin.val e) (Nat.ne_of_lt hlt)) ha ha'

/-- R65 step 5: what SET_SERVICE refuses as an overlap. -/
theorem State.overlaps_iff (x : Service) : s.overlaps v x = true ↔ ∃ (n : Fin 4) (a : Area), x.given[n] = some a ∧
    (areasMeet a.base (areaBytes a x.width) s.path.windowBase 65536 ∨
      (∃ (m : Fin 4) (a' : Area), m ≠ n ∧ x.given[m] = some a' ∧ areasMeet a.base (areaBytes a x.width) a'.base (areaBytes a' x.width)) ∨
      (∃ (u : ServiceIx) (a' : Area), u ≠ v ∧ (s.service u).state ≠ .free ∧
        some a' ∈ [(s.service u).areas.normal, (s.service u).areas.a, (s.service u).areas.b, (s.service u).ring] ∧
        areasMeet a.base (areaBytes a x.width) a'.base (areaBytes a' (s.service u).width))) := by
  have hwindow : x.ranges.any (fun r => rangesOverlap r (s.path.windowBase, 65536)) = true ↔
      ∃ (n : Fin 4) (a : Area), x.given[n] = some a ∧ areasMeet a.base (areaBytes a x.width) s.path.windowBase 65536 := by
    simp only [List.any_eq_true, rangesOverlap_iff, Service.mem_ranges, Service.mem_given]
    constructor
    · rintro ⟨_, ⟨a, ⟨n, hn⟩, rfl⟩, h⟩
      exact ⟨n, a, hn, h⟩
    · rintro ⟨n, a, hn, h⟩
      exact ⟨_, ⟨a, ⟨n, hn⟩, rfl⟩, h⟩
  have hown : (!pairwiseApart x.ranges) = true ↔ ∃ (n : Fin 4) (a : Area), x.given[n] = some a ∧
      ∃ (m : Fin 4) (a' : Area), m ≠ n ∧ x.given[m] = some a' ∧ areasMeet a.base (areaBytes a x.width) a'.base (areaBytes a' x.width) := by
    rw [Bool.not_eq_true', ← Bool.not_eq_true, Service.pairwiseApart_ranges]
    push Not
    constructor
    · rintro ⟨n, m, a, a', hne, hn, hm, h⟩
      exact ⟨n, a, hn, m, a', hne.symm, hm, h⟩
    · rintro ⟨n, a, hn, m, a', hne, hm, h⟩
      exact ⟨n, m, a, a', hne.symm, hn, hm, h⟩
  have hothers : allServices.any (fun u => u != v && (s.service u).state != .free &&
        (s.service u).ranges.any (fun r => x.ranges.any (rangesOverlap r))) = true ↔
      ∃ (n : Fin 4) (a : Area), x.given[n] = some a ∧ ∃ (u : ServiceIx) (a' : Area), u ≠ v ∧ (s.service u).state ≠ .free ∧
        some a' ∈ [(s.service u).areas.normal, (s.service u).areas.a, (s.service u).areas.b, (s.service u).ring] ∧
        areasMeet a.base (areaBytes a x.width) a'.base (areaBytes a' (s.service u).width) := by
    simp only [List.any_eq_true, Bool.and_eq_true, bne_iff_ne, rangesOverlap_iff, Service.mem_ranges, Service.mem_given x]
    constructor
    · rintro ⟨u, -, ⟨hne, hstate⟩, _, ⟨a', ha', rfl⟩, _, ⟨a, ⟨n, hn⟩, rfl⟩, h⟩
      exact ⟨n, a, hn, u, a', hne, hstate, ha', h.symm⟩
    · rintro ⟨n, a, hn, u, a', hne, hstate, ha', h⟩
      exact ⟨u, mem_allServices u, ⟨hne, hstate⟩, _, ⟨a', ha', rfl⟩, _, ⟨a, ⟨n, hn⟩, rfl⟩, h.symm⟩
  rw [State.overlaps, Bool.or_eq_true, Bool.or_eq_true, hwindow, hown, hothers, or_assoc, ← exists_or, ← exists_or]
  refine exists_congr fun n => ?_
  rw [← exists_or, ← exists_or]
  exact exists_congr fun a => by rw [← and_or_left, ← and_or_left]

theorem optAreaOk_eq_false_iff (x : Option Area) (w lo : Nat) : optAreaOk x w lo = false ↔ ∃ a, x = some a ∧
    (a.blocks < lo ∨ 16 < a.blocks ∨ a.base % 4096 ≠ 0 ∨ 1073741824 < a.base + areaBytes a w) := by
  cases x with
  | none => simp [optAreaOk]
  | some a =>
    simp only [optAreaOk, areaOk, Bool.and_eq_false_iff, decide_eq_false_iff_not, Option.some.injEq, exists_eq_left']
    omega

/-- R65 step 4: what SET_SERVICE refuses as a bad value. -/
theorem Service.valuesOk_iff (x : Service) : x.valuesOk = false ↔ x.areas.normal = none ∨ x.width < 1 ∨ 8 < x.width ∨
    (∃ (n : Fin 4) (a : Area), x.given[n] = some a ∧
      (a.blocks < (if n = 3 then 2 else 3) ∨ 16 < a.blocks ∨ a.base % 4096 ≠ 0 ∨ 1073741824 < a.base + areaBytes a x.width)) ∨
    (x.kind ≠ .broadcast ∧ (x.areas.a.isSome = true ∨ x.areas.b.isSome = true)) ∨ (x.kind = .broadcast ∧ x.ring.isSome = true) := by
  have hareas : (∃ (n : Fin 4) (a : Area), x.given[n] = some a ∧
      (a.blocks < (if n = 3 then 2 else 3) ∨ 16 < a.blocks ∨ a.base % 4096 ≠ 0 ∨ 1073741824 < a.base + areaBytes a x.width)) ↔
      optAreaOk x.areas.normal x.width 3 = false ∨ optAreaOk x.areas.a x.width 3 = false ∨ optAreaOk x.areas.b x.width 3 = false ∨
        optAreaOk x.ring x.width 2 = false := by
    simp only [optAreaOk_eq_false_iff]
    have hfour {p : Fin 4 → Prop} : (∃ n, p n) ↔ p 0 ∨ p 1 ∨ p 2 ∨ p 3 := by simp [Fin.exists_fin_succ]
    rw [hfour, if_neg (by decide), if_neg (by decide), if_neg (by decide), if_pos rfl]
    rfl
  have hkind : (x.kind == .broadcast || (x.areas.a.isNone && x.areas.b.isNone)) = false ↔
      x.kind ≠ .broadcast ∧ (x.areas.a.isSome = true ∨ x.areas.b.isSome = true) := by
    cases x.areas.a <;> cases x.areas.b <;> simp
  rw [hareas]
  unfold Service.valuesOk
  simp only [Bool.and_eq_false_iff, decide_eq_false_iff_not, hkind, Bool.not_eq_false', Bool.and_eq_true, beq_iff_eq, Nat.not_le,
    Option.isSome_eq_false_iff, Option.isNone_iff_eq_none, or_assoc]
  exact (or_congr_right or_left_comm).trans or_left_comm

/-! ## SET_SERVICE (R65) -/

theorem orderSetService_eq (hv : o.service? = some v) : orderSetService o s =
    if (s.service v).state = .enabled then (s, .refused .wrongState)
    else if s.inSomePlan v then (s, .refused .busy)
    else (kindOf (fieldAt o.p1 0 2)).elim (s, .refused .badValue) (fun k =>
      if ((s.service v).defined k o).valuesOk = false then (s, .refused .badValue)
      else if s.overlaps v ((s.service v).defined k o) then (s, .refused .overlap)
      else (s.modService v (fun _ => (s.service v).defined k o), doneOr (clampNat 0 7 (fieldAt o.p1 8 8) != fieldAt o.p1 8 8))) := by
  cases hk : kindOf (fieldAt o.p1 0 2) <;> simp [orderSetService, hv, hk]

theorem kindOf_of_mem {n : Nat} {k : Kind} (h : (n, k) ∈ ([(0, .broadcast), (1, .mobile), (2, .rescue)] : List (Nat × Kind))) :
    kindOf n = some k := by
  simp only [List.mem_cons, Prod.mk.injEq, List.not_mem_nil, or_false] at h
  obtain ⟨rfl, rfl⟩ | ⟨rfl, rfl⟩ | ⟨rfl, rfl⟩ := h <;> rfl

/-- R65: the definition a SET_SERVICE stores. -/
theorem Service.defined_eq (y : Service) (k : Kind) (o : Order) : y.defined k o = { y with
    state := .defined, kind := k, width := (o.p1.extractLsb' 4 4).toNat, cls := min 7 (o.p1.extractLsb' 8 8).toNat
    incidentOnly := o.p1.getLsbD 16, mask := o.p1.extractLsb' 24 8, radioTag := o.p2, bypass := o.p1.getLsbD 17
    areas := ⟨areaOf o.p3, areaOf o.p4, areaOf o.p5⟩, ring := areaOf o.p6 } := by
  unfold Service.defined
  rw [clampNat_eq _ _ _ (by decide), Nat.zero_max]
  rfl

/-- Settles O22. -/
theorem setServiceStoresDefinition : Obligations.SetServiceStoresDefinition := by
  intro s index tag w1 w2 w3 w4 w5 w6 v h hv o planned cls area
  have heq (u : State) := orderSetService_eq (s := u) (o := o) (Order.service?_of_eq hv)
  have hnoplan (hplanned : ¬ planned) : ¬ s.inSomePlan v = true := fun e => hplanned (State.inSomePlan_iff.mp e)
  refine ⟨fun hstate => ?_, fun hstate hplanned => ?_, fun hstate hplanned hkind => ?_, fun k hstate hplanned hkind => ?_⟩
  · exact exec_order_refused h rfl ((heq _).trans (if_pos hstate))
  · exact exec_order_refused h rfl ((heq _).trans ((if_neg hstate).trans (if_pos (State.inSomePlan_iff.mpr hplanned))))
  · refine exec_order_refused h rfl ((heq _).trans ((if_neg hstate).trans ((if_neg (hnoplan hplanned)).trans ?_)))
    rw [show fieldAt o.p1 0 2 = 3 from hkind]
    rfl
  · intro x given size meets badValue overlap
    have harea (w : Word) : areaOf w = area w := areaOf_eq w
    have hx : (s.service v).defined k o = x := by
      rw [Service.defined_eq, harea, harea, harea, harea]
    have hanswer : takeByCode o (s.advanced o) =
        if x.valuesOk = false then (s.advanced o, .refused .badValue)
        else if s.overlaps v x then (s.advanced o, .refused .overlap)
        else ((s.advanced o).modService v (fun _ => x), doneOr (clampNat 0 7 (fieldAt o.p1 8 8) != fieldAt o.p1 8 8)) := by
      refine (heq _).trans ((if_neg hstate).trans ((if_neg (hnoplan hplanned)).trans ?_))
      rw [show kindOf (fieldAt o.p1 0 2) = some k from kindOf_of_mem hkind, Option.elim_some,
        show ((s.advanced o).service v).defined k o = x from hx]
      rfl
    refine ⟨fun hbad => ?_, fun hgood hover => ?_, fun hgood hover => ?_⟩
    · exact exec_order_refused h rfl (hanswer.trans (if_pos (x.valuesOk_iff.mpr hbad)))
    · have hok : ¬ x.valuesOk = false := fun e => hgood (x.valuesOk_iff.mp e)
      exact exec_order_refused h rfl (hanswer.trans ((if_neg hok).trans (if_pos ((s.overlaps_iff x).mpr hover))))
    · have hok : ¬ x.valuesOk = false := fun e => hgood (x.valuesOk_iff.mp e)
      have hapart : ¬ s.overlaps v x = true := fun e => hover ((s.overlaps_iff x).mp e)
      have hresult : doneOr (clampNat 0 7 (fieldAt o.p1 8 8) != fieldAt o.p1 8 8) = if cls ≤ 7 then .done else .clamped :=
        doneOr_of_iff ((clampNat_ne_iff (by decide)).trans (not_congr ⟨fun e => e.2, fun e => ⟨Nat.zero_le _, e⟩⟩))
      rw [← hresult]
      exact exec_order_of_take h rfl (hanswer.trans ((if_neg hok).trans (if_neg hapart)))

end Sys2Proof.Machine
end

section
/-! Replans in the terms of the statements (R84 to R89, R93): admission, placement, and the PLANs of a staged plan. -/

namespace Sys2Proof.Machine

open Sys2Proof

/-! ## Admission (R84 to R86) -/

/-- R86 step 2: a walk takes a service where its width fits what the services taken before it leave. -/
theorem mem_walk_iff (w : ServiceIx → Nat) {vs before after : List ServiceIx} {v : ServiceIx} (free : Nat) (hvs : vs.Nodup)
    (h : vs = before ++ v :: after) : v ∈ walk free (vs.map (fun v => (v, w v))) ↔
      ((before.filter (fun u => decide (u ∈ walk free (vs.map (fun v => (v, w v)))))).map w).sum + w v ≤ free := by
  have hsub (free : Nat) (us : List ServiceIx) (u : ServiceIx) (hu : u ∈ walk free (us.map (fun v => (v, w v)))) : u ∈ us := by
    induction us generalizing free with
    | nil => exact hu
    | cons y rest ih =>
      rw [List.map_cons, walk] at hu
      split at hu
      · obtain rfl | hu := List.mem_cons.mp hu
        · exact List.mem_cons_self ..
        · exact List.mem_cons_of_mem _ (ih _ hu)
      · exact List.mem_cons_of_mem _ (ih _ hu)
  induction vs generalizing free before with
  | nil => simp at h
  | cons x rest ih =>
    obtain ⟨hx, hrest⟩ := List.nodup_cons.mp hvs
    rw [List.map_cons, walk]
    cases before with
    | nil =>
      obtain ⟨rfl, rfl⟩ := List.cons.inj h
      split
      · next hfit => simpa using hfit
      · next hfit => simpa using ⟨fun hv => absurd (hsub _ _ _ hv) hx, fun hw => absurd hw hfit⟩
    | cons y b =>
      obtain ⟨rfl, hsplit⟩ := List.cons.inj h
      replace hsplit : rest = b ++ v :: after := hsplit
      have hih (free : Nat) : v ∈ walk free (rest.map (fun v => (v, w v))) ↔ _ := ih (before := b) free hrest hsplit
      subst hsplit
      have hv : v ≠ x := fun e => hx (e ▸ by simp)
      have hb : ∀ u ∈ b, u ≠ x := fun u hu e => hx (e ▸ by simp [hu])
      split
      · next hfit =>
        have hfilter : b.filter (fun u => decide (u ∈ x :: walk (free - w x) ((b ++ v :: after).map (fun v => (v, w v))))) =
            b.filter (fun u => decide (u ∈ walk (free - w x) ((b ++ v :: after).map (fun v => (v, w v))))) :=
          List.filter_congr fun u hu => by simp [hb u hu]
        rw [List.mem_cons, or_iff_right hv, hih (free - w x), List.filter_cons_of_pos (by simp), hfilter, List.map_cons, List.sum_cons]
        omega
      · next hfit =>
        have hnot : x ∉ walk free ((b ++ v :: after).map (fun v => (v, w v))) := fun hu => hx (hsub _ _ _ hu)
        rw [hih free, List.filter_cons_of_neg (by simpa using hnot)]

section
variable {s : State} {z : ZoneIx}

theorem mem_demandSet (v : ServiceIx) : v ∈ s.demandSet z ↔ s.isDemanded z v := by
  simp only [State.demandSet, List.mem_filter, mem_allServices, true_and, State.demands, State.isDemanded, Bool.and_eq_true, beq_iff_eq,
    Bool.or_eq_true, Bool.not_eq_true', hasZone, and_assoc]

theorem allServices_sorted : allServices.Pairwise (· < ·) := by decide

theorem demandSet_sorted : (s.demandSet z).Pairwise (· < ·) := allServices_sorted.filter _

/-- R85: a service's effective class is the one the statements give it. -/
theorem classIs_effectiveClass (v : ServiceIx) : s.classIs z v (s.effectiveClass z v) := by
  have howner : s.ownerChannel z = none ∨ ∃ y q, (s.zone z).owner = some y ∧ s.arbiter.parts[y] = some q ∧ s.ownerChannel z = some q.channel := by
    unfold State.ownerChannel
    cases hy : (s.zone z).owner with
    | none => exact .inl rfl
    | some y =>
      cases hq : s.arbiter.parts[y] with
      | none => exact .inl (by simp [hq])
      | some q => exact .inr ⟨y, q, rfl, hq, by simp [hq]⟩
  have hstream (c : Channel) : (if c = .a then StreamName.a else .b) = c.stream := by cases c <;> rfl
  refine ⟨fun ⟨hkind, y, q, hy, hq, harea⟩ => ?_, fun hno => ?_⟩
  · rw [State.effectiveClass, State.ownerChannel, hy]
    simp only [hq, Option.map_some]
    rw [if_pos ⟨hkind, by rwa [hstream] at harea⟩]
  · unfold State.effectiveClass
    obtain h | ⟨y, q, hy, hq, h⟩ := howner
    · rw [h]
    · rw [h]
      exact if_neg fun ⟨hkind, harea⟩ => hno ⟨hkind, y, q, hy, hq, by rwa [hstream]⟩

theorem classIs_unique {v : ServiceIx} {c c' : Nat} (h : s.classIs z v c) (h' : s.classIs z v c') : c = c' := by
  obtain ⟨h1, h2⟩ := h
  obtain ⟨h1', h2'⟩ := h'
  by_cases hp : (s.service v).kind = .broadcast ∧ ∃ y q, (s.zone z).owner = some y ∧ s.arbiter.parts[y] = some q ∧
      ((s.service v).areas.get (if q.channel = .a then .a else .b)).isSome = true
  · rw [h1 hp, h1' hp]
  · rw [h2 hp, h2' hp]

theorem sortsBefore_irrefl (v : ServiceIx) : ¬ s.sortsBefore z v v := by
  rintro ⟨c, c', hc, hc', h⟩
  obtain rfl := classIs_unique hc hc'
  obtain h | ⟨-, h | ⟨-, h⟩⟩ := h
  · exact lt_irrefl _ h
  · exact lt_irrefl _ h
  · exact lt_irrefl _ h

theorem effectiveClass_le (h : s.classesBounded) (v : ServiceIx) : s.effectiveClass z v ≤ 7 := by
  unfold State.effectiveClass
  have := h v
  split
  · split <;> omega
  · omega

/-- R86 step 1: the demand set in the order of admission. -/
theorem mem_sortedDemand (h : s.classesBounded) (v : ServiceIx) : v ∈ s.sortedDemand z ↔ s.isDemanded z v := by
  have hclass : ∀ c ≤ 7, c ∈ [7, 6, 5, 4, 3, 2, 1, 0] := by decide
  have hkind : ∀ k : Kind, k ∈ [Kind.rescue, .broadcast, .mobile] := fun k => by cases k <;> decide
  simp only [State.sortedDemand, List.mem_flatten, List.mem_map, exists_exists_and_eq_and, List.mem_filter, Bool.and_eq_true, beq_iff_eq,
    ← mem_demandSet]
  exact ⟨fun ⟨c, hc, k, hk, hv, _⟩ => hv,
    fun hv => ⟨_, hclass _ (effectiveClass_le h v), _, hkind (s.service v).kind, hv, rfl, rfl⟩⟩

theorem sortedDemand_sorted : (s.sortedDemand z).Pairwise (s.sortsBefore z) := by
  have hclasses : [7, 6, 5, 4, 3, 2, 1, 0].Pairwise (fun c c' : Nat => c' < c) := by decide
  have hkinds : [Kind.rescue, .broadcast, .mobile].Pairwise (fun k k' => k.rank < k'.rank) := by decide
  rw [State.sortedDemand, List.pairwise_flatten, List.pairwise_map]
  have hmem {c : Nat} {v : ServiceIx} {ks : List Kind} (hv : v ∈ (ks.map (fun k =>
      (s.demandSet z).filter (fun v => s.effectiveClass z v == c && (s.service v).kind == k))).flatten) : s.effectiveClass z v = c := by
    simp only [List.mem_flatten, List.mem_map, exists_exists_and_eq_and, List.mem_filter, Bool.and_eq_true, beq_iff_eq] at hv
    obtain ⟨k, -, -, hc, -⟩ := hv
    exact hc
  refine ⟨fun l hl => ?_, hclasses.imp fun hlt v hv v' hv' => ⟨_, _, classIs_effectiveClass v, classIs_effectiveClass v', .inl ?_⟩⟩
  · obtain ⟨c, -, rfl⟩ := List.mem_map.mp hl
    rw [List.pairwise_flatten, List.pairwise_map]
    refine ⟨fun l hl => ?_, hkinds.imp fun hlt v hv v' hv' => ⟨_, _, classIs_effectiveClass v, classIs_effectiveClass v', .inr ?_⟩⟩
    · obtain ⟨k, -, rfl⟩ := List.mem_map.mp hl
      refine List.Pairwise.imp_of_mem (fun {v v'} hv hv' hlt => ?_) (demandSet_sorted.filter _)
      simp only [List.mem_filter, Bool.and_eq_true, beq_iff_eq] at hv hv'
      refine ⟨_, _, classIs_effectiveClass v, classIs_effectiveClass v', .inr ⟨by rw [hv.2.1, hv'.2.1], .inr ⟨?_, hlt⟩⟩⟩
      rw [hv.2.2, hv'.2.2]
    · simp only [List.mem_filter, Bool.and_eq_true, beq_iff_eq] at hv hv'
      rw [hv.2.1, hv'.2.1, hv.2.2, hv'.2.2]
      exact ⟨rfl, .inl hlt⟩
  · rw [hmem hv, hmem hv']
    exact hlt

/-- R84 to R86: the carried set and the shed list are the ones the statements spell out. -/
theorem State.admits_carriedSet (h : s.classesBounded) : s.admits z (s.carriedSet z) (s.shedList z) := by
  have hnodup : (s.sortedDemand z).Nodup := (sortedDemand_sorted (s := s) (z := z)).imp fun {a b} hb (e : a = b) => sortsBefore_irrefl b (e ▸ hb)
  have hcarried (v : ServiceIx) : v ∈ s.carriedSet z ↔ s.isDemanded z v ∧ v ∈ s.admitted z := by
    simp [State.carriedSet, mem_demandSet]
  have hshed (v : ServiceIx) : v ∈ s.shedList z ↔ s.isDemanded z v ∧ v ∉ s.admitted z := by
    simp [State.shedList, mem_demandSet]
  refine ⟨s.sortedDemand z, sortedDemand_sorted, mem_sortedDemand h, demandSet_sorted.filter _, demandSet_sorted.filter _, fun v => ?_,
    fun v hv hv' => ((hshed v).mp hv').2 ((hcarried v).mp hv).2, fun before v after hsplit => ?_⟩
  · rw [mem_sortedDemand h, hcarried, hshed, ← and_or_left, and_iff_left (em _)]
  · have hin (u : ServiceIx) (hu : u ∈ s.sortedDemand z) : u ∈ s.carriedSet z ↔ u ∈ s.admitted z := by
      rw [hcarried, and_iff_right ((mem_sortedDemand h u).mp hu)]
    have hfilter : before.filter (fun u => decide (u ∈ s.carriedSet z)) = before.filter (fun u => decide (u ∈ s.admitted z)) :=
      List.filter_congr fun u hu => by rw [decide_eq_decide, hin u (by rw [hsplit]; simp [hu])]
    rw [hin v (by rw [hsplit]; simp), hfilter]
    exact mem_walk_iff (fun v => (s.service v).width) 32 hnodup hsplit

/-! ## Placement (R87) -/

theorem carriedOf_placeFrom (first : Nat) (xs : List (ServiceIx × Nat)) : carriedOf (placeFrom first xs) = xs.map Prod.fst := by
  induction xs generalizing first with
  | nil => rfl
  | cons x rest ih =>
    obtain ⟨v, w⟩ := x
    exact congrArg (v :: ·) (ih _)

theorem placeFrom_split {first : Nat} {xs : List (ServiceIx × Nat)} {before after : List Entry} {e : Entry}
    (h : placeFrom first xs = before ++ e :: after) : (e.service, e.width) ∈ xs ∧ e.first = first + (before.map (fun x => x.width)).sum := by
  induction xs generalizing first before with
  | nil => simp [placeFrom] at h
  | cons x rest ih =>
    obtain ⟨v, w⟩ := x
    cases before with
    | nil =>
      obtain ⟨rfl, -⟩ := List.cons.inj h
      exact ⟨List.mem_cons_self .., rfl⟩
    | cons b bs =>
      obtain ⟨rfl, hrest⟩ := List.cons.inj h
      obtain ⟨hmem, hfirst⟩ := ih hrest
      refine ⟨List.mem_cons_of_mem _ hmem, hfirst.trans ?_⟩
      rw [List.map_cons, List.sum_cons, Nat.add_assoc]

theorem State.places_placement (carried : List ServiceIx) : s.places carried (s.placement carried) := by
  refine ⟨?_, fun before e after h => ?_⟩
  · rw [State.placement, carriedOf_placeFrom, List.map_map]
    exact List.map_id _
  · obtain ⟨hmem, hfirst⟩ := placeFrom_split h
    obtain ⟨v, -, hv⟩ := List.mem_map.mp hmem
    obtain ⟨hs, hw⟩ := Prod.mk.inj hv
    subst hs
    exact ⟨hw.symm, by rw [hfirst, Nat.zero_add]⟩

end

/-! ## PLANs issued in turn (R93, R101) -/

section
variable (s : State) (l : LinkIx) (offer : Option (Exchange × List Entry))

@[simp] theorem State.issueOffer_zones : (s.issueOffer l offer).zones = s.zones := by rw [s.issueOffer_eq]; rfl
@[simp] theorem State.issueOffer_time : (s.issueOffer l offer).time = s.time := by rw [s.issueOffer_eq]; rfl

theorem State.issueOffer_link_other {l' : LinkIx} (h : l ≠ l') : (s.issueOffer l offer).link l' = s.link l' := by
  rw [s.issueOffer_eq, State.plusNotices_link, State.modLink_link_other _ _ _ _ h]

end

/-- A pass over links that gives each, by its own record, the PLAN it is offered issues those PLANs in turn. -/
theorem foldl_eq_issueOffers {f : State → LinkIx → State} {offer : LinkIx → Option (Exchange × List Entry)} {s : State}
    (hf : ∀ u l, u.link l = s.link l → u.zones = s.zones → u.time = s.time → f u l = u.issueOffer l (offer l)) {ls : List LinkIx}
    (hls : ls.Nodup) {t : State} (hlink : ∀ l ∈ ls, t.link l = s.link l) (hzones : t.zones = s.zones) (htime : t.time = s.time) :
    ls.foldl f t = ls.foldl (fun u l => u.issueOffer l (offer l)) t := by
  induction ls generalizing t with
  | nil => rfl
  | cons x rest ih =>
    obtain ⟨hx, hrest⟩ := List.nodup_cons.mp hls
    rw [List.foldl_cons, List.foldl_cons, hf t x (hlink x (List.mem_cons_self ..)) hzones htime]
    refine ih hrest (fun l hl => ?_) (by rw [State.issueOffer_zones, hzones]) (by rw [State.issueOffer_time, htime])
    rw [State.issueOffer_link_other _ _ _ (fun (e : x = l) => hx (e ▸ hl)), hlink l (List.mem_cons_of_mem _ hl)]

theorem State.forLinks_plansIssued {f : State → LinkIx → State} {offer : LinkIx → Option (Exchange × List Entry)} {s : State}
    (hf : ∀ u l, u.link l = s.link l → u.zones = s.zones → u.time = s.time → f u l = u.issueOffer l (offer l)) :
    s.plansIssued (s.forLinks f) offer := by
  rw [State.forLinks, foldl_eq_issueOffers hf allLinks_nodup (fun _ _ => rfl) rfl rfl]
  exact s.forLinks_issueOffer offer

section
variable (s : State) (z : ZoneIx)

/-- R93: the exchanges that the staging of a plan opens and redirects are the ones the statements spell out. -/
theorem State.openExchanges_stages (p : StagedPlan) : s.stages ((s.modZone z (fun x => { x with staged := some p })).openExchanges z p) z p := by
  refine State.forLinks_plansIssued fun u l hl _ _ => ?_
  rw [hl]
  show (if (s.link l).settings.zone = z then _ else u) = _
  by_cases hz : (s.link l).settings.zone = z
  · rw [if_pos hz]
    cases hst : (s.link l).mgr.state <;> simp [State.modZone_link, hst, hz] <;> rfl
  · simp [hz, State.issueOffer]

/-- R84 to R89, R93: a replan is the one the statements spell out. -/
theorem State.replan_replanned : s.replanned (s.replan z) z := by
  obtain ⟨hstaged, heq⟩ | ⟨hstaged, hsame, heq⟩ | ⟨hstaged, hdiffers, heq⟩ := s.replan_cases z
  · exact ⟨fun _ => heq, fun hno => by rw [hno] at hstaged; cases hstaged⟩
  · refine ⟨fun h => (by rw [hstaged] at h; cases h), fun _ hcls => ⟨_, _, s.admits_carriedSet hcls, fun _ => heq, fun h => absurd hsame h⟩⟩
  · refine ⟨fun h => (by rw [hstaged] at h; cases h), fun _ hcls => ⟨_, _, s.admits_carriedSet hcls, fun h => absurd h hdiffers, fun _ => ?_⟩⟩
    exact ⟨s.newPlan z, rfl, rfl, rfl, s.places_placement _, heq ▸ s.openExchanges_stages z _⟩

theorem State.replanAll_replannedAll (zs : List ZoneIx) : s.replannedAll (s.replanAll zs) zs := by
  induction zs generalizing s with
  | nil => rfl
  | cons z rest ih => exact ⟨_, s.replan_replanned z, ih _⟩

end

end Sys2Proof.Machine
end

section
/-! Zones, incident states and owners in the terms of the statements (R105, R106, R113, R122, R127 to R129), and the frame of their
operations. -/

namespace Sys2Proof.Machine

open Sys2Proof

/-! ## Notices in a row (R173) -/

/-- R173: the internal queue after notices generated in a row: it begins with those there is room for. -/
theorem NoticeUnit.foldl_generate_queue (ns : List Notice) (u : NoticeUnit) :
    ∃ rest, (ns.foldl (fun u n => u.generate n) u).queue = u.queue ++ rest := by
  induction ns generalizing u with
  | nil => exact ⟨[], (List.append_nil _).symm⟩
  | cons n rest ih =>
    obtain ⟨xs, hxs⟩ := ih (u.generate n)
    obtain ⟨-, h⟩ | ⟨-, h⟩ := u.generate_cases n
    · exact ⟨n :: xs, by rw [List.foldl_cons, hxs, h]; simp⟩
    · exact ⟨xs, by rw [List.foldl_cons, hxs, h]⟩

theorem NoticeUnit.foldl_generate_of_room {ns : List Notice} {u : NoticeUnit} (h : u.queue.length + ns.length ≤ 16) :
    ns.foldl (fun u n => u.generate n) u = { u with queue := u.queue ++ ns } := by
  induction ns generalizing u with
  | nil => simp
  | cons n rest ih =>
    rw [List.length_cons] at h
    obtain ⟨-, hn⟩ | ⟨hfull, -⟩ := u.generate_cases n
    · rw [List.foldl_cons, hn, ih (by simp; omega)]
      simp
    · omega

/-- State t holds the notices of s with more generated after them. -/
def State.Notified (s t : State) : Prop := ∃ ns : List Notice, t.notices = ns.foldl (fun u n => u.generate n) s.notices

theorem State.Notified.of_eq {s t : State} (h : t.notices = s.notices) : s.Notified t := ⟨[], h⟩

theorem State.Notified.trans {s t u : State} (h : s.Notified t) (h' : t.Notified u) : s.Notified u := by
  obtain ⟨ns, h⟩ := h
  obtain ⟨ms, h'⟩ := h'
  exact ⟨ns ++ ms, by rw [h', h, List.foldl_append]⟩

theorem State.notified_plusNotices (s : State) (ns : List Notice) : s.Notified (s.plusNotices ns) := ⟨ns, rfl⟩

/-- R173: what is generated first stands first. -/
theorem State.Notified.noticesBegin {s t : State} {ns : List Notice} (h : (s.plusNotices ns).Notified t) : s.noticesBegin t ns := by
  intro hroom
  obtain ⟨ms, h⟩ := h
  obtain ⟨rest, hrest⟩ := NoticeUnit.foldl_generate_queue ms (s.plusNotices ns).notices
  refine ⟨rest, ?_⟩
  rw [h, hrest, State.plusNotices]
  dsimp only
  rw [NoticeUnit.foldl_generate_of_room hroom]

/-! ## What replans and the changes of incident states and owners move -/

/-- The frame of replans and of changes of incident states and owners, on the zones with property p: of the links their requests and
exchanges alone may change, of a zone its staged plan, deferral, host flag, incident state and owner. -/
structure State.ZonesMove (s t : State) (p : ZoneIx → Prop) : Prop where
  eq : t = { s with links := t.links, zones := t.zones, arbiter := t.arbiter, notices := t.notices }
  zone (z : ZoneIx) : t.zone z = { s.zone z with
    staged := (t.zone z).staged, deferred := (t.zone z).deferred, hostFlag := (t.zone z).hostFlag, incident := (t.zone z).incident
    owner := (t.zone z).owner }
  other (z : ZoneIx) : ¬ p z → t.zone z = s.zone z
  link (l : LinkIx) : (t.link l).mgr.state = (s.link l).mgr.state ∧ (t.link l).settings = (s.link l).settings ∧
    (t.link l).rng = (s.link l).rng ∧ (t.link l).align = (s.link l).align
  notified : s.Notified t

section
variable {s t u : State} {p : ZoneIx → Prop}

theorem State.ZonesMove.refl (s : State) (p : ZoneIx → Prop) : s.ZonesMove s p :=
  ⟨rfl, fun _ => rfl, fun _ _ => rfl, fun _ => ⟨rfl, rfl, rfl, rfl⟩, .of_eq rfl⟩

theorem State.ZonesMove.trans (h : s.ZonesMove t p) (h' : t.ZonesMove u p) : s.ZonesMove u p where
  eq := by rw [h'.eq, h.eq]
  zone z := by rw [h'.zone z, h.zone z]
  other z hz := by rw [h'.other z hz, h.other z hz]
  link l := by
    obtain ⟨h1, h2, h3, h4⟩ := h.link l
    obtain ⟨h1', h2', h3', h4'⟩ := h'.link l
    exact ⟨h1'.trans h1, h2'.trans h2, h3'.trans h3, h4'.trans h4⟩
  notified := h.notified.trans h'.notified

theorem State.ZonesMove.mono {q : ZoneIx → Prop} (h : s.ZonesMove t p) (hpq : ∀ z, p z → q z) : s.ZonesMove t q :=
  { h with other := fun z hz => h.other z fun hp => hz (hpq z hp) }

theorem State.ZonesMove.foldl {f : State → ZoneIx → State} {zs : List ZoneIx} (hf : ∀ (s : State), ∀ z ∈ zs, s.ZonesMove (f s z) p) (s : State) :
    s.ZonesMove (zs.foldl f s) p := by
  induction zs generalizing s with
  | nil => exact .refl s p
  | cons z rest ih => exact (hf s z (List.mem_cons_self ..)).trans (ih (fun s z hz => hf s z (List.mem_cons_of_mem _ hz)) _)

theorem State.modZone_zonesMove {z : ZoneIx} {f : Zone → Zone} (hz : p z) (hf : f (s.zone z) = { s.zone z with
    staged := (f (s.zone z)).staged, deferred := (f (s.zone z)).deferred, hostFlag := (f (s.zone z)).hostFlag
    incident := (f (s.zone z)).incident, owner := (f (s.zone z)).owner }) : s.ZonesMove (s.modZone z f) p where
  eq := rfl
  zone z' := by
    by_cases h : z = z'
    · subst h
      rw [State.modZone_zone_same]
      exact hf
    · rw [State.modZone_zone_other _ _ _ _ h]
  other z' hz' := State.modZone_zone_other _ _ _ _ fun h => hz' (h ▸ hz)
  link _ := ⟨rfl, rfl, rfl, rfl⟩
  notified := .of_eq rfl

theorem State.plusNotices_zonesMove (ns : List Notice) : s.ZonesMove (s.plusNotices ns) p :=
  ⟨rfl, fun _ => rfl, fun _ _ => rfl, fun _ => ⟨rfl, rfl, rfl, rfl⟩, s.notified_plusNotices ns⟩

theorem Manager.issued_state (m : Manager) (r : Request) : (m.issued r).state = m.state := by
  unfold Manager.issued
  cases m.freeTag <;> rfl

theorem State.issuePlan_zonesMove (l : LinkIx) (x : Exchange) (plan : List Entry) : s.ZonesMove (s.issuePlan l x plan) p := by
  rw [State.issuePlan_eq]
  refine State.ZonesMove.trans (t := s.modLink l (fun y => y.withPlan x (s.planItems plan)))
    ⟨rfl, fun _ => rfl, fun _ _ => rfl, fun l' => ?_, .of_eq rfl⟩ (State.plusNotices_zonesMove _)
  rw [State.modLink_link_eq]
  split
  · next h =>
    subst h
    exact ⟨Manager.issued_state _ _, rfl, rfl, rfl⟩
  · exact ⟨rfl, rfl, rfl, rfl⟩

theorem State.openExchanges_zonesMove (z : ZoneIx) (x : StagedPlan) : s.ZonesMove (s.openExchanges z x) p := by
  refine State.forLinks_induct (s.ZonesMove · p) _ (fun t l h => h.trans ?_) s (.refl s p)
  split
  · split
    · exact State.issuePlan_zonesMove _ _ _
    · exact State.issuePlan_zonesMove _ _ _
    · exact .refl _ _
  · exact .refl _ _

theorem State.replan_zonesMove {z : ZoneIx} (hz : p z) : s.ZonesMove (s.replan z) p := by
  obtain ⟨-, heq⟩ | ⟨-, -, heq⟩ | ⟨-, -, heq⟩ := s.replan_cases z
  · exact heq ▸ State.modZone_zonesMove hz rfl
  · exact heq.symm ▸ .refl s p
  · exact heq ▸ (State.modZone_zonesMove hz rfl).trans (State.openExchanges_zonesMove _ _)

theorem State.replanAll_zonesMove {zs : List ZoneIx} (hzs : ∀ z ∈ zs, p z) : s.ZonesMove (s.replanAll zs) p :=
  .foldl (fun _ z hz => State.replan_zonesMove (hzs z hz)) s

end

/-! ## Incident states (R105, R106) -/

theorem zonesOf_sorted (mask : BitVec 8) : (zonesOf mask).Pairwise (· < ·) := (show allZones.Pairwise (· < ·) by decide).filter _

/-- R106: whether working out zone z's derived state turns it. -/
def State.incidentTurns (s : State) (z : ZoneIx) : Bool := (s.zone z).incident != s.incidentOf z

/-- R109: the INCIDENT of a zone whose derived state turns. -/
def State.incidentNotice (s : State) (cause : IncidentCause) (z : ZoneIx) : Notice :=
  .incident z (s.zone z).incident (!(s.zone z).incident) (s.zone z).hostFlag (s.incidentInputs z) cause

section
variable (s : State) (z : ZoneIx) (cause : IncidentCause)

theorem State.updateIncident_of_same (h : s.incidentTurns z = false) : s.updateIncident z cause = s := by
  unfold State.updateIncident
  exact if_pos (by simpa [State.incidentTurns] using h)

theorem State.updateIncident_of_turns (h : s.incidentTurns z = true) : s.updateIncident z cause =
    (s.modZone z (fun x => { x with incident := !(s.zone z).incident })).plusNotices [s.incidentNotice cause z] := by
  have hne : (s.zone z).incident ≠ s.incidentOf z := by simpa [State.incidentTurns] using h
  have hnew : s.incidentOf z = !(s.zone z).incident := by
    cases h1 : (s.zone z).incident <;> cases h2 : s.incidentOf z <;> simp_all
  unfold State.updateIncident
  dsimp only
  rw [if_neg hne, hnew]
  rfl

theorem State.updateIncident_zone (z' : ZoneIx) : (s.updateIncident z cause).zone z' =
    if z' = z ∧ s.incidentTurns z = true then { s.zone z' with incident := !(s.zone z').incident } else s.zone z' := by
  cases h : s.incidentTurns z with
  | false => simp [s.updateIncident_of_same z cause h]
  | true =>
    rw [s.updateIncident_of_turns z cause h, State.plusNotices_zone, State.modZone_zone_eq]
    by_cases hz : z = z'
    · subst hz; simp
    · rw [if_neg hz, if_neg fun e => hz e.1.symm]

theorem State.updateIncident_inputs : (s.updateIncident z cause).inputs = s.inputs := by
  cases h : s.incidentTurns z with
  | false => rw [s.updateIncident_of_same z cause h]
  | true => rw [s.updateIncident_of_turns z cause h]; rfl

theorem State.updateIncident_zonesMove {p : ZoneIx → Prop} (hz : p z) : s.ZonesMove (s.updateIncident z cause) p := by
  cases h : s.incidentTurns z with
  | false => exact (s.updateIncident_of_same z cause h).symm ▸ .refl s p
  | true =>
    rw [s.updateIncident_of_turns z cause h]
    exact (State.modZone_zonesMove hz rfl).trans (State.plusNotices_zonesMove _)

end

section
variable {s t : State} {z : ZoneIx}

theorem State.incidentTurns_congr (hz : t.zone z = s.zone z) (hi : t.inputs = s.inputs) : t.incidentTurns z = s.incidentTurns z := by
  simp only [State.incidentTurns, State.incidentOf, State.incidentInputs, State.input, hz, hi]

theorem State.incidentNotice_congr (cause : IncidentCause) (hz : t.zone z = s.zone z) (hi : t.inputs = s.inputs) :
    t.incidentNotice cause z = s.incidentNotice cause z := by
  simp only [State.incidentNotice, State.incidentInputs, State.input, hz, hi]

end

/-- R106: the derived states of several zones worked out one after another. -/
theorem foldl_updateIncident (cause : IncidentCause) {zs : List ZoneIx} (hzs : zs.Nodup) (s : State) :
    let t := zs.foldl (fun s z => s.updateIncident z cause) s
    t = { s.plusNotices ((zs.filter s.incidentTurns).map (s.incidentNotice cause)) with zones := t.zones } ∧
    ∀ z, t.zone z = if z ∈ zs.filter s.incidentTurns then { s.zone z with incident := !(s.zone z).incident } else s.zone z := by
  induction zs generalizing s with
  | nil => exact ⟨rfl, fun z => by simp⟩
  | cons x rest ih =>
    obtain ⟨hx, hrest⟩ := List.nodup_cons.mp hzs
    have hinputs := s.updateIncident_inputs x cause
    have hzone {z : ZoneIx} (hz : z ≠ x) : (s.updateIncident x cause).zone z = s.zone z := by
      rw [State.updateIncident_zone, if_neg fun e => hz e.1]
    have hne {z : ZoneIx} (hz : z ∈ rest) : z ≠ x := fun (e : z = x) => hx (e ▸ hz)
    have hfilter : rest.filter (s.updateIncident x cause).incidentTurns = rest.filter s.incidentTurns :=
      List.filter_congr fun z hz => State.incidentTurns_congr (hzone (hne hz)) hinputs
    have hmap : (rest.filter s.incidentTurns).map ((s.updateIncident x cause).incidentNotice cause) =
        (rest.filter s.incidentTurns).map (s.incidentNotice cause) :=
      List.map_congr_left fun z hz => State.incidentNotice_congr cause (hzone (hne (List.mem_filter.mp hz).1)) hinputs
    obtain ⟨heq, hzones⟩ := ih hrest (s.updateIncident x cause)
    rw [hfilter, hmap] at heq
    rw [hfilter] at hzones
    refine ⟨?_, fun z => ?_⟩
    · cases hturns : s.incidentTurns x with
      | false =>
        rw [List.filter_cons_of_neg (by simp [hturns]), List.foldl_cons, heq, s.updateIncident_of_same x cause hturns]
      | true =>
        rw [List.filter_cons_of_pos hturns, List.map_cons, List.foldl_cons, heq, s.updateIncident_of_turns x cause hturns]
        rfl
    · rw [List.foldl_cons, hzones]
      by_cases hz : z = x
      · subst hz
        rw [if_neg fun h => hx (List.mem_filter.mp h).1, State.updateIncident_zone]
        simp
      · rw [hzone hz]
        simp [List.mem_filter, hz]

section
variable (s : State)

theorem ContactInput.holdsIncident_iff (z : ZoneIx) (i : InputIx) : (s.input i).holdsIncident z = true ↔ s.holdsIncident z i := by
  simp [ContactInput.holdsIncident, State.holdsIncident, hasZone, and_assoc]

theorem State.mem_incidentInputs (z : ZoneIx) (i : InputIx) : i ∈ s.incidentInputs z ↔ s.holdsIncident z i := by
  rw [State.incidentInputs, List.mem_filter, ContactInput.holdsIncident_iff, and_iff_right (mem_allInputs i)]

theorem State.incidentOf_iff (z : ZoneIx) : s.incidentOf z = true ↔ ((s.zone z).hostFlag = true ∨ ∃ i, s.holdsIncident z i) := by
  simp only [State.incidentOf, Bool.or_eq_true, Bool.not_eq_true', List.isEmpty_eq_false_iff_exists_mem, State.mem_incidentInputs]

theorem State.incidentTurns_iff (z : ZoneIx) : s.incidentTurns z = true ↔
    ¬ ((s.zone z).incident = true ↔ ((s.zone z).hostFlag = true ∨ ∃ i, s.holdsIncident z i)) := by
  rw [← State.incidentOf_iff, State.incidentTurns, bne_iff_ne, ne_eq, Bool.eq_iff_iff]

/-- R106: derived states worked out in ascending index are the ones the statements spell out. -/
theorem State.foldl_updateIncident_incidentsWorked (cause : IncidentCause) {zs : List ZoneIx} (hzs : zs.Pairwise (· < ·)) {p : ZoneIx → Prop}
    (hp : ∀ z, p z ↔ z ∈ zs) :
    s.incidentsWorked (zs.foldl (fun s z => s.updateIncident z cause) s) p cause (zs.filter s.incidentTurns) := by
  obtain ⟨heq, hzone⟩ := foldl_updateIncident cause (hzs.imp fun h => ne_of_lt h) s
  refine ⟨s.incidentInputs, fun z => ⟨?_, s.mem_incidentInputs z⟩, ⟨hzs.filter _, fun z => ?_⟩, hzone, heq⟩
  · exact (show allInputs.Pairwise (· < ·) by decide).filter _
  · rw [List.mem_filter, State.incidentTurns_iff]
    exact and_congr_left' (hp z).symm

theorem State.takeIncident_eq (z : ZoneIx) (cause : IncidentCause) :
    s.takeIncident z cause = (s.updateIncident z cause).replanAll ([z].filter s.incidentTurns) := by
  unfold State.takeIncident
  cases h : s.incidentTurns z with
  | false =>
    rw [s.updateIncident_of_same z cause h, if_pos (by simpa [State.incidentTurns] using h), List.filter_cons_of_neg (by simp [h])]
    rfl
  | true =>
    rw [if_neg (by simpa [State.incidentTurns] using h), List.filter_cons_of_pos h]
    rfl

theorem State.foldl_takeIncident_incidentsTaken (cause : IncidentCause) (zs : List ZoneIx) :
    s.incidentsTaken (zs.foldl (fun s z => s.takeIncident z cause) s) cause zs := by
  induction zs generalizing s with
  | nil => rfl
  | cons z rest ih =>
    refine ⟨s.updateIncident z cause, s.takeIncident z cause, [z].filter s.incidentTurns,
      s.foldl_updateIncident_incidentsWorked cause (List.pairwise_singleton _ z) fun z' => List.mem_singleton.symm, ?_, ih _⟩
    rw [State.takeIncident_eq]
    exact State.replanAll_replannedAll _ _

theorem State.takeIncident_zonesMove {p : ZoneIx → Prop} {z : ZoneIx} (cause : IncidentCause) (hz : p z) :
    s.ZonesMove (s.takeIncident z cause) p := by
  rw [State.takeIncident_eq]
  exact (s.updateIncident_zonesMove z cause hz).trans (State.replanAll_zonesMove fun z' h => by
    rw [List.mem_singleton.mp (List.mem_filter.mp h).1]; exact hz)

end

end Sys2Proof.Machine
end

section
/-! The break-in arbiter and latch changes in the terms of the statements (R113, R122, R127 to R129). -/

namespace Sys2Proof.Machine

open Sys2Proof

/-! ## The source that ranks first (R128) -/

/-- R128: the best of the sources of a list that a test admits comes before every other of them, in priority or in place. -/
theorem Arbiter.best_filter_first {a : Arbiter} {q : SourceIx → Bool} {xs : List SourceIx} {y w : SourceIx}
    (h : a.best (xs.filter q) = some y) (hw : w ∈ xs) (hq : q w = true) (hne : w ≠ y) : a.priorityOf w < a.priorityOf y ∨
      (a.priorityOf w = a.priorityOf y ∧ xs.findIdx (· == y) < xs.findIdx (· == w)) := by
  induction xs generalizing y with
  | nil => cases hw
  | cons x rest ih =>
    have hlater (hxy : x ≠ y) (hxw : x ≠ w) (h : a.best (rest.filter q) = some y) : a.priorityOf w < a.priorityOf y ∨
        (a.priorityOf w = a.priorityOf y ∧ (x :: rest).findIdx (· == y) < (x :: rest).findIdx (· == w)) := by
      rw [List.findIdx_cons, List.findIdx_cons, beq_false_of_ne hxy, beq_false_of_ne hxw]
      exact (ih h ((List.mem_cons.mp hw).resolve_left (Ne.symm hxw)) hne).imp_right (And.imp_right Nat.succ_lt_succ)
    by_cases hx : q x = true
    · rw [List.filter_cons_of_pos hx, Arbiter.best] at h
      have hw' (hxw : w ≠ x) : w ∈ rest.filter q := List.mem_filter.mpr ⟨(List.mem_cons.mp hw).resolve_left hxw, hq⟩
      split at h
      · next hnone =>
        obtain rfl : x = y := Option.some.inj h
        have := hw' hne
        rw [Arbiter.best_eq_none hnone] at this
        cases this
      · next v hv =>
        split at h
        · next hlt =>
          obtain rfl : v = y := Option.some.inj h
          by_cases hxw : x = w
          · exact .inl (hxw ▸ hlt)
          · exact hlater (fun e => by rw [e] at hlt; exact lt_irrefl _ hlt) hxw hv
        · next hge =>
          obtain rfl : x = y := Option.some.inj h
          have hle : a.priorityOf w ≤ a.priorityOf v := by
            by_cases hwv : w = v
            · rw [hwv]
            · exact ((Arbiter.best_eq_some hv).2 w (hw' hne) hwv).elim Nat.le_of_lt fun h => h.1.le
          refine (Nat.lt_or_eq_of_le (hle.trans (Nat.le_of_not_lt hge))).imp_right fun heq => ⟨heq, ?_⟩
          rw [List.findIdx_cons, List.findIdx_cons, beq_self_eq_true, beq_false_of_ne (Ne.symm hne)]
          exact Nat.succ_pos _
    · rw [List.filter_cons_of_neg hx] at h
      have hy : q y = true := (List.mem_filter.mp (Arbiter.best_eq_some h).1).2
      exact hlater (fun e => hx (e ▸ hy)) (fun e => hx (e ▸ hq)) h

theorem Arbiter.ranksFirst_of_bestCoverer {a : Arbiter} {z : ZoneIx} {y : SourceIx} (h : a.bestCoverer z = some y) : a.ranksFirst z y := by
  obtain ⟨hy, hcovers⟩ := List.mem_filter.mp (Arbiter.best_eq_some h).1
  exact ⟨hy, hcovers, fun w hw hc hne => Arbiter.best_filter_first h hw hc hne⟩

theorem Arbiter.covers_of_bestCoverer_none {a : Arbiter} {z : ZoneIx} {y : SourceIx} (h : a.bestCoverer z = none) (hy : y ∈ a.list) :
    a.covers z y = false := by
  by_contra hc
  have : y ∈ a.list.filter (a.covers z) := List.mem_filter.mpr ⟨hy, by simpa using hc⟩
  rw [Arbiter.best_eq_none h] at this
  cases this

/-! ## Owners (R127 to R129) -/

section
variable (s : State) (z : ZoneIx)

theorem State.ownerChannel_eq : s.ownerChannel z = s.channelOwned z := by
  unfold State.ownerChannel State.channelOwned
  cases (s.zone z).owner <;> rfl

theorem State.ownerPart_eq : s.ownerPart z = (s.zone z).owner.bind (fun y => s.arbiter.parts[y]) := by
  unfold State.ownerPart
  cases (s.zone z).owner <;> rfl

end

theorem foldl_notify (f : ZoneIx → Notice) (zs : List ZoneIx) (t : State) :
    zs.foldl (fun u z => u.notify (f z)) t = t.plusNotices (zs.map f) := by
  induction zs generalizing t with
  | nil => rfl
  | cons z rest ih => exact ih _

/-- The zones of a mask whose owner an event changed. -/
def State.ownersMoved (s t : State) (mask : BitVec 8) : List ZoneIx :=
  (zonesOf mask).filter (fun z => (s.zone z).owner != (t.zone z).owner)

theorem reportOwners_eq (s t : State) (mask : BitVec 8) (cause : OwnerCause) : reportOwners s t (zonesOf mask) cause =
    (t.plusNotices ((s.ownersMoved t mask).map (fun z => .breakinOwner z (s.zone z).owner (t.zone z).owner (t.ownerPart z) cause))).replanAll
      ((s.ownersMoved t mask).filter (fun z => s.ownerChannel z != t.ownerChannel z)) := by
  rw [reportOwners, foldl_notify]
  rfl

section
variable {s t : State} {a : Arbiter} {mask : BitVec 8} {cause : OwnerCause}

/-- State t is s but for the arbiter and the owners of zones. -/
structure State.OwnersMove (s t : State) : Prop where
  eq : t = { s with arbiter := t.arbiter, zones := t.zones }
  zone (z : ZoneIx) : t.zone z = { s.zone z with owner := (t.zone z).owner }

theorem State.OwnersMove.foldl {f : State → ZoneIx → State} (hf : ∀ (u : State) z, u.OwnersMove (f u z)) (zs : List ZoneIx) (s : State) :
    s.OwnersMove (zs.foldl f s) := by
  induction zs generalizing s with
  | nil => exact ⟨rfl, fun _ => rfl⟩
  | cons z rest ih =>
    have h := hf s z
    have h' := ih (f s z)
    exact ⟨by rw [List.foldl_cons, h'.eq, h.eq], fun z' => by rw [List.foldl_cons, h'.zone, h.zone]⟩

theorem State.setOwner_ownersMove (z : ZoneIx) (x : Option SourceIx) : s.OwnersMove (s.setOwner z x) := by
  refine ⟨rfl, fun z' => ?_⟩
  rw [State.setOwner, State.modZone_zone_eq]
  split
  · next h => subst h; rfl
  · rfl

theorem State.OwnersMove.refl (s : State) : s.OwnersMove s := ⟨rfl, fun _ => rfl⟩

theorem State.claimZone_ownersMove (x : SourceIx) (z : ZoneIx) : s.OwnersMove (s.claimZone x z) := by
  unfold State.claimZone
  split
  · exact s.setOwner_ownersMove z _
  · split
    · exact s.setOwner_ownersMove z _
    · exact .refl s

theorem State.passZone_ownersMove (x : SourceIx) (z : ZoneIx) : s.OwnersMove (s.passZone x z) := by
  unfold State.passZone
  split
  · exact s.setOwner_ownersMove z _
  · exact .refl s

theorem State.OwnersMove.withArbiter (h : ({ s with arbiter := a } : State).OwnersMove t) : s.OwnersMove t :=
  ⟨by rw [h.eq], h.zone⟩

/-- R129: once an event has settled its owners, what is reported is what the statements spell out. -/
theorem State.OwnersMove.ownersChanged {settles : ZoneIx → Option SourceIx → Prop} (h : s.OwnersMove t)
    (hin : ∀ z, hasZone mask z = true → settles z (t.zone z).owner) (hout : ∀ z, hasZone mask z = false → (t.zone z).owner = (s.zone z).owner) :
    s.ownersChanged (reportOwners s t (zonesOf mask) cause) t.arbiter mask cause settles := by
  have hmoved (z : ZoneIx) : z ∈ s.ownersMoved t mask ↔ (t.zone z).owner ≠ (s.zone z).owner := by
    rw [State.ownersMoved, List.mem_filter, mem_zonesOf, bne_iff_ne]
    refine ⟨fun hz => Ne.symm hz.2, fun hne => ⟨?_, Ne.symm hne⟩⟩
    by_contra hz
    exact hne (hout z (by simpa using hz))
  rw [reportOwners_eq]
  refine ⟨t.plusNotices ((s.ownersMoved t mask).map
      (fun z => .breakinOwner z (s.zone z).owner (t.zone z).owner (t.ownerPart z) cause)), s.ownersMoved t mask,
    (s.ownersMoved t mask).filter (fun z => s.ownerChannel z != t.ownerChannel z), h.zone, hin, hout,
    ⟨(zonesOf_sorted mask).filter _, hmoved⟩, ⟨((zonesOf_sorted mask).filter _).filter _, fun z => ?_⟩, ?_, State.replanAll_replannedAll _ _⟩
  · rw [List.mem_filter, hmoved, bne_iff_ne, ne_comm (a := s.ownerChannel z), State.ownerChannel_eq, State.ownerChannel_eq]
    rfl
  · simp only [State.ownerPart_eq]
    conv_lhs => rw [h.eq]
    rfl

theorem reportOwners_zonesMove (s : State) : t.ZonesMove (reportOwners s t (zonesOf mask) cause) (fun z => hasZone mask z = true) := by
  rw [reportOwners_eq]
  refine (State.plusNotices_zonesMove _).trans (State.replanAll_zonesMove fun z hz => ?_)
  exact mem_zonesOf.mp (List.mem_filter.mp (List.mem_filter.mp hz).1).1

theorem State.OwnersMove.zonesMove (h : s.OwnersMove t) (hout : ∀ z, hasZone mask z = false → (t.zone z).owner = (s.zone z).owner) :
    s.ZonesMove t (fun z => hasZone mask z = true) where
  eq := by rw [h.eq]
  zone z := by rw [h.zone z]
  other z hz := by rw [h.zone z, hout z (by simpa using hz)]
  link l := by rw [h.eq]; exact ⟨rfl, rfl, rfl, rfl⟩
  notified := .of_eq (by rw [h.eq])

end

/-! ## Activation and deactivation (R122) -/

section
variable (s : State) (x : SourceIx) (mask : BitVec 8) (priority : Nat) (channel : Channel) (cause : OwnerCause)

/-- R122, R127: source x activated and the zones of its mask claimed, before anything is reported. -/
def State.claimed : State :=
  (zonesOf mask).foldl (fun t z => t.claimZone x z) { s with arbiter := s.arbiter.activated x mask priority channel }

/-- R122, R128: source x deactivated and the zones of a mask passed on, before anything is reported. -/
def State.passedOn : State := (zonesOf mask).foldl (fun t z => t.passZone x z) { s with arbiter := s.arbiter.deactivated x }

theorem State.activateSource_eq : s.activateSource x mask priority channel cause =
    reportOwners s (s.claimed x mask priority channel) (zonesOf mask) cause := rfl

theorem State.deactivateSource_of_active {q : ActivePart} (h : s.arbiter.parts[x] = some q) :
    s.deactivateSource x cause = reportOwners s (s.passedOn x q.mask) (zonesOf q.mask) cause := by
  unfold State.deactivateSource
  rw [h]
  rfl

theorem State.claimed_ownersMove : s.OwnersMove (s.claimed x mask priority channel) :=
  State.OwnersMove.withArbiter (.foldl (fun _ z => State.claimZone_ownersMove x z) _ _)

theorem State.passedOn_ownersMove : s.OwnersMove (s.passedOn x mask) :=
  State.OwnersMove.withArbiter (.foldl (fun _ z => State.passZone_ownersMove x z) _ _)

theorem State.claimed_zoneView : (s.claimed x mask priority channel).zoneView = s.zoneView.activated x mask priority channel := by
  rw [State.claimed, foldl_own_zoneView _ (fun a _ => a.claimed x) (fun s z => s.claimZone_zoneView x z)]
  rfl

theorem State.passedOn_zoneView : (s.passedOn x mask).zoneView = { s.zoneView with
    arbiter := s.arbiter.deactivated x
    owner := fun z => if hasZone mask z then (s.arbiter.deactivated x).passed x z (s.zone z).owner else (s.zone z).owner } := by
  rw [State.passedOn, foldl_own_zoneView _ (fun a => a.passed x) (fun s z => s.passZone_zoneView x z)]
  rfl

theorem Arbiter.priorityOf_activated_self (a : Arbiter) : (a.activated x mask priority channel).priorityOf x = priority := by
  rw [Arbiter.priorityOf, Arbiter.activated_parts, if_pos rfl]

/-- R122, R127, R129: an activation is the one the statements spell out. -/
theorem State.activateSource_sourceActivated :
    s.sourceActivated (s.activateSource x mask priority channel cause) x mask priority channel cause := by
  have hview := s.claimed_zoneView x mask priority channel
  have harbiter : (s.claimed x mask priority channel).arbiter = s.arbiter.activated x mask priority channel :=
    congrArg ZoneView.arbiter hview
  have howner (z : ZoneIx) : ((s.claimed x mask priority channel).zone z).owner = if hasZone mask z then
      (s.arbiter.activated x mask priority channel).claimed x (s.zone z).owner else (s.zone z).owner := congrFun (congrArg ZoneView.owner hview) z
  have h := State.OwnersMove.ownersChanged (mask := mask) (cause := cause) (s.claimed_ownersMove x mask priority channel)
    (settles := fun z new => ((s.zone z).owner = none → new = some x) ∧ ∀ y, (s.zone z).owner = some y →
      new = if (s.arbiter.activated x mask priority channel).priorityOf y < priority then some x else some y)
    (fun z hz => ?_) (fun z hz => ?_)
  · rw [harbiter] at h
    exact h
  · rw [howner, if_pos hz]
    refine ⟨fun h => by rw [h]; rfl, fun y hy => ?_⟩
    rw [hy, Arbiter.claimed, Arbiter.priorityOf_activated_self]
  · rw [howner, if_neg (by simp [hz])]

/-- R122, R128, R129: a deactivation is the one the statements spell out. -/
theorem State.deactivateSource_sourceDeactivated : s.sourceDeactivated (s.deactivateSource x cause) x cause := by
  refine ⟨fun h => by unfold State.deactivateSource; rw [h], fun q hq => ?_⟩
  have hview := s.passedOn_zoneView x q.mask
  have harbiter : (s.passedOn x q.mask).arbiter = s.arbiter.deactivated x := congrArg ZoneView.arbiter hview
  have howner (z : ZoneIx) : ((s.passedOn x q.mask).zone z).owner = if hasZone q.mask z then
      (s.arbiter.deactivated x).passed x z (s.zone z).owner else (s.zone z).owner := congrFun (congrArg ZoneView.owner hview) z
  have h := State.OwnersMove.ownersChanged (mask := q.mask) (cause := cause) (s.passedOn_ownersMove x q.mask)
    (settles := fun z new => ((s.zone z).owner ≠ some x → new = (s.zone z).owner) ∧ ((s.zone z).owner = some x →
      (∀ y, new = some y → (s.arbiter.deactivated x).ranksFirst z y) ∧
      (new = none → ∀ y, y ∈ (s.arbiter.deactivated x).list → (s.arbiter.deactivated x).covers z y = false)))
    (fun z hz => ?_) (fun z hz => ?_)
  · rw [harbiter, ← State.deactivateSource_of_active s x cause hq] at h
    exact h
  · rw [howner, if_pos hz, Arbiter.passed]
    refine ⟨fun h => if_neg h, fun h => ?_⟩
    rw [if_pos h]
    exact ⟨fun y => Arbiter.ranksFirst_of_bestCoverer, fun hnone y => Arbiter.covers_of_bestCoverer_none hnone⟩
  · rw [howner, if_neg (by simp [hz])]

theorem State.activateSource_zonesMove :
    s.ZonesMove (s.activateSource x mask priority channel cause) (fun z => hasZone mask z = true) := by
  have howner (z : ZoneIx) (hz : hasZone mask z = false) : ((s.claimed x mask priority channel).zone z).owner = (s.zone z).owner :=
    (congrFun (congrArg ZoneView.owner (s.claimed_zoneView x mask priority channel)) z).trans (if_neg (by simp [hz]))
  exact ((s.claimed_ownersMove x mask priority channel).zonesMove howner).trans (reportOwners_zonesMove s)

theorem State.deactivateSource_zonesMove {p : ZoneIx → Prop}
    (hp : ∀ q, s.arbiter.parts[x] = some q → ∀ z, hasZone q.mask z = true → p z) : s.ZonesMove (s.deactivateSource x cause) p := by
  cases hq : s.arbiter.parts[x] with
  | none =>
    unfold State.deactivateSource
    rw [hq]
    exact .refl s p
  | some q =>
    have howner (z : ZoneIx) (hz : hasZone q.mask z = false) : ((s.passedOn x q.mask).zone z).owner = (s.zone z).owner :=
      (congrFun (congrArg ZoneView.owner (s.passedOn_zoneView x q.mask)) z).trans (if_neg (by simp [hz]))
    rw [s.deactivateSource_of_active x cause hq]
    exact (((s.passedOn_ownersMove x q.mask).zonesMove howner).trans (reportOwners_zonesMove s)).mono (hp q hq)

end

/-! ## Latch changes (R113) -/

section
variable (s : State) (i : InputIx) (isSet : Bool)

/-- R113 step 2: the derived states of the zones of input i's mask, worked out after its latch has changed. -/
def State.latchWorked : State := (zonesOf (s.input i).mask).foldl (fun s z => s.updateIncident z (.line i isSet)) s

/-- R113 step 3: the arbiter's share in a change of input i's latch. -/
def State.latchArbitrated : State :=
  if isSet then
    (s.latchWorked i isSet).activateSource (contactSource i) (s.input i).mask (s.input i).priority (s.input i).channel (.lineSet i)
  else (s.latchWorked i isSet).deactivateSource (contactSource i) (.lineCleared i)

theorem State.latchEffects_eq : s.latchEffects i isSet =
    (s.latchArbitrated i isSet).replanAll ((zonesOf (s.input i).mask).filter s.incidentTurns) := by
  have hfilter : (zonesOf (s.input i).mask).filter (fun z => (s.zone z).incident != ((s.latchWorked i isSet).zone z).incident) =
      (zonesOf (s.input i).mask).filter s.incidentTurns := by
    refine List.filter_congr fun z hz => ?_
    rw [State.latchWorked, (foldl_updateIncident _ ((zonesOf_sorted _).imp fun h => ne_of_lt h) s).2 z]
    cases h : s.incidentTurns z <;> cases hinc : (s.zone z).incident <;> simp [h, hz, hinc]
  rw [← hfilter]
  rfl

/-- R113 steps 2 to 4: a latch change has the effects the statements spell out. -/
theorem State.latchEffects_latchTaken : s.latchTaken (s.latchEffects i isSet) i isSet := by
  refine ⟨s.latchWorked i isSet, s.latchArbitrated i isSet, (zonesOf (s.input i).mask).filter s.incidentTurns, ?_, fun h => ?_, fun h => ?_, ?_⟩
  · exact s.foldl_updateIncident_incidentsWorked _ (zonesOf_sorted _) fun z => mem_zonesOf.symm
  · subst h
    exact State.activateSource_sourceActivated _ _ _ _ _ _
  · subst h
    exact State.deactivateSource_sourceDeactivated _ _ _
  · rw [State.latchEffects_eq]
    exact State.replanAll_replannedAll _ _

theorem State.latchWorked_zonesMove : s.ZonesMove (s.latchWorked i isSet) (fun z => hasZone (s.input i).mask z = true) :=
  .foldl (fun s z hz => s.updateIncident_zonesMove z _ (mem_zonesOf.mp hz)) s

theorem State.latchEffects_zonesMove {p : ZoneIx → Prop} (hp : ∀ z, hasZone (s.input i).mask z = true → p z)
    (hcleared : isSet = false → ∀ z, p z) : s.ZonesMove (s.latchEffects i isSet) p := by
  rw [State.latchEffects_eq]
  refine (((s.latchWorked_zonesMove i isSet).mono hp).trans ?_).trans
    (State.replanAll_zonesMove fun z hz => hp z (mem_zonesOf.mp (List.mem_filter.mp hz).1))
  unfold State.latchArbitrated
  split
  · exact (State.activateSource_zonesMove _ _ _ _ _ _).mono hp
  · next h => exact State.deactivateSource_zonesMove _ _ _ fun _ _ z _ => hcleared (by simpa using h) z

end

end Sys2Proof.Machine
end

section
/-! The orders to zones, contact inputs and break-in sources (R107, R116, R117, R124, R125). -/

namespace Sys2Proof.Machine

open Sys2Proof

/-! ## The frame, field by field -/

section
variable {s t : State} {p : ZoneIx → Prop} (h : s.ZonesMove t p)
include h

theorem State.ZonesMove.time : t.time = s.time := by rw [h.eq]
theorem State.ZonesMove.groups : t.groups = s.groups := by rw [h.eq]
theorem State.ZonesMove.services : t.services = s.services := by rw [h.eq]
theorem State.ZonesMove.inputs : t.inputs = s.inputs := by rw [h.eq]
theorem State.ZonesMove.combiner : t.combiner = s.combiner := by rw [h.eq]
theorem State.ZonesMove.poster : t.poster = s.poster := by rw [h.eq]
theorem State.ZonesMove.input (i : InputIx) : t.input i = s.input i := by rw [State.input, h.inputs]; rfl
theorem State.ZonesMove.service (v : ServiceIx) : t.service v = s.service v := by rw [State.service, h.services]; rfl
theorem State.ZonesMove.planId (z : ZoneIx) : (t.zone z).planId = (s.zone z).planId := by rw [h.zone z]
theorem State.ZonesMove.entries (z : ZoneIx) : (t.zone z).entries = (s.zone z).entries := by rw [h.zone z]
theorem State.ZonesMove.shed (z : ZoneIx) : (t.zone z).shed = (s.zone z).shed := by rw [h.zone z]
theorem State.ZonesMove.selection (z : ZoneIx) : (t.zone z).selection = (s.zone z).selection := by rw [h.zone z]

theorem State.ZonesMove.withOrders (y : OrderUnit) : (s.withOrders y).ZonesMove (t.withOrders y) p :=
  ⟨congrArg (State.withOrders · y) h.eq, h.zone, h.other, h.link, h.notified⟩

end

/-! ## Derived incident states, read off the view -/

theorem ZoneView.incidentOf_iff (v : ZoneView) (z : ZoneIx) : v.incidentOf z = true ↔ v.hostFlag z = true ∨
    ∃ i, v.latch i = true ∧ v.incidentFlag i = true ∧ (v.mask i).getLsbD z.val = true := by
  simp [ZoneView.incidentOf, ZoneView.holdsIncident, hasZone, mem_allInputs, and_assoc]

/-- R105: the terms of zone z's derived state that input i is not part of. -/
def State.heldByOthers (s : State) (z : ZoneIx) (i : InputIx) : Prop :=
  (s.zone z).hostFlag = true ∨
    ∃ j, j ≠ i ∧ (s.input j).latch = true ∧ (s.input j).incidentFlag = true ∧ (s.input j).mask.getLsbD z.val = true

section
variable {s : State} {z : ZoneIx} {i : InputIx} {x : ContactInput}

/-- R105: the derived state once input i's record is x. -/
theorem State.incidentOf_modInput : (s.modInput i (fun _ => x)).zoneView.incidentOf z = true ↔
    (x.latch = true ∧ x.incidentFlag = true ∧ x.mask.getLsbD z.val = true) ∨ s.heldByOthers z i := by
  have hinput (j : InputIx) : (s.modInput i (fun _ => x)).input j = if i = j then x else s.input j := State.modInput_input_eq ..
  rw [ZoneView.incidentOf_iff]
  refine (or_congr_right ?_).trans or_left_comm
  refine ⟨fun ⟨j, hj⟩ => ?_, fun hj => ?_⟩
  · change ((s.modInput i (fun _ => x)).input j).latch = true ∧ ((s.modInput i (fun _ => x)).input j).incidentFlag = true ∧
      ((s.modInput i (fun _ => x)).input j).mask.getLsbD z.val = true at hj
    rw [hinput] at hj
    split at hj
    · exact .inl hj
    · next hij => exact .inr ⟨j, Ne.symm hij, hj⟩
  · obtain hj | ⟨j, hij, hj⟩ := hj
    · refine ⟨i, ?_⟩
      change ((s.modInput i (fun _ => x)).input i).latch = true ∧ _
      simpa only [State.zoneView, hinput, if_true] using hj
    · refine ⟨j, ?_⟩
      simpa only [State.zoneView, hinput, if_neg (Ne.symm hij)] using hj

end

/-! ## ZONE_INCIDENT (R107) -/

section
variable {s : State} {o : Order}

theorem hasZone_extract (w : Word) (lo : Nat) (z : ZoneIx) : hasZone (w.extractLsb' lo 8) z = w.getLsbD (lo + z.val) := by
  simp [hasZone, z.isLt]

theorem State.setHostFlags_zone (mask : BitVec 8) (on : Bool) (z : ZoneIx) : (s.setHostFlags mask on).zone z =
    if z ∈ zonesOf mask then { s.zone z with hostFlag := on } else s.zone z := by
  unfold State.setHostFlags
  generalize zonesOf mask = zs
  induction zs generalizing s with
  | nil => rfl
  | cons x rest ih =>
    rw [List.foldl_cons, ih, State.modZone_zone_eq]
    by_cases hz : x = z
    · subst hz; simp
    · simp [hz, Ne.symm hz]

theorem State.setHostFlags_zonesMove (mask : BitVec 8) (on : Bool) : s.ZonesMove (s.setHostFlags mask on) (fun z => hasZone mask z = true) :=
  .foldl (fun _ _ hz => State.modZone_zonesMove (mem_zonesOf.mp hz) rfl) s

theorem State.setHostFlags_eq (mask : BitVec 8) (on : Bool) :
    s.setHostFlags mask on = { s with zones := (s.setHostFlags mask on).zones } :=
  foldl_induct (fun t : State => t = { s with zones := t.zones }) _ (fun t z h => by rw [h]; rfl) _ s rfl

/-- ZONE_INCIDENT's effect: the host flags stored, then each zone's derived state taken. -/
def State.zoneIncident (s : State) (mask : BitVec 8) (on : Bool) : State :=
  (zonesOf mask).foldl (fun s z => s.takeIncident z .order) (s.setHostFlags mask on)

theorem orderZoneIncident_eq : orderZoneIncident o s =
    (onOff o.p2).elim (s, .refused .badValue) (fun on => (s.zoneIncident (o.p1.extractLsb' 0 8) on, .done)) := by
  unfold orderZoneIncident
  cases onOff o.p2 <;> rfl

theorem State.zoneIncident_zonesMove (mask : BitVec 8) (on : Bool) : s.ZonesMove (s.zoneIncident mask on) (fun z => hasZone mask z = true) :=
  (s.setHostFlags_zonesMove mask on).trans (.foldl (fun t _ hz => t.takeIncident_zonesMove _ (mem_zonesOf.mp hz)) _)

theorem State.zoneIncident_zoneView (mask : BitVec 8) (on : Bool) :
    (s.zoneIncident mask on).zoneView = (s.zoneView.flagged mask on).worked mask := by
  rw [State.zoneIncident, foldl_work_zoneView _ (fun s z => s.takeIncident_zoneView z .order), State.setHostFlags_zoneView]

/-- Settles O16. -/
theorem zoneIncidentSetsHostFlags : Obligations.ZoneIncidentSetsHostFlags := by
  intro s index tag w1 w2 h
  let o : Order := { plainOrder 15 index tag with p1 := w1, p2 := w2 }
  have heq (u : State) := orderZoneIncident_eq (s := u) (o := o)
  refine ⟨fun hbad => ?_, fun hgood => ?_⟩
  · refine exec_order_refused h rfl ((heq _).trans ?_)
    rw [show onOff _ = none from onOff_of_two_le hbad]
    rfl
  · let mask : BitVec 8 := w1.extractLsb' 0 8
    let on := decide (w2 = 1)
    have hanswer : takeByCode o (s.advanced o) = ((s.advanced o).zoneIncident mask on, .done) := by
      refine (heq _).trans ?_
      rw [show onOff _ = some on from onOff_of_le_one hgood]
      rfl
    have hbit (z : ZoneIx) : hasZone mask z = w1.getLsbD z.val := by
      rw [show hasZone mask z = w1.getLsbD (0 + z.val) from hasZone_extract w1 0 z, Nat.zero_add]
    refine exec_order_exists_of h rfl hanswer fun t ht => ?_
    have hmove : s.ZonesMove t (fun z => hasZone mask z = true) := by
      rw [ht]
      exact (State.zoneIncident_zonesMove (s := s.advanced o) mask on).withOrders s.orders
    have hview : t.zoneView = (s.zoneView.flagged mask on).worked mask := by
      rw [ht]
      exact State.zoneIncident_zoneView (s := s.advanced o) mask on
    refine ⟨⟨s.setHostFlags mask on, zonesOf mask, ⟨zonesOf_sorted mask, fun z => ?_⟩, s.setHostFlags_eq mask on,
      s.setHostFlags_zone mask on, ?_⟩, fun z hz => ⟨?_, ?_, hmove.planId z, hmove.entries z, hmove.shed z, ?_, hmove.selection z⟩,
      fun z hz => hmove.other z (by rw [hbit, hz]; simp), hmove.time, hmove.groups, hmove.services, hmove.inputs,
      congrArg ZoneView.arbiter hview, hmove.combiner, hmove.poster, hmove.link⟩
    · rw [mem_zonesOf, hbit]
    · rw [ht]
      have htaken := ((s.advanced o).setHostFlags mask on).foldl_takeIncident_incidentsTaken .order
        (zonesOf mask)
      have hstored : ((s.advanced o).setHostFlags mask on).withOrders s.orders =
          s.setHostFlags mask on := by
        rw [State.setHostFlags_eq, s.setHostFlags_eq]
        refine congrArg (fun zs => ({ s with zones := zs } : State)) (Vector.ext fun n hn => ?_)
        exact (State.setHostFlags_zone (s := s.advanced o) mask on ⟨n, hn⟩).trans (State.setHostFlags_zone (s := s) mask on ⟨n, hn⟩).symm
      rw [← hstored]
      exact htaken.withOrders s.orders
    · have := congrFun (congrArg ZoneView.hostFlag hview) z
      exact this.trans (if_pos (by rw [hbit, hz]))
    · have hinc : (t.zone z).incident = (s.zoneView.flagged mask on).incidentOf z :=
        (congrFun (congrArg ZoneView.incident hview) z).trans (if_pos (by rw [hbit, hz]))
      rw [hinc, ZoneView.incidentOf_iff]
      refine or_congr_left ?_
      rw [show (s.zoneView.flagged mask on).hostFlag z = on from if_pos (by rw [hbit, hz])]
      exact decide_eq_true_iff
    · exact congrFun (congrArg ZoneView.owner hview) z

end

end Sys2Proof.Machine
end

section
/-! The orders to contact inputs and break-in sources (R116, R117, R124, R125). -/

namespace Sys2Proof.Machine

open Sys2Proof

/-! ## What a latch change leaves (R113) -/

section
variable {s u : State} {i : InputIx} {x : ContactInput} (isSet : Bool)

/-- R113: the derived states after a latch change, input i's record being x by then. -/
theorem State.latchEffects_incident (hu : u.zoneView = (s.modInput i (fun _ => x)).zoneView) (z : ZoneIx) :
    (x.mask.getLsbD z.val = true → (((u.latchEffects i isSet).zone z).incident = true ↔
      (x.latch = true ∧ x.incidentFlag = true ∧ x.mask.getLsbD z.val = true) ∨ s.heldByOthers z i)) ∧
    (x.mask.getLsbD z.val = false → ((u.latchEffects i isSet).zone z).incident = (s.zone z).incident) := by
  have hmask : (u.input i).mask = x.mask := (congrFun (congrArg ZoneView.mask hu) i).trans (by simp [State.zoneView])
  have hdeactivated (v : ZoneView) (y : SourceIx) : (v.deactivated y).incident = v.incident := by
    unfold ZoneView.deactivated
    split <;> rfl
  have hincident : ((u.latchEffects i isSet).zone z).incident =
      if hasZone x.mask z then u.zoneView.incidentOf z else (s.zone z).incident := by
    have hold : u.zoneView.incident z = (s.zone z).incident := congrFun (congrArg ZoneView.incident hu) z
    rw [← hmask, ← hold]
    refine (congrFun (congrArg ZoneView.incident (u.latchEffects_zoneView i isSet)) z).trans ?_
    cases isSet
    · rw [if_neg Bool.false_ne_true, hdeactivated]; rfl
    · rfl
  refine ⟨fun hz => ?_, fun hz => ?_⟩
  · rw [hincident, if_pos (show hasZone x.mask z = true from hz), hu, State.incidentOf_modInput]
  · rw [hincident, if_neg (ne_true_of_eq_false (show hasZone x.mask z = false from hz))]

theorem State.latchEffects_cleared_part (u : State) (i : InputIx) : (u.latchEffects i false).arbiter.parts[contactSource i] = none := by
  have h := congrArg (fun v => v.arbiter.parts[contactSource i]) (u.latchEffects_zoneView i false)
  rw [if_neg Bool.false_ne_true] at h
  exact h.trans ((ZoneView.deactivated_parts _).trans (if_pos rfl))

theorem State.latchEffects_set_arbiter (u : State) (i : InputIx) : (u.latchEffects i true).arbiter =
    u.arbiter.activated (contactSource i) (u.input i).mask (u.input i).priority (u.input i).channel := by
  exact congrArg ZoneView.arbiter (u.latchEffects_zoneView i true)

end

/-! ## LINE_ACK (R117) -/

section
variable {s : State} {o : Order} {i : InputIx}

theorem orderLineAck_eq (hi : o.index.toNat = i.val) : orderLineAck o s =
    if (s.input i).latch = false then (s, .note .notLatched)
    else if (s.input i).mode = .level ∧ (s.input i).level = true then
      if (s.input i).acked then (s, .note .alreadyAcked) else (s.modInput i (fun c => { c with acked := true }), .done)
    else (s.unlatch i, .done) := by
  unfold orderLineAck
  rw [indexBelow_of_eq hi]

/-- What SET_LINE to OFF and LINE_ACK leave of a latched input. -/
def ContactInput.released (c : ContactInput) : ContactInput := { c with latch := false, acked := false }

theorem State.unlatch_zonesMove (s : State) (i : InputIx) :
    (s.modInput i ContactInput.released).ZonesMove (s.unlatch i) (fun _ => True) :=
  State.latchEffects_zonesMove _ i false (fun _ _ => trivial) fun _ _ => trivial

theorem State.unlatch_latchTaken (s : State) (i : InputIx) : (s.modInput i ContactInput.released).latchTaken (s.unlatch i) i false :=
  State.latchEffects_latchTaken _ i false

theorem State.unlatch_incident_inside {z : ZoneIx} (hz : (s.input i).mask.getLsbD z.val = true) :
    ((s.unlatch i).zone z).incident = true ↔ s.heldByOthers z i :=
  ((State.latchEffects_incident (x := (s.input i).released) false (u := s.modInput i ContactInput.released) rfl z).1 hz).trans
    (or_iff_right fun h => Bool.false_ne_true h.1)

theorem State.unlatch_incident_outside {z : ZoneIx} (hz : (s.input i).mask.getLsbD z.val = false) :
    ((s.unlatch i).zone z).incident = (s.zone z).incident :=
  (State.latchEffects_incident (x := (s.input i).released) false (u := s.modInput i ContactInput.released) rfl z).2 hz

theorem State.unlatch_input (s : State) (i j : InputIx) : (s.unlatch i).input j = if i = j then (s.input j).released else s.input j := by
  rw [(s.unlatch_zonesMove i).input, State.modInput_input_eq]
  split
  · next h => rw [h]
  · rfl

/-- Settles O18. -/
theorem lineAckFollowsItsTable : Obligations.LineAckFollowsItsTable := by
  intro s index tag i h hi
  let o := plainOrder 17 index tag
  have heq (u : State) := orderLineAck_eq (s := u) (o := o) hi
  refine ⟨fun hlatch => ?_, fun hlatch hmode hlevel hacked => ?_, fun hlatch hmode hlevel hacked => ?_, fun hlatch hmode => ?_⟩
  · exact exec_order_refused h rfl ((heq _).trans (if_pos hlatch))
  · exact exec_order_refused h rfl ((heq _).trans ((if_neg (ne_false_of_eq_true hlatch)).trans
      ((if_pos ⟨hmode, hlevel⟩).trans (if_pos hacked))))
  · exact exec_order_of_take h rfl ((heq _).trans ((if_neg (ne_false_of_eq_true hlatch)).trans
      ((if_pos ⟨hmode, hlevel⟩).trans (if_neg (by rw [show ((s.advanced o).input i).acked = false from hacked]; simp)))))
  · have hnot : ¬ ((s.input i).mode = .level ∧ (s.input i).level = true) := by
      obtain hedge | ⟨-, hlow⟩ := hmode
      · rw [hedge]; simp
      · rw [hlow]; simp
    have hanswer : takeByCode o (s.advanced o) = ((s.advanced o).unlatch i, .done) :=
      (heq _).trans ((if_neg (ne_false_of_eq_true hlatch)).trans (if_neg hnot))
    refine exec_order_exists_of h rfl hanswer fun t ht => ?_
    have hmove : (s.modInput i ContactInput.released).ZonesMove t (fun _ => True) := by
      rw [ht]
      exact ((s.advanced o).unlatch_zonesMove i).withOrders s.orders
    refine ⟨?_, ?_, fun j hj => ?_, ?_, fun z hz => ?_, hmove.time, hmove.services, hmove.groups, hmove.combiner, hmove.poster⟩
    · rw [ht]
      exact ((s.advanced o).unlatch_latchTaken i).withOrders s.orders
    · rw [hmove.input, State.modInput_input_same]; rfl
    · rw [hmove.input, State.modInput_input_other _ _ _ _ (Ne.symm hj)]
    · rw [ht]
      exact State.latchEffects_cleared_part _ i
    · rw [ht]
      exact (s.advanced o).unlatch_incident_inside hz

/-! ## SET_LINE (R116) -/

theorem channelOf_of_mem {n : Nat} {c : Channel} (h : (n, c) ∈ ([(0, .a), (1, .b)] : List (Nat × Channel))) : channelOf n = some c := by
  simp only [List.mem_cons, Prod.mk.injEq, List.not_mem_nil, or_false] at h
  obtain ⟨rfl, rfl⟩ | ⟨rfl, rfl⟩ := h <;> rfl

theorem channelOf_of_two_le {n : Nat} (h : 2 ≤ n) : channelOf n = none := by
  unfold channelOf
  split
  case h_3 => rfl
  all_goals omega

theorem channelOf_of_lt {n : Nat} (h : n < 2) : ∃ c, channelOf n = some c := by
  obtain rfl | rfl : n = 0 ∨ n = 1 := by omega
  · exact ⟨_, rfl⟩
  · exact ⟨_, rfl⟩

theorem lineModeOf_of_mem {n : Nat} {m : LineMode} (h : (n, m) ∈ ([(0, .off), (1, .edge), (2, .level)] : List (Nat × LineMode))) :
    lineModeOf n = some m ∧ (m = .off ↔ n = 0) ∧ (m = .level ↔ n = 2) := by
  simp only [List.mem_cons, Prod.mk.injEq, List.not_mem_nil, or_false] at h
  obtain ⟨rfl, rfl⟩ | ⟨rfl, rfl⟩ | ⟨rfl, rfl⟩ := h <;> simp [lineModeOf]

theorem lineModeOf_of_three_le {n : Nat} (h : 3 ≤ n) : lineModeOf n = none := by
  unfold lineModeOf
  split
  case h_4 => rfl
  all_goals omega

theorem lineModeOf_of_lt {n : Nat} (h : n < 3) : ∃ m, (n, m) ∈ ([(0, .off), (1, .edge), (2, .level)] : List (Nat × LineMode)) := by
  obtain rfl | rfl | rfl : n = 0 ∨ n = 1 ∨ n = 2 := by omega
  · exact ⟨.off, by simp⟩
  · exact ⟨.edge, by simp⟩
  · exact ⟨.level, by simp⟩

theorem orderSetLine_of_badValue (hi : o.index.toNat = i.val) (h : lineModeOf (fieldAt o.p1 0 8) = none ∨ channelOf (fieldAt o.p1 24 8) = none) :
    orderSetLine o s = (s, .refused .badValue) := by
  unfold orderSetLine
  rw [indexBelow_of_eq hi]
  dsimp only
  obtain h | h := h
  · rw [h]
  · rw [h]
    cases lineModeOf (fieldAt o.p1 0 8) <;> rfl

/-- SET_LINE's effect on an input that its latch does not forbid: an OFF first clears the latch; a LEVEL on an active level sets it. -/
def State.lineSet (s : State) (i : InputIx) (mode : LineMode) (channel : Channel) (o : Order) : State :=
  let t := (if (s.input i).latch then s.unlatch i else s).modInput i (fun c => c.withSettings mode channel o)
  if mode = .level ∧ (s.input i).level then t.latch i .setLine else t

theorem orderSetLine_eq {mode : LineMode} {channel : Channel} (hi : o.index.toNat = i.val) (hm : lineModeOf (fieldAt o.p1 0 8) = some mode)
    (hc : channelOf (fieldAt o.p1 24 8) = some channel) : orderSetLine o s =
    if (s.input i).latch = true ∧ mode ≠ .off then (s, .refused .active)
    else (s.lineSet i mode channel o, if fieldAt o.p1 16 8 ≤ 7 then .done else .clamped) := by
  have hresult : doneOr (clampNat 0 7 (fieldAt o.p1 16 8) != fieldAt o.p1 16 8) = if fieldAt o.p1 16 8 ≤ 7 then .done else .clamped :=
    doneOr_of_iff ((clampNat_ne_iff (by decide)).trans (not_congr ⟨fun e => e.2, fun e => ⟨Nat.zero_le _, e⟩⟩))
  unfold orderSetLine
  rw [indexBelow_of_eq hi]
  dsimp only
  rw [hm, hc, hresult]
  rfl

theorem ContactInput.withSettings_eq (c : ContactInput) (mode : LineMode) (channel : Channel) (o : Order) : c.withSettings mode channel o =
    { c with mode := mode, mask := o.p1.extractLsb' 8 8, priority := min 7 (o.p1.extractLsb' 16 8).toNat, channel := channel
             incidentFlag := o.p2.getLsbD 0 } := by
  unfold ContactInput.withSettings
  rw [clampNat_eq _ _ _ (by decide), Nat.zero_max]
  rfl

/-- Settles O17. -/
theorem setLineStoresSettings : Obligations.SetLineStoresSettings := by
  intro s index tag w1 w2 i h hi o mode mask channel priority others
  have hbad (u : State) := orderSetLine_of_badValue (s := u) (o := o) hi
  have heq {m : LineMode} {c : Channel} (hm : lineModeOf mode = some m) (hc : channelOf channel = some c) (u : State) :=
    orderSetLine_eq (s := u) (o := o) hi hm hc
  refine ⟨fun hvalue => ?_, fun hmode hchannel hlatch hne => ?_, fun m c hmode hchannel hlatch hlevel => ?_, fun c hchannel hlatch hmode => ?_,
    fun c hchannel hlatch hmode hlevel => ?_⟩
  · exact exec_order_refused h rfl (hbad _ (hvalue.imp lineModeOf_of_three_le channelOf_of_two_le))
  · obtain ⟨m, hm⟩ := lineModeOf_of_lt hmode
    obtain ⟨c, hc⟩ := channelOf_of_lt hchannel
    obtain ⟨hm, hoff, -⟩ := lineModeOf_of_mem hm
    exact exec_order_refused h rfl ((heq hm hc _).trans (if_pos ⟨hlatch, fun e => hne (hoff.mp e)⟩))
  · obtain ⟨hm, -, hlevel'⟩ := lineModeOf_of_mem hmode
    refine exec_order_of_take h rfl ((heq hm (channelOf_of_mem hchannel) _).trans ((if_neg fun e => ?_).trans ?_))
    · exact ne_true_of_eq_false hlatch e.1
    · refine congrArg (Prod.mk · _) ?_
      have hquiet : ¬ (m = .level ∧ (s.input i).level = true) := by
        rintro ⟨e, e'⟩
        exact hlevel.elim (fun hne => hne (hlevel'.mp e)) fun hlow => ne_true_of_eq_false hlow e'
      unfold State.lineSet
      rw [if_neg (ne_true_of_eq_false hlatch : ¬ ((s.advanced o).input i).latch = true)]
      refine (if_neg hquiet).trans ?_
      simp only [ContactInput.withSettings_eq]
      rfl
  · obtain ⟨hm, -, -⟩ := lineModeOf_of_mem (n := mode) (m := .off) (by rw [hmode]; simp)
    have hanswer : takeByCode o (s.advanced o) = (((s.advanced o).unlatch i).modInput i (fun x => x.withSettings .off c o),
        if priority ≤ 7 then .done else .clamped) := by
      refine (heq hm (channelOf_of_mem hchannel) _).trans ((if_neg fun e => e.2 rfl).trans (congrArg (Prod.mk · _) ?_))
      unfold State.lineSet
      rw [if_pos (show ((s.advanced o).input i).latch = true from hlatch)]
      exact if_neg fun e => nomatch e.1
    refine exec_order_exists_of h rfl hanswer fun t ht => ?_
    have hu := ((s.advanced o).unlatch_zonesMove i).withOrders s.orders
    have htu : t = (((s.advanced o).unlatch i).withOrders s.orders).modInput i (fun x => x.withSettings .off c o) := ht
    have hsettings : t = (((s.advanced o).unlatch i).withOrders s.orders).modInput i (fun x => { x with
        mode := .off, mask := mask, priority := min 7 priority, channel := c, incidentFlag := w2.getLsbD 0 }) := by
      rw [htu]
      simp only [ContactInput.withSettings_eq]
      rfl
    have hunlatched (j : InputIx) : (((s.advanced o).unlatch i).withOrders s.orders).input j =
        if i = j then (s.input j).released else s.input j := (s.advanced o).unlatch_input i j
    refine ⟨?_, ?_, ⟨_, ((s.advanced o).unlatch_latchTaken i).withOrders s.orders, hsettings⟩, fun z hz => ?_, fun z hz => ?_, fun j hj => ?_,
      ?_, ?_, ?_⟩
    · rw [hsettings, State.modInput_input_same, hunlatched, if_pos rfl]
      rfl
    · rw [htu]
      exact State.latchEffects_cleared_part _ i
    · rw [htu]
      exact (s.advanced o).unlatch_incident_inside hz
    · rw [htu]
      exact (s.advanced o).unlatch_incident_outside hz
    · rw [hsettings, State.modInput_input_other _ _ _ _ (Ne.symm hj), hunlatched, if_neg (Ne.symm hj)]
    · rw [htu]; exact hu.time
    · rw [htu]; exact hu.services
    · rw [htu]; exact hu.groups
  · obtain ⟨hm, -, -⟩ := lineModeOf_of_mem (n := mode) (m := .level) (by rw [hmode]; simp)
    let x : ContactInput := { s.input i with
      latch := true, acked := false, mode := .level, mask := mask, priority := min 7 priority, channel := c, incidentFlag := w2.getLsbD 0 }
    let event : Notice := .lineEvent i .level .setLine .latched true true false s.time.block
    let base (u : State) : State := (u.modInput i (fun _ => x)).plusNotice event
    have hanswer : takeByCode o (s.advanced o) = ((base (s.advanced o)).latchEffects i true, if priority ≤ 7 then .done else .clamped) := by
      refine (heq hm (channelOf_of_mem hchannel) _).trans ((if_neg fun e => ne_true_of_eq_false hlatch e.1).trans (congrArg (Prod.mk · _) ?_))
      unfold State.lineSet
      rw [if_neg (ne_true_of_eq_false hlatch : ¬ ((s.advanced o).input i).latch = true)]
      refine (if_pos ⟨rfl, hlevel⟩).trans ?_
      unfold State.latch State.lineEvent
      rw [State.modInput_modInput]
      simp only [ContactInput.withSettings_eq, State.modInput_input_same]
      rw [show ((s.advanced o).input i).level = true from hlevel]
      rfl
    have hbase : (base (s.advanced o)).input i = x := State.modInput_input_same (s.advanced o) i (fun _ => x)
    refine exec_order_exists_of h rfl hanswer fun t ht => ?_
    have hmove : (base s).ZonesMove t (fun _ => True) := by
      rw [ht]
      exact (State.latchEffects_zonesMove (base (s.advanced o)) i true (fun _ _ => trivial) fun _ _ => trivial).withOrders s.orders
    have hincident (z : ZoneIx) := State.latchEffects_incident (s := s) (x := x) (i := i) true (u := base (s.advanced o)) rfl z
    have harbiter : t.arbiter = s.arbiter.activated (contactSource i) mask (min 7 priority) c := by
      rw [ht]
      refine (State.latchEffects_set_arbiter _ i).trans ?_
      rw [hbase]
      rfl
    refine ⟨?_, ?_, ?_, ?_, fun z hz => ?_, fun z hz => ?_, ?_, fun j hj => ?_, hmove.time, hmove.services, hmove.groups⟩
    · exact (hmove.input i).trans hbase
    · rw [harbiter, Arbiter.activated_parts, if_pos rfl]
    · rw [harbiter]; rfl
    · rw [ht]
      exact (State.latchEffects_latchTaken (base (s.advanced o)) i true).withOrders s.orders
    · rw [ht]
      refine ((hincident z).1 hz).trans (or_congr_left ?_)
      exact ⟨fun e => e.2.1, fun e => ⟨rfl, e, hz⟩⟩
    · rw [ht]
      exact (hincident z).2 hz
    · exact State.Notified.noticesBegin (s := s.modInput i (fun _ => x)) (ns := [event]) hmove.notified
    · exact (hmove.input j).trans (State.modInput_input_other s i j (fun _ => x) (Ne.symm hj))

end

end Sys2Proof.Machine
end

section
/-! The orders to break-in sources and the service table that make replans (R66, R67, R124, R125). -/

namespace Sys2Proof.Machine

open Sys2Proof

section
variable {s : State} {o : Order}

/-! ## BREAKIN_START (R124) -/

theorem orderBreakinStart_of_badValue {n : Fin 4} (hn : o.index.toNat = n.val) (h : channelOf (fieldAt o.p1 16 8) = none) :
    orderBreakinStart o s = (s, .refused .badValue) := by
  unfold orderBreakinStart
  rw [indexBelow_of_eq hn]
  dsimp only
  rw [h]

theorem orderBreakinStart_eq {n : Fin 4} {c : Channel} (hn : o.index.toNat = n.val) (hc : channelOf (fieldAt o.p1 16 8) = some c) :
    orderBreakinStart o s = if (s.arbiter.parts[consoleSource n]).isSome = true then (s, .refused .active)
    else (s.activateSource (consoleSource n) (o.p1.extractLsb' 0 8) (min 7 (fieldAt o.p1 8 8)) c .start,
      if fieldAt o.p1 8 8 ≤ 7 then .done else .clamped) := by
  have hresult : doneOr (clampNat 0 7 (fieldAt o.p1 8 8) != fieldAt o.p1 8 8) = if fieldAt o.p1 8 8 ≤ 7 then .done else .clamped :=
    doneOr_of_iff ((clampNat_ne_iff (by decide)).trans (not_congr ⟨fun e => e.2, fun e => ⟨Nat.zero_le _, e⟩⟩))
  unfold orderBreakinStart
  rw [indexBelow_of_eq hn]
  dsimp only
  rw [hc, hresult, clampNat_eq _ _ _ (by decide), Nat.zero_max]

/-- Settles O19. -/
theorem breakinStartActivatesSource : Obligations.BreakinStartActivatesSource := by
  intro s index tag w1 n h hn o x mask priority channel
  have heq {c : Channel} (hc : channelOf channel = some c) (u : State) := orderBreakinStart_eq (s := u) (o := o) hn hc
  refine ⟨fun hbad => ?_, fun hchannel hactive => ?_, fun c hchannel hinactive => ?_⟩
  · exact exec_order_refused h rfl (orderBreakinStart_of_badValue hn (channelOf_of_two_le hbad))
  · obtain ⟨c, hc⟩ := channelOf_of_lt hchannel
    exact exec_order_refused h rfl ((heq hc _).trans (if_pos hactive))
  · have hidle : ¬ (s.arbiter.parts[x]).isSome = true := by simp [hinactive]
    refine exec_order_exists_of h rfl ((heq (channelOf_of_mem hchannel) _).trans (if_neg hidle)) fun t ht => ?_
    have hmove : s.ZonesMove t (fun z => hasZone mask z = true) := by
      rw [ht]
      exact (State.activateSource_zonesMove (s.advanced o) x mask (min 7 priority) c .start).withOrders s.orders
    have hview : t.zoneView = s.zoneView.activated x mask (min 7 priority) c := by
      rw [ht]
      exact (s.advanced o).activateSource_zoneView x mask (min 7 priority) c .start
    have harbiter : t.arbiter = s.arbiter.activated x mask (min 7 priority) c := congrArg ZoneView.arbiter hview
    have howner (z : ZoneIx) (hz : mask.getLsbD z.val = true) :
        (t.zone z).owner = (s.arbiter.activated x mask (min 7 priority) c).claimed x (s.zone z).owner :=
      (congrFun (congrArg ZoneView.owner hview) z).trans (if_pos hz)
    refine ⟨?_, by rw [harbiter]; rfl, by rw [harbiter]; rfl, by rw [harbiter]; rfl, fun z hz hnone => ?_, fun z y p hright hz hy hp => ?_,
      fun z hz => ?_, hmove.time, hmove.services, hmove.groups, hmove.inputs, hmove.combiner, hmove.poster,
      fun z => ⟨hmove.entries z, congrFun (congrArg ZoneView.incident hview) z⟩⟩
    · rw [ht]
      exact ((s.advanced o).activateSource_sourceActivated x mask (min 7 priority) c .start).withOrders s.orders
    · rw [howner z hz, hnone]; rfl
    · have hxy : x ≠ y := fun e => by rw [← e, hinactive] at hp; cases hp
      have hpriority : s.arbiter.priorityOf y = p.priority := by rw [Arbiter.priorityOf, hp]
      rw [howner z hz, hy, Arbiter.claimed, Arbiter.priorityOf_activated_self, Arbiter.priorityOf_activated_other hxy, hpriority]
    · rw [hmove.other z (ne_true_of_eq_false hz)]

/-! ## BREAKIN_STOP (R125) -/

theorem orderBreakinStop_eq {n : Fin 4} (hn : o.index.toNat = n.val) : orderBreakinStop o s =
    if (s.arbiter.parts[consoleSource n]).isSome = true then (s.deactivateSource (consoleSource n) .stop, .done)
    else (s, .note .notActive) := by
  unfold orderBreakinStop
  rw [indexBelow_of_eq hn]

/-- Settles O20. -/
theorem breakinStopPassesZonesOn : Obligations.BreakinStopPassesZonesOn := by
  refine ⟨fun s index tag h hle => exec_order_refused h rfl (takeByCode_of_badIndex rfl hle), ?_⟩
  intro s index tag n h hn x
  let o := plainOrder 19 index tag
  have heq (u : State) := orderBreakinStop_eq (s := u) (o := o) hn
  refine ⟨fun hnone => ?_, fun p hp => ?_⟩
  · have hidle : ¬ (s.arbiter.parts[x]).isSome = true := by simp [hnone]
    exact exec_order_refused h rfl ((heq _).trans (if_neg hidle))
  · have hactive : (s.arbiter.parts[x]).isSome = true := by simp [hp]
    refine exec_order_exists_of h rfl ((heq _).trans (if_pos hactive)) fun t ht => ?_
    have hmove : s.ZonesMove t (fun _ => True) := by
      rw [ht]
      exact (State.deactivateSource_zonesMove (s.advanced o) x .stop fun _ _ _ _ => trivial).withOrders s.orders
    have hview : t.zoneView = s.zoneView.deactivated x := by
      rw [ht]
      exact (s.advanced o).deactivateSource_zoneView x .stop
    have hdeactivated : s.zoneView.deactivated x = { s.zoneView with
        arbiter := s.arbiter.deactivated x
        owner := fun z => if hasZone p.mask z then (s.arbiter.deactivated x).passed x z (s.zone z).owner else (s.zone z).owner } := by
      unfold ZoneView.deactivated
      rw [show s.zoneView.arbiter.parts[x] = some p from hp]
      rfl
    rw [hdeactivated] at hview
    have harbiter : t.arbiter = s.arbiter.deactivated x := congrArg ZoneView.arbiter hview
    have howner (z : ZoneIx) : (t.zone z).owner = if hasZone p.mask z then (s.arbiter.deactivated x).passed x z (s.zone z).owner
      else (s.zone z).owner := congrFun (congrArg ZoneView.owner hview) z
    refine ⟨?_, by rw [harbiter]; rfl, by rw [harbiter]; rfl, by rw [harbiter]; rfl, fun z hz => ?_, fun z hz hmask => ?_,
      hmove.time, hmove.services, hmove.groups, hmove.inputs, hmove.combiner, hmove.poster,
      fun z => ⟨hmove.entries z, congrFun (congrArg ZoneView.incident hview) z⟩⟩
    · rw [ht]
      exact ((s.advanced o).deactivateSource_sourceDeactivated x .stop).withOrders s.orders
    · rw [howner, Arbiter.passed]
      obtain hz | hz := hz
      · rw [if_neg hz, ite_self]
      · rw [if_neg (ne_true_of_eq_false (show hasZone p.mask z = false from hz))]
    · rw [howner, if_pos (show hasZone p.mask z = true from hmask), Arbiter.passed, if_pos hz, harbiter]
      cases hbest : (s.arbiter.deactivated x).bestCoverer z with
      | none => exact fun y hy => Arbiter.covers_of_bestCoverer_none hbest hy
      | some y => exact Arbiter.ranksFirst_of_bestCoverer hbest

/-! ## ENABLE_SERVICE (R66) -/

variable {v : ServiceIx}

theorem orderEnableService_eq (hv : o.service? = some v) : orderEnableService o s =
    if (s.service v).state ≠ .defined then (s, .refused .wrongState)
    else if 80 < s.enabledSum Service.stagingDemand + (s.service v).stagingDemand then (s, .refused .noStaging)
    else if 48 < s.enabledSum Service.uplinkDemand + (s.service v).uplinkDemand then (s, .refused .noUplinkCapacity)
    else ((s.modService v (fun x => x.enable s.period)).replanAll (zonesOf (s.service v).mask), .done) := by
  unfold orderEnableService
  rw [hv]

/-- The replans of the zones of a service's mask, its record changed: what they keep and what they are. -/
theorem State.replanAll_zonesOf (s : State) (mask : BitVec 8) :
    s.ZonesMove (s.replanAll (zonesOf mask)) (fun z => hasZone mask z = true) ∧
    (s.replanAll (zonesOf mask)).zoneView = s.zoneView ∧
    zonesWith (zonesOf mask) (fun z => mask.getLsbD z.val = true) ∧ s.replannedAll (s.replanAll (zonesOf mask)) (zonesOf mask) :=
  ⟨State.replanAll_zonesMove fun _ hz => mem_zonesOf.mp hz, s.replanAll_zoneView _, ⟨zonesOf_sorted mask, fun _ => mem_zonesOf⟩,
    s.replanAll_replannedAll _⟩

/-- Settles O23. -/
theorem enableServiceCreatesStreams : Obligations.EnableServiceCreatesStreams := by
  intro s index tag v h hv o x streams uplink record
  have heq (u : State) := orderEnableService_eq (s := u) (o := o) (Order.service?_of_eq hv)
  refine ⟨fun hstate => ?_, fun hstate hstaging => ?_, fun hstate hstaging huplink => ?_, fun hstate hstaging huplink => ?_⟩
  · exact exec_order_refused h rfl ((heq _).trans (if_pos hstate))
  · exact exec_order_refused h rfl ((heq _).trans ((if_neg (not_not_intro hstate)).trans (if_pos hstaging)))
  · exact exec_order_refused h rfl ((heq _).trans ((if_neg (not_not_intro hstate)).trans
      ((if_neg (Nat.not_lt.mpr hstaging)).trans (if_pos huplink))))
  · have hanswer : takeByCode o (s.advanced o) =
        (((s.advanced o).modService v (fun x => x.enable s.period)).replanAll (zonesOf x.mask), .done) :=
      (heq _).trans ((if_neg (not_not_intro hstate)).trans ((if_neg (Nat.not_lt.mpr hstaging)).trans (if_neg (Nat.not_lt.mpr huplink))))
    obtain ⟨hmove, hview, hzones, hreplans⟩ := State.replanAll_zonesOf ((s.advanced o).modService v (fun x => x.enable s.period)) x.mask
    refine exec_order_exists_of h rfl hanswer fun t ht => ?_
    replace hmove : (s.modService v (fun x => x.enable s.period)).ZonesMove t (fun z => hasZone x.mask z = true) :=
      ht ▸ hmove.withOrders s.orders
    refine ⟨⟨_, hzones, ?_⟩, ?_, fun v' hv' => ?_, fun z hz => hmove.other z (ne_true_of_eq_false hz),
      fun z => ⟨hmove.planId z, hmove.entries z⟩, hmove.time, hmove.groups, hmove.inputs, ?_, hmove.combiner, hmove.poster⟩
    · rw [hmove.services, ht]
      exact hreplans.withOrders s.orders
    · rw [hmove.service, State.modService_service_same]
      rfl
    · rw [hmove.service, State.modService_service_other _ _ _ _ (Ne.symm hv')]
    · rw [ht]
      exact congrArg ZoneView.arbiter hview

/-! ## DISABLE_SERVICE (R67, R80, R150) -/

theorem orderDisableService_eq (hv : o.service? = some v) : orderDisableService o s =
    if (s.service v).state ≠ .enabled then (s, .refused .wrongState)
    else (((s.modService v Service.disable).disableUplink v).replanAll (zonesOf (s.service v).mask), .done) := by
  unfold orderDisableService
  rw [hv]

/-- R80: a stream's part of a disabled report. -/
theorem Service.disabledReport_get (y : Service) (n : StreamName) : y.disabledReport.get n =
    mergeReport (y.report.bind (fun q => q.get n)) ((y.streams.get n).map (fun r => r.toReport (y.totals.get n))) := by
  have hreports : y.reports.get n = (y.streams.get n).map (fun r => r.toReport (y.totals.get n)) := by cases n <;> rfl
  rw [← hreports]
  unfold Service.disabledReport
  cases y.report with
  | none => rfl
  | some q => cases n <;> rfl

theorem BlockRecord.withdraw_eq (r : BlockRecord) (v : ServiceIx) : r.withdraw v =
    { r with enabled := Vector.ofFn (fun u : Fin 24 => if u = v then false else r.enabled[u]) } := by
  unfold BlockRecord.withdraw
  refine congrArg (fun e => ({ r with enabled := e } : BlockRecord)) (Vector.ext fun n hn => ?_)
  rw [Vector.getElem_ofFn, Vector.getElem_set]
  simp only [Fin.ext_iff, eq_comm, Fin.getElem_fin]

/-- R67, R150: what is kept of a disabled service. -/
def Service.withdrawn (x : Service) : Service := { x.disable with droppedBefore := 0, sums := { x.sums with disabled := true } }

theorem State.disableUplink_disable (s : State) (v : ServiceIx) : (s.modService v Service.disable).disableUplink v =
    ({ s with combiner := s.combiner.disable v } : State).modService v Service.withdrawn :=
  State.modService_modService { s with combiner := s.combiner.disable v } v Service.disable
    (fun x => { x with droppedBefore := 0, sums := { x.sums with disabled := true } })

/-- Settles O24. -/
theorem disableServiceDiscardsStreams : Obligations.DisableServiceDiscardsStreams := by
  intro s index tag v h hv
  let o := plainOrder 3 index tag
  have heq (u : State) := orderDisableService_eq (s := u) (o := o) (Order.service?_of_eq hv)
  refine ⟨fun hstate => exec_order_refused h rfl ((heq _).trans (if_pos hstate)), fun hstate => ?_⟩
  let disabled (u : State) : State := (u.modService v Service.disable).disableUplink v
  obtain ⟨hmove, hview, hzones, hreplans⟩ := State.replanAll_zonesOf (disabled (s.advanced o)) (s.service v).mask
  refine exec_order_exists_of h rfl ((heq _).trans (if_neg (not_not_intro hstate))) fun t ht => ?_
  replace hmove : (disabled s).ZonesMove t (fun z => hasZone (s.service v).mask z = true) := ht ▸ hmove.withOrders s.orders
  have hservice (v' : ServiceIx) : t.service v' = if v = v' then (s.service v).withdrawn else s.service v' := by
    rw [hmove.service, show disabled s = _ from s.disableUplink_disable v, State.modService_service_eq]
    rfl
  refine ⟨⟨_, hzones, ?_⟩, ⟨(s.service v).disabledReport, ?_, fun n => ⟨fun hnone => ?_, fun r hr hold => ?_, fun r q hr hold => ?_⟩⟩, ?_,
    fun v' hv' => by rw [hservice, if_neg (Ne.symm hv')], fun z hz => hmove.other z (ne_true_of_eq_false hz),
    fun z => ⟨hmove.planId z, hmove.entries z⟩, hmove.time, hmove.groups, hmove.inputs, ?_, hmove.poster⟩
  · rw [hmove.services, hmove.combiner, ht]
    exact hreplans.withOrders s.orders
  · rw [hservice, if_pos rfl]
    rfl
  · rw [Service.disabledReport_get, hnone]
    cases (s.service v).report.bind (fun q => q.get n) <;> rfl
  · rw [Service.disabledReport_get, hr, hold]
    rfl
  · rw [Service.disabledReport_get, hr, hold]
    rfl
  · rw [hmove.combiner]
    show s.combiner.disable v = _
    unfold Combiner.disable
    simp only [BlockRecord.withdraw_eq]
  · rw [ht]
    exact congrArg ZoneView.arbiter hview

end

end Sys2Proof.Machine
end

section
/-! The lock events and the timers of a link (R4 to R7, R10, R12), and the registered changes of contact inputs (R112 to R115). -/

namespace Sys2Proof.Machine

open Sys2Proof

/-! ## Teardowns of links that differ in what a teardown clears -/

theorem TornDown.congr {s s' t : State} {l : LinkIx} {new : LinkState} {cause : LinkCause} (h : TornDown s t l new cause)
    (htorn : s.torn l new = s'.torn l new) (hstate : (s.link l).mgr.state = (s'.link l).mgr.state)
    (hwires : (s.link l).mgr.wires = (s'.link l).mgr.wires) (hflag : (s.link l).align.outOfReach = (s'.link l).align.outOfReach)
    (hheld : queryDones l .linkDown (s.link l).mgr.heldRequests = queryDones l .linkDown (s'.link l).mgr.heldRequests) :
    TornDown s' t l new cause := by
  have hsettings : (s.link l).settings = (s'.link l).settings := by
    have h := congrArg (fun u => (u.link l).settings) htorn
    simp only [State.torn, State.modLink_link_same] at h
    exact h
  have hgroup (g : GroupIx) : s.group g = s'.group g := congrArg (fun u => u.group g) htorn
  unfold TornDown State.clearedFlag at h ⊢
  dsimp only at h ⊢
  rw [htorn, hstate, hwires, hheld, hsettings, hgroup, hflag] at h
  exact h

/-! ## Lock events (R4, R6, R12) -/

/-- Settles O26. -/
theorem lockEventsFollowTheirState : Obligations.LockEventsFollowTheirState := by
  intro s l hreset
  have hlost : exec (.lockLost l) s = .next (s.lockLost l) := State.running_of_released _ _ hreset
  refine ⟨State.running_of_released _ _ hreset, fun hstate => ?_, fun hstate => ?_, fun hstate => ?_⟩
  · rw [hlost, State.lockLost]
    simp only [List.mem_cons, List.not_mem_nil, or_false] at hstate
    obtain h | h | h := hstate <;> rw [h]
  · rw [hlost, State.lockLost, hstate]
    exact congrArg _ (State.modLink_modLink ..)
  · refine ⟨_, hlost, ?_⟩
    have hfault : s.lockLost l = (s.modMgr l (fun m => { m with lock := false, attachDue := false })).fault l .lockLost := by
      rw [State.lockLost]
      simp only [List.mem_cons, List.not_mem_nil, or_false] at hstate
      obtain h | h | h | h := hstate <;> rw [h]
    rw [hfault]
    exact State.takeDown_tornDown _ l .fault _

theorem State.modMgr_congr {s : State} {l : LinkIx} {f f' : Manager → Manager} (h : f (s.link l).mgr = f' (s.link l).mgr) :
    s.modMgr l f = s.modMgr l f' := State.modLink_congr (by rw [h])

/-! ## Timers (R5 to R7, R10) -/

theorem Manager.settled_iff (m : Manager) : m.settled = true ↔ (∀ g : Tag, m.outstanding[g] = none) ∧ m.pendingQueue = [] := by
  simp [Manager.settled, mem_allTags, List.isEmpty_iff]

/-- Settles O27. -/
theorem linkTimersAdvanceLink : Obligations.LinkTimersAdvanceLink := by
  refine ⟨setupsReplaceOneAnother, fun s l hreset => ⟨fun hstate hphase hcount => ?_, fun hstate hphase hlock hdue => ?_,
    fun hstate hphase hcount => ?_, fun hstate hphase hcount => ?_, fun hstate hdue hfree hpending => ?_⟩⟩
  · refine (State.running_of_released _ _ hreset).trans (congrArg _ ?_)
    exact State.modMgr_congr (if_pos ⟨hstate, hphase, hcount⟩)
  · refine (State.running_of_released _ _ hreset).trans (congrArg _ ?_)
    exact State.modMgr_congr (if_pos ⟨hdue, hstate, hphase, hlock⟩)
  · refine (State.running_of_released _ _ hreset).trans (congrArg _ ?_)
    exact State.modMgr_congr (if_pos ⟨hstate, hphase, hcount⟩)
  · refine ⟨_, State.running_of_released _ _ hreset, ?_⟩
    rw [State.helloWaitExpiryIfDue, if_pos ⟨hstate, hphase, hcount⟩]
    exact State.takeDown_tornDown _ l .fault _
  · refine (State.running_of_released _ _ hreset).trans (congrArg _ ?_)
    rw [State.quiescingEndIfDue, if_pos ⟨hdue, hstate, (Manager.settled_iff _).mpr ⟨hfree, hpending⟩⟩]
    unfold State.issueSetup State.modMgr
    rw [State.modLink_notify, State.modLink_modLink]
    simp only [State.notify_link, State.modLink_link_same]
    refine congrArg (State.notify · _) (State.modLink_congr ?_)
    rfl

end Sys2Proof.Machine
end

section
/-! Events that fall at boundaries (log 2, log 4): when they are taken; the expiry of holds (R51) and registered changes (R112 to R115). -/

namespace Sys2Proof.Machine

open Sys2Proof

/-! ## When an event of a boundary is taken (log 2, log 4) -/

section
variable (s : State)

theorem State.superframeWork_inReset : s.superframeWork.path.inReset = s.path.inReset := by
  have howned (t : State) : t.reportOwned.path.inReset = t.path.inReset := by
    unfold State.reportOwned
    dsimp only
    split <;> rfl
  have hcount (s : State) (g : GroupIx) : s.Edits (s.modGroup g Group.countHold) :=
    (State.Edit.group g _ (s.group g).countHold_sameAim).edits
  unfold State.superframeWork
  extract_lets t1 t2 t3 t4
  have h1 : s.Edits t1 := .forGroups hcount s
  have h2 : t1.Edits t2 := .forLinks State.countTracking_edits t1
  have h3 : t2.Edits t3 := .forServices State.reportStreams_edits t2
  have h4 : t3.Edits t4 := .forServices State.reportUplink_edits t3
  obtain ⟨-, hpath, -⟩ := (h1.trans (h2.trans (h3.trans h4))).frame
  clear_value t1 t2 t3 t4
  have hsnapshot : (t4.reportOwned.snapshot.modTime (fun x => { x with superframeOwed := false })).path.inReset =
      t4.reportOwned.path.inReset := rfl
  rw [hsnapshot, howned, hpath]

theorem State.settle_inReset : s.settle.path.inReset = s.path.inReset := by
  unfold State.settle
  extract_lets t1 t2 t3 t4
  have h1 : t1.path.inReset = s.path.inReset := by
    unfold t1
    split
    · exact s.superframeWork_inReset
    · rfl
  have h2 : t1.Edits t2 := .forLinks State.settleLink_edits t1
  have h3 : t2.Edits t3 := .forGroups State.holdExpiryIfDue_edits t2
  have h4 : t3.Edits t4 := .forInputs State.registeredChangeIfDue_edits t3
  obtain ⟨-, hpath, -⟩ := (h2.trans (h3.trans (h4.trans ((State.Edits.forZones State.planSwitchIfDue_edits t4).trans
    (State.joinSwitchAll_edits _))))).frame
  exact (congrArg MemPath.inReset hpath).trans h1

theorem State.beginBoundary_inReset : s.beginBoundary.path.inReset = s.path.inReset := by
  obtain ⟨-, hpath, -⟩ := (State.Edits.forLinks State.departing_edits (s.settle.modTime Timebase.next)).frame
  rw [State.beginBoundary, State.forLinks, ← State.forLinks, hpath, State.modTime_path, s.settle_inReset]

theorem State.atBoundary_inReset : s.atBoundary.path.inReset = s.path.inReset := by
  unfold State.atBoundary
  split
  · rfl
  · exact s.beginBoundary_inReset

theorem State.beginBoundary_time : s.beginBoundary.time = s.settle.time.next := by
  obtain ⟨htime, -⟩ := (State.Edits.forLinks State.departing_edits (s.settle.modTime Timebase.next)).frame
  exact htime

end

section
variable {s : State} {due : State → Bool} {act : State → State} {event : State → Host.Outcome State Fault Refusal}

theorem event_of_due (hevent : ∀ s, event s = s.running (s.boundaryEvent due act)) (hreset : s.path.inReset = false) (h : due s = true) :
    event s = .next (act s) := by
  rw [hevent, State.running_of_released _ _ hreset, State.boundaryEvent, if_pos h]

/-- Log 2, log 4: an event not due at the present boundary is that of the next where it is due there, and nothing otherwise. -/
theorem event_of_not_due (hevent : ∀ s, event s = s.running (s.boundaryEvent due act)) (hreset : s.path.inReset = false)
    (h : due s = false) :
    (s.time.blockOwed = false → due s.atBoundary = true → event s = event s.atBoundary) ∧
    ((s.time.blockOwed = true ∨ due s.atBoundary = false) → event s = .next s) := by
  obtain ⟨hdue, -⟩ | ⟨-, hopen, hdue, heq⟩ | ⟨-, hlater, heq⟩ := s.boundaryEvent_cases due act
  · rw [h] at hdue; cases hdue
  · refine ⟨fun _ _ => ?_, fun hlater => ?_⟩
    · rw [hevent, State.running_of_released _ _ hreset, heq, event_of_due hevent (s.atBoundary_inReset.trans hreset) hdue]
    · rw [hopen, hdue] at hlater
      exact hlater.elim (fun e => nomatch e) fun e => nomatch e
  · refine ⟨fun hopen hdue => ?_, fun _ => ?_⟩
    · rw [hopen, hdue] at hlater
      exact hlater.elim (fun e => nomatch e) fun e => nomatch e
    · rw [hevent, State.running_of_released _ _ hreset, heq]

end

/-! ## HOLD_EXPIRY (R51) -/

section
variable {s : State} {g : GroupIx}

/-- R51, R52, R53, R55: a hold's expiry. -/
theorem State.expireHold_eq {h : Hold} (hh : (s.group g).hold = some h) :
    ∃ flags : List (LinkIx × Bool), s.expireHold g = ((s.modGroup g (fun x => { x with target := some h.candidate, hold := none })).computeKStar
        g).plusNotice (.align g .holdExpired (s.group g).target (some h.candidate) none flags) ∧
      ∀ l on, (l, on) ∈ flags ↔
        (((s.expireHold g).link l).align.outOfReach = on ∧ (s.link l).align.outOfReach ≠ on) := by
  have heq : s.expireHold g = ((s.modGroup g (fun x => { x with target := some h.candidate, hold := none })).computeKStar g).plusNotice
      (.align g .holdExpired (s.group g).target (some h.candidate) none
        (flagChanges s ((s.modGroup g (fun x => { x with target := some h.candidate, hold := none })).computeKStar g) (s.members g))) := by
    unfold State.expireHold
    rw [hh]
    rfl
  refine ⟨_, heq, fun l on => ?_⟩
  rw [mem_flagChanges, heq]
  refine ⟨fun h => h.2, fun hchange => ⟨?_, hchange⟩⟩
  by_contra hl
  obtain ⟨h1, h2⟩ := hchange
  have hlink : ((s.modGroup g (fun x => { x with target := some h.candidate, hold := none })).computeKStar g).link l = s.link l := by
    rw [State.computeKStar_link]
    split
    · exact if_neg hl
    · rfl
  exact h2 (hlink ▸ h1)

theorem State.expireHold_link {h : Hold} (hh : (s.group g).hold = some h) (l : LinkIx) : (s.expireHold g).link l =
    if l ∈ s.members g then (s.link l).towards h.candidate else s.link l := by
  obtain ⟨flags, heq, -⟩ := State.expireHold_eq hh
  rw [heq]
  refine (State.computeKStar_link _ g l).trans ?_
  rw [State.modGroup_group_same]
  rfl

theorem State.expireHold_group {h : Hold} (hh : (s.group g).hold = some h) (g' : GroupIx) : (s.expireHold g).group g' =
    if g = g' then { s.group g with target := some h.candidate, hold := none } else s.group g' := by
  obtain ⟨flags, heq, -⟩ := State.expireHold_eq hh
  rw [heq, State.computeKStar_eq]
  exact State.modGroup_group_eq s g g' (fun x => { x with target := some h.candidate, hold := none })

theorem Group.holdExpires_iff (x : Group) : x.holdExpires = true ↔ ∃ h, x.hold = some h ∧ 100 ≤ h.count := by
  unfold Group.holdExpires
  cases x.hold <;> simp

theorem State.lastCountDue_iff (s : State) (g : GroupIx) : s.lastCountDue g = true ↔
    ∃ h, (s.group g).hold = some h ∧ h.count = 99 ∧ s.time.superframeOwed = true ∧ (s.group g).counted = false := by
  unfold State.lastCountDue
  cases (s.group g).hold <;> simp [and_comm, and_left_comm]

theorem State.holdDue_iff (s : State) (g : GroupIx) : s.holdDue g = true ↔ ∃ h, (s.group g).hold = some h ∧
    (100 ≤ h.count ∨ (h.count = 99 ∧ s.time.superframeOwed = true ∧ (s.group g).counted = false)) := by
  rw [State.holdDue, Bool.or_eq_true, Group.holdExpires_iff, State.lastCountDue_iff, ← exists_or]
  exact exists_congr fun h => and_or_left.symm

/-- R51: a hold's expiry, with the count it may take ahead of the boundary's other work. -/
theorem State.holdExpiry_eq {h : Hold} (hh : (s.group g).hold = some h) (hdue : 100 ≤ h.count ∨ h.count = 99) :
    s.holdExpiry g = (s.modGroup g (fun x => { x with counted := x.counted || decide (h.count = 99) })).expireHold g := by
  unfold State.holdExpiry
  split
  · next hexpires =>
    obtain ⟨h', hh', hle⟩ := (s.group g).holdExpires_iff.mp hexpires
    obtain rfl : h = h' := Option.some.inj (hh.symm.trans hh')
    have hsame : s.modGroup g (fun x => { x with counted := x.counted || decide (h.count = 99) }) = s := by
      have hne : ¬ h.count = 99 := by omega
      have hid : (fun x : Group => { x with counted := x.counted || decide (h.count = 99) }) = id := by
        funext x
        rw [decide_eq_false hne, Bool.or_false]
        rfl
      rw [hid]
      simp [State.modGroup]
    rw [hsame]
  · next hexpires =>
    have hcount : h.count = 99 := hdue.resolve_left fun hle => hexpires ((s.group g).holdExpires_iff.mpr ⟨h, hh, hle⟩)
    simp only [State.countAndExpire, hcount, decide_true, Bool.or_true]

/-- Settles O34. -/
theorem holdExpiryMovesTarget : Obligations.HoldExpiryMovesTarget := by
  intro s g hreset due
  have hevent (s : State) : exec (.holdExpiry g) s = s.running (s.boundaryEvent (fun t => t.holdDue g) (fun t => t.holdExpiry g)) := rfl
  have hiff (u : State) : u.holdDue g = true ↔ ∃ h, due u h := u.holdDue_iff g
  have hnot (u : State) (h : ∀ h, ¬ due u h) : u.holdDue g = false := by
    rw [← Bool.not_eq_true, hiff]
    exact fun ⟨x, hx⟩ => h x hx
  refine ⟨fun h hdue => ?_, fun hno => ?_⟩
  · obtain ⟨hh, hcount⟩ := hdue
    let base := s.modGroup g (fun x => { x with counted := x.counted || decide (h.count = 99) })
    have hbase : base.group g = { s.group g with counted := (s.group g).counted || decide (h.count = 99) } := State.modGroup_group_same ..
    have hbh : (base.group g).hold = some h := by rw [hbase]; exact hh
    have hmembers (l : LinkIx) : l ∈ base.members g ↔ (s.link l).mgr.state = .active ∧ (s.link l).settings.group = g := base.mem_members g l
    obtain ⟨flags, heq, hflags⟩ := State.expireHold_eq hbh
    have hframe := base.expireHold_frame g
    refine ⟨base.expireHold g, flags, ?_, ?_, fun g' hg' => ?_, fun l hstate hgroup => ?_, fun l hl => ?_, ?_, hflags, ?_⟩
    · rw [event_of_due hevent hreset ((hiff s).mpr ⟨h, hh, hcount⟩)]
      rw [State.holdExpiry_eq hh (hcount.imp_right And.left)]
    · rw [State.expireHold_group hbh, if_pos rfl, hbase]
    · rw [State.expireHold_group hbh, if_neg (Ne.symm hg')]
      exact State.modGroup_group_other _ _ _ _ (Ne.symm hg')
    · rw [State.expireHold_link hbh, if_pos ((hmembers l).mpr ⟨hstate, hgroup⟩), Link.towards_eq]
      rfl
    · rw [State.expireHold_link hbh, if_neg fun hin => ?_]
      · rfl
      · obtain ⟨hactive, hgroup⟩ := (hmembers l).mp hin
        exact hl.elim (fun e => e hactive) fun e => e hgroup
    · rw [heq, State.computeKStar_eq]
      show base.notices.generate _ = _
      rw [hbase]
      rfl
    · rw [hframe]
      exact ⟨rfl, rfl, rfl, rfl, rfl, rfl, rfl, rfl, rfl⟩
  · obtain ⟨hlater, hnever⟩ := event_of_not_due hevent hreset (hnot s hno)
    exact ⟨fun h hopen hdue => hlater hopen ((hiff _).mpr ⟨h, hdue⟩), fun h => hnever (h.imp_right (hnot _))⟩

end

/-! ## REGISTERED_CHANGE (R112 to R115) -/

section
variable {s : State} {i : InputIx}

/-- R112: an input's record once its registered level has changed. -/
def ContactInput.turned (c : ContactInput) : ContactInput := { c with level := !c.level, stability := 0, changeDue := false }

/-- R118: the LINE_EVENT of input i, its record being x. -/
def State.lineNotice (s : State) (i : InputIx) (x : ContactInput) (cause : LineCause) (effect : LineEffect) : Notice :=
  .lineEvent i x.mode cause effect x.level x.latch x.acked s.time.block

/-- R113: input i's latch changed, its record then being x, with its LINE_EVENT. -/
def State.relatched (s : State) (i : InputIx) (x : ContactInput) (cause : LineCause) (effect : LineEffect) (isSet : Bool) : State :=
  ((s.modInput i (fun _ => x)).plusNotice (s.lineNotice i x cause effect)).latchEffects i isSet

theorem State.registeredChange_eq : s.registeredChange i =
    let c := s.input i
    let cause := if c.level then LineCause.released else LineCause.asserted
    match changeEffect c.mode (!c.level) c.latch c.acked with
    | .silent => s.modInput i (fun _ => c.turned)
    | .latched => s.relatched i { c.turned with latch := true, acked := false } cause .latched true
    | .reported => (s.modInput i (fun _ => c.turned)).plusNotice (s.lineNotice i c.turned cause .reported)
    | .cleared => s.relatched i { c.turned with latch := false, acked := false } .released .cleared false := by
  unfold State.registeredChange State.latch State.unlatchReleased State.lineEvent State.relatched State.lineNotice
  dsimp only
  cases changeEffect (s.input i).mode (!(s.input i).level) (s.input i).latch (s.input i).acked <;>
    simp only [State.modInput_modInput, State.modInput_input_same] <;> rfl

section
variable (x : ContactInput) (cause : LineCause) (effect : LineEffect) (isSet : Bool)

theorem State.relatched_base_input (j : InputIx) :
    ((s.modInput i (fun _ => x)).plusNotice (s.lineNotice i x cause effect)).input j = if i = j then x else s.input j :=
  State.modInput_input_eq s i j (fun _ => x)

theorem State.relatched_zonesMove {p : ZoneIx → Prop} (hp : ∀ z, hasZone x.mask z = true → p z) (hcleared : isSet = false → ∀ z, p z) :
    ((s.modInput i (fun _ => x)).plusNotice (s.lineNotice i x cause effect)).ZonesMove (s.relatched i x cause effect isSet) p := by
  refine State.latchEffects_zonesMove _ i isSet (fun z hz => hp z ?_) hcleared
  rwa [State.relatched_base_input, if_pos rfl] at hz

theorem State.relatched_input (j : InputIx) : (s.relatched i x cause effect isSet).input j = if i = j then x else s.input j :=
  ((s.relatched_zonesMove x cause effect isSet (fun _ _ => trivial) fun _ _ => trivial).input j).trans (s.relatched_base_input x cause effect j)

theorem State.relatched_frame :
    (s.relatched i x cause effect isSet).time = s.time ∧ (s.relatched i x cause effect isSet).services = s.services ∧
    (s.relatched i x cause effect isSet).groups = s.groups ∧ (s.relatched i x cause effect isSet).combiner = s.combiner ∧
    (s.relatched i x cause effect isSet).path = s.path ∧ (s.relatched i x cause effect isSet).orders = s.orders ∧
    (s.relatched i x cause effect isSet).poster = s.poster := by
  rw [(s.relatched_zonesMove x cause effect isSet (fun _ _ => trivial) fun _ _ => trivial).eq]
  exact ⟨rfl, rfl, rfl, rfl, rfl, rfl, rfl⟩

theorem State.relatched_noticesBegin : s.noticesBegin (s.relatched i x cause effect isSet) [s.lineNotice i x cause effect] :=
  State.Notified.noticesBegin (s := s.modInput i (fun _ => x)) (ns := [s.lineNotice i x cause effect])
    (s.relatched_zonesMove x cause effect isSet (fun _ _ => trivial) fun _ _ => trivial).notified

theorem State.relatched_incident (z : ZoneIx) (hz : x.mask.getLsbD z.val = true) : ((s.relatched i x cause effect isSet).zone z).incident = true ↔
    (x.latch = true ∧ x.incidentFlag = true ∧ x.mask.getLsbD z.val = true) ∨ s.heldByOthers z i :=
  (State.latchEffects_incident (s := s) (x := x) (i := i) isSet
    (u := (s.modInput i (fun _ => x)).plusNotice (s.lineNotice i x cause effect)) rfl z).1 hz

end

/-- A change noted as due makes the change that is taken ahead of it. -/
theorem State.registeredChange_changeDue :
    (s.modInput i (fun x => { x with changeDue := true })).registeredChange i = s.registeredChange i := by
  unfold State.registeredChange
  simp only [State.modInput_input_same, State.modInput_modInput]

/-- Settles O35. -/
theorem registeredChangeFollowsItsMode : Obligations.RegisteredChangeFollowsItsMode := by
  have hexec (s : State) (i : InputIx) (hreset : s.path.inReset = false) : exec (.registeredChange i) s = .next (s.registeredChangeEvent i) :=
    State.running_of_released _ _ hreset
  refine ⟨fun s i hreset hdue => ⟨fun hstable htaken => ⟨s.atBoundary.registeredChange i, ?_, ?_⟩, fun hno => ?_⟩, ?_⟩
  · rw [hexec (s.atBoundary.modInput i _) _ (s.atBoundary_inReset.trans hreset), State.registeredChangeEvent, if_pos (by rw [State.modInput_input_same]),
      State.registeredChange_changeDue]
  · rw [hexec _ _ hreset, State.registeredChangeEvent, if_neg (by simp [hdue]), if_pos ⟨hstable, htaken⟩]
    rfl
  · rw [hexec _ _ hreset, State.registeredChangeEvent, if_neg (by simp [hdue]), if_neg]
    rintro ⟨h1, h2⟩
    obtain h | h := hno
    · exact h h1
    · rw [h2] at h; cases h
  · intro s i hreset hdue c moved
    have heq : exec (.registeredChange i) s = .next (s.registeredChange i) := by
      rw [hexec _ _ hreset, State.registeredChangeEvent, if_pos hdue]
    rw [State.registeredChange_eq] at heq
    dsimp only at heq
    refine ⟨fun hmode => ?_, fun hcells => ?_, fun hmode hlevel hlatch => ⟨_, heq, ?_⟩, fun hmode hlevel hlatch hacked => ⟨_, heq, ?_⟩⟩
    · rw [heq, show (s.input i).mode = .off from hmode]
      rfl
    · have heffect : changeEffect c.mode (!c.level) c.latch c.acked = .reported := by
        obtain ⟨hmode, h⟩ | ⟨hmode, h⟩ := hcells
        · rw [hmode]
          cases hlevel : c.level <;> cases hlatch : c.latch <;> simp [hlevel, hlatch] at h <;> rfl
        · rw [hmode]
          cases hlevel : c.level <;> cases hlatch : c.latch <;> cases hacked : c.acked <;> simp [hlevel, hlatch, hacked] at h <;> rfl
      rw [heq, heffect]
      rfl
    · have heffect : changeEffect c.mode (!c.level) c.latch c.acked = .latched := by
        rw [hlevel, hlatch]
        cases hm : c.mode
        · exact absurd hm hmode
        · rfl
        · rfl
      rw [heffect]
      have hcause : (if (s.input i).level = true then LineCause.released else .asserted) = .asserted := by
        rw [show (s.input i).level = false from hlevel]
        rfl
      have hnotice : s.lineNotice i { c.turned with latch := true, acked := false } .asserted .latched =
          .lineEvent i c.mode .asserted .latched true true false s.time.block := by
        simp [State.lineNotice, ContactInput.turned, hlevel]
      dsimp only
      rw [hcause]
      let x : ContactInput := { c.turned with latch := true, acked := false }
      have hmove := s.relatched_zonesMove (i := i) x .asserted .latched true (p := fun z => hasZone c.mask z = true) (fun _ hz => hz)
        (fun e => nomatch e)
      have harbiter : (s.relatched i x .asserted .latched true).arbiter =
          s.arbiter.activated (contactSource i) c.mask c.priority c.channel := by
        refine (State.latchEffects_set_arbiter _ i).trans ?_
        rw [State.relatched_base_input, if_pos rfl]
        rfl
      refine ⟨?_, ?_, by rw [harbiter]; rfl, by rw [harbiter]; rfl, by rw [harbiter]; rfl, fun z hz => ?_, fun z hz => ?_, ?_, fun j hj => ?_,
        s.relatched_frame x _ _ _⟩
      · rw [← hnotice]
        exact State.latchEffects_latchTaken _ i true
      · rw [State.relatched_input, if_pos rfl]
        rfl
      · refine (s.relatched_incident x _ _ true z hz).trans ?_
        rw [State.heldByOthers, or_left_comm]
        refine or_congr_right (or_congr_left ⟨fun e => e.2.1, fun e => ⟨rfl, e, hz⟩⟩)
      · exact hmove.other z (ne_true_of_eq_false hz)
      · rw [← hnotice]
        exact s.relatched_noticesBegin x _ _ _
      · rw [State.relatched_input, if_neg (Ne.symm hj)]
    · have heffect : changeEffect c.mode (!c.level) c.latch c.acked = .cleared := by
        rw [hmode, hlevel, hlatch, hacked]
        rfl
      rw [heffect]
      have hnotice : s.lineNotice i { c.turned with latch := false, acked := false } .released .cleared =
          .lineEvent i .level .released .cleared false false false s.time.block := by
        simp [State.lineNotice, ContactInput.turned, hlevel, hmode]
      let x : ContactInput := { c.turned with latch := false, acked := false }
      refine ⟨?_, ?_, State.latchEffects_cleared_part _ i, fun z hz => ?_, ?_, fun j hj => ?_, s.relatched_frame x _ _ _⟩
      · rw [← hnotice]
        exact State.latchEffects_latchTaken _ i false
      · exact (s.relatched_input x _ _ _ i).trans (if_pos rfl)
      · exact (s.relatched_incident x _ _ false z hz).trans (or_iff_right fun e => nomatch e.1)
      · rw [← hnotice]
        exact s.relatched_noticesBegin x _ _ _
      · exact (s.relatched_input x _ _ _ j).trans (if_neg (Ne.symm hj))

end

end Sys2Proof.Machine
end

section
/-! The echoes of ranging runs and the tracking marks (chapter 2). -/

namespace Sys2Proof.Machine

open Sys2Proof

/-! ## An unerrored frame (R12, R17, R138) -/

section
variable {s : State} {l : LinkIx} {f : UplinkFrame}

theorem LinkState.controlOpen_of_mem {x : LinkState} (h : x ∈ ([.standby, .joining, .active, .quiescing] : List LinkState)) :
    x.controlOpen = true := (LinkState.controlOpen_iff x).mpr h

@[simp] theorem State.afterGoodFrame_link_same : (s.afterGoodFrame l f).link l = { s.link l with
    mgr := { (s.link l).mgr with erroredRun := 0 }
    rx := if (s.link l).mgr.state = .active then (s.link l).rx.map (fun h => h.take s.period f) else (s.link l).rx } :=
  State.modLink_link_same ..

/-- What an unerrored frame changes of a link before its messages, a teardown clears. -/
theorem State.afterGoodFrame_torn (s : State) (l : LinkIx) (f : UplinkFrame) (new : LinkState) :
    (s.afterGoodFrame l f).torn l new = s.torn l new :=
  (State.modLink_modLink ..).trans (State.modLink_congr rfl)

theorem State.takeGood_takeSamples (h : (s.link l).mgr.state.controlOpen = true) :
    (s.takeSamples l f).takeGood l = s.afterGoodFrame l f := by
  have hsamples : s.takeSamples l f = s.modLink l (fun x => { x with
      rx := if x.mgr.state = .active then x.rx.map (fun h => h.take s.period f) else x.rx }) := by
    unfold State.takeSamples
    by_cases hactive : (s.link l).mgr.state = .active
    · rw [if_pos hactive]
      exact State.modLink_congr (by simp [hactive])
    · rw [if_neg hactive]
      have hid : (s.link l) = (fun x : Link => { x with
          rx := if x.mgr.state = .active then x.rx.map (fun h => h.take s.period f) else x.rx }) (s.link l) := by simp [hactive]
      refine Eq.trans ?_ (State.modLink_congr (f := fun x => x) hid)
      simp [State.modLink]
  rw [hsamples, State.takeGood, if_pos (by rw [State.modLink_link_same]; exact h), State.modMgr, State.modLink_modLink]
  rfl

/-- An unerrored frame that brings one message to a link with its control channel open. -/
theorem exec_openMessage {m : RxMsg} (hreset : s.path.inReset = false) (hok : frameOk f = true) (herr : f.errored = false)
    (hm : f.messages = [m]) (hopen : (s.link l).mgr.state ∈ ([.standby, .joining, .active, .quiescing] : List LinkState)) :
    exec (.uplinkFrameArrival l f) s = .next ((s.afterGoodFrame l f).takeOpenMessage l f.arrivalStep m) := by
  have hstate := LinkState.controlOpen_of_mem hopen
  show execUplinkFrameArrival l f s = _
  rw [execUplinkFrameArrival, if_pos hok, State.running_of_released _ _ hreset, State.takeFrame, hm]
  rw [if_neg (by simp [herr]), State.takeGood_takeSamples hstate]
  refine congrArg _ (if_pos ?_)
  rw [State.afterGoodFrame_link_same]
  exact hstate

end

/-! ## Runs (R30 to R37) -/

section
variable {s : State} {l : LinkIx}

theorem RangingRun.admits_iff (r : RangingRun) (runId : BitVec 8) (m : Fin 4) (now : Seq16) (arrival : Nat) :
    r.admits runId m now arrival = true ↔ r.runId = runId ∧ m.val < r.marksSent ∧ now = r.firstBlock + BitVec.ofNat 16 m.val ∧
      arrival ≤ 65535 ∧ r.roundTrips[m] = none := by
  simp [RangingRun.admits, and_assoc]

theorem State.takeEcho_of_match {r : RangingRun} {runId : BitVec 8} {m : Fin 4} {turn latency arrival : Nat}
    (hr : (s.link l).rng.run = some r) (h : r.admits runId m s.period arrival = true) : s.takeEcho l runId m turn latency arrival =
      if m.val = 3 then s.judge l (r.capture m arrival turn latency)
      else s.modRng l (fun y => { y with run := some (r.capture m arrival turn latency) }) := by
  unfold State.takeEcho
  rw [hr]
  exact if_pos h

theorem State.takeEcho_of_no_match {runId : BitVec 8} {m : Fin 4} {turn latency arrival : Nat}
    (h : ∀ r, (s.link l).rng.run = some r → r.admits runId m s.period arrival = false) :
    s.takeEcho l runId m turn latency arrival = s.countUnexpected l := by
  unfold State.takeEcho
  cases hr : (s.link l).rng.run with
  | none => rfl
  | some r => exact if_neg (by rw [h r hr]; simp)

/-- R36, R37, R40: what a run that fails posts. -/
def State.failedResult (s : State) (l : LinkIx) (r : RangingRun) (outcome : RunOutcome) (failures : Nat) : Notice :=
  .rangeResult l r.runId r.cause outcome (s.link l).mgr.state r.roundTrips
    (if outcome = .ok ∨ outcome = .jitter then some r.spread else none) none none none none false (s.link l).rng.valid failures
    (if outcome = .timeout then some (r.marksSent - 1) else none)

section
variable (r : RangingRun) {outcome : RunOutcome} (hfailed : outcome ≠ .ok)
include hfailed

theorem State.rangeResult_of_failed : s.rangeResult l r outcome = s.failedResult l r outcome (s.link l).rng.failures := by
  have hok : (outcome == .ok) = false := beq_false_of_ne hfailed
  simp [State.rangeResult, State.failedResult, hok]

theorem State.endFailed_of_inactive (h : (s.link l).mgr.state ≠ .active) : s.endFailed l r outcome =
    (s.modRng l (fun x => { x with run := none })).plusNotice (s.failedResult l r outcome (s.link l).rng.failures) := by
  unfold State.endFailed
  rw [if_neg h]
  dsimp only
  rw [State.rangeResult_of_failed r hfailed]
  simp [State.failedResult, State.modRng, Ranging.runEnded]
  rfl

/-- R37: a run that fails on an ACTIVE link, before its third failure is judged. -/
def State.failureCounted (s : State) (l : LinkIx) (r : RangingRun) (outcome : RunOutcome) : State :=
  (s.plusNotice (s.failedResult l r outcome ((s.link l).rng.failures + 1))).modRng l
    (fun x => { x with run := none, trackCount := 0, failures := x.failures + 1 })

omit hfailed in
theorem State.failureCounted_link : (s.failureCounted l r outcome).link l = { s.link l with
    rng := { (s.link l).rng with run := none, trackCount := 0, failures := (s.link l).rng.failures + 1 } } :=
  State.modLink_link_same ..

theorem State.endFailed_of_active (h : (s.link l).mgr.state = .active) : s.endFailed l r outcome =
    if 3 ≤ (s.link l).rng.failures + 1 then (s.failureCounted l r outcome).fault l .rangeLost else s.failureCounted l r outcome := by
  have hcounted : (s.modRng l (fun r => { r.runEnded true with failures := r.failures + 1 })).notify
      ((s.modRng l (fun r => { r.runEnded true with failures := r.failures + 1 })).rangeResult l r outcome) =
      s.failureCounted l r outcome := by
    rw [State.rangeResult_of_failed r hfailed]
    simp [State.failureCounted, State.failedResult, State.modRng, Ranging.runEnded]
    rfl
  have hfailures : ((s.failureCounted l r outcome).link l).rng.failures = (s.link l).rng.failures + 1 := by
    rw [State.failureCounted_link]
  unfold State.endFailed
  rw [if_pos h]
  dsimp only
  rw [hcounted, hfailures]

/-- R37: the third failure of an ACTIVE link tears it down after its RANGE_RESULT. -/
theorem State.endFailed_tornDown (h : (s.link l).mgr.state = .active) (hfailures : (s.link l).rng.failures = 2) :
    TornDown (s.plusNotice (s.failedResult l r outcome 3)) (s.endFailed l r outcome) l .fault (.fault .rangeLost) := by
  rw [State.endFailed_of_active r hfailed h, if_pos (by rw [hfailures])]
  refine (State.takeDown_tornDown _ l .fault _).congr ?_ ?_ ?_ ?_ ?_
  · rw [State.failureCounted, hfailures, State.torn, State.modRng, State.modLink_modLink]
    exact State.modLink_congr rfl
  all_goals
    rw [State.failureCounted_link]
    rfl

end

/-- Settles O32. -/
theorem echoWindowCloseEndsRun : Obligations.EchoWindowCloseEndsRun := by
  intro s l r m hreset hr hmarks hperiod hmissing
  have hopen : r.windowOpen s.period = true := by
    unfold RangingRun.windowOpen
    rw [hmarks]
    simp [hperiod]
    exact hmissing
  have heq : exec (.echoWindowClose l) s = .next (s.endFailed l r .timeout) := by
    refine (State.running_of_released _ _ hreset).trans (congrArg _ ?_)
    rw [State.echoWindowCloseIfDue, hr]
    exact if_pos hopen
  have hresult (n : Nat) : s.failedResult l r .timeout n = .rangeResult l r.runId r.cause .timeout (s.link l).mgr.state r.roundTrips none none
      none none none false (s.link l).rng.valid n (some m.val) := by
    simp [State.failedResult, hmarks]
  refine ⟨fun hinactive => ?_, fun hactive hfew => ?_, fun hactive hfailures => ⟨_, heq, ?_⟩⟩
  · rw [heq, State.endFailed_of_inactive r (by decide) hinactive, hresult]
  · rw [heq, State.endFailed_of_active r (by decide) hactive, if_neg (by omega), State.failureCounted, hresult, hactive]
    rfl
  · have h := State.endFailed_tornDown r (outcome := .timeout) (by decide) hactive hfailures
    rw [hresult, hactive] at h
    exact h

/-! ## The fourth echo (R32 to R37) -/

/-- What a settled run leaves of the ranging fields (R33, R34, R35). -/
theorem State.endOk_eq (r : RangingRun) : s.endOk l r =
    let x := (s.link l).rng.accept r (s.link l).settings.cable
    let t := (s.modRng l (fun y => (y.accept r (s.link l).settings.cable).runEnded ((s.link l).mgr.state == .active))).plusNotice
      (.rangeResult l r.runId r.cause .ok (s.link l).mgr.state r.roundTrips (some r.spread) (some x.turn) (some x.latency) (some x.delay)
        (some x.path) x.suspect true 0 none)
    if x.path = (s.link l).rng.path ∨ (s.link l).mgr.state ≠ .active then t
    else t.reEvaluate (s.link l).settings.group (.path l x.path) [] := by
  have hlink (t : State) (n : Notice) : (t.notify n).link l = t.link l := rfl
  unfold State.endOk State.reportPath
  simp only [State.rangeResult, hlink, State.modRng, State.modLink_link_same, beq_self_eq_true, Bool.true_and]
  by_cases hpath : ((s.link l).rng.accept r (s.link l).settings.cable).path = (s.link l).rng.path
  · exact (if_pos hpath).trans (if_pos (Or.inl hpath)).symm
  · refine (if_neg hpath).trans ?_
    by_cases hactive : (s.link l).mgr.state = .active
    · exact (if_pos hactive).trans (if_neg (by simp [hpath, hactive])).symm
    · exact (if_neg hactive).trans (if_pos (Or.inr hactive)).symm

/-- R30: the run once its fourth echo is captured. -/
theorem RangingRun.capture_last {r : RangingRun} {a b c : Nat} (h : r.roundTrips = #v[some a, some b, some c, none]) (d turn latency : Nat) :
    r.capture 3 d turn latency =
      { r with roundTrips := #v[some a, some b, some c, some d], turn3 := some turn, latency3 := some latency } := by
  unfold RangingRun.capture
  rw [h]
  rfl

theorem RangingRun.spread_of_four {r : RangingRun} {a b c d : Nat} (h : r.roundTrips = #v[some a, some b, some c, some d])
    (ha : a ≤ 65535) (hb : b ≤ 65535) (hc : c ≤ 65535) (hd : d ≤ 65535) :
    r.spread = max (max (max a b) c) d - min (min (min a b) c) d := by
  have hcaptured : r.captured = [a, b, c, d] := by
    rw [RangingRun.captured, h]
    rfl
  rw [RangingRun.spread, hcaptured]
  simp only [List.foldl_cons, List.foldl_nil]
  omega

/-- Settles O31. -/
theorem fourthEchoSettlesRun : Obligations.FourthEchoSettlesRun := by
  intro s l f runId m turn latency hreset hok herr hm hopen u old matching
  have hexec : exec (.uplinkFrameArrival l f) s = .next (u.takeEcho l runId m turn.toNat latency.toNat f.arrivalStep) :=
    exec_openMessage hreset hok herr hm hopen
  have hlink : u.link l = _ := State.afterGoodFrame_link_same
  have hrun : (u.link l).rng = old.rng := by rw [hlink]
  have hstate : (u.link l).mgr.state = old.mgr.state := by rw [hlink]
  have hsettings : (u.link l).settings = old.settings := by rw [hlink]
  have hmatch (r : RangingRun) : r.admits runId m u.period f.arrivalStep = true ↔ matching r := r.admits_iff ..
  refine ⟨fun r hr hmr hm3 => ?_, fun hno => ?_, ?_⟩
  · have hm3' : ¬ m.val = 3 := fun e => hm3 (Fin.ext e)
    rw [hexec, State.takeEcho_of_match (by rw [hrun]; exact hr) ((hmatch r).mpr hmr), if_neg hm3']
    simp only [RangingRun.capture, if_neg hm3']
  · rw [hexec, State.takeEcho_of_no_match fun r hr => ?_]
    · rfl
    · rw [← Bool.not_eq_true, hmatch]
      exact hno r (by rw [← hrun]; exact hr)
  · intro r a b c hr hmr hm3 htrips ha hb hc d spread x delay path settled jitter
    let run := r.capture 3 d turn.toNat latency.toNat
    have hrunEq : run = { r with
        roundTrips := #v[some a, some b, some c, some d], turn3 := some turn.toNat, latency3 := some latency.toNat } :=
      RangingRun.capture_last htrips _ _ _
    have hspread : run.spread = spread :=
      RangingRun.spread_of_four (by rw [hrunEq]) ha hb hc hmr.2.2.2.1
    have hjudge : exec (.uplinkFrameArrival l f) s = .next (if r.jitter < spread then u.endFailed l run .jitter else u.endOk l run) := by
      rw [hexec, State.takeEcho_of_match (by rw [hrun]; exact hr) ((hmatch r).mpr hmr), if_pos (by rw [hm3]; rfl), hm3, State.judge,
        ← hspread]
      rfl
    have hid : r.runId = runId := hmr.1
    have hresult (n : Nat) : u.failedResult l run .jitter n = jitter n := by
      unfold State.failedResult
      rw [hspread, hrunEq, hstate, hrun]
      simp only [hid]
      rfl
    have hok := u.endOk_eq (l := l) run
    have haccept (y : Ranging) : y.accept run old.settings.cable = { y with
        delay := delay, suspect := decide (x < 0), turn := turn.toNat, latency := latency.toNat, path := path, valid := true, failures := 0 } := by
      have hx : rangeX run.captured.sum (run.turn3.getD 0) run.asymmetry = x := by
        rw [hrunEq]
        show ((([a, b, c, d] : List Nat).sum : Nat) : Int) - 4 * (turn.toNat : Int) + 4 * r.asymmetry = _
        simp only [List.sum_cons, List.sum_nil]
        show _ = (a + b + c + d : Nat) - 4 * (turn.toNat : Int) + 4 * r.asymmetry
        omega
      unfold Ranging.accept
      rw [hx, hrunEq]
      rfl
    have hended (y : Ranging) (h : y = old.rng) : (y.accept run old.settings.cable).runEnded (old.mgr.state == .active) = { y with
        run := none, valid := true, delay := delay, turn := turn.toNat, latency := latency.toNat, path := path
        suspect := decide (x < 0), failures := 0, trackCount := if old.mgr.state = .active then 0 else y.trackCount } := by
      rw [haccept, Ranging.runEnded]
      simp only [beq_iff_eq]
    have hsettled : (u.modRng l (fun y => (y.accept run (u.link l).settings.cable).runEnded ((u.link l).mgr.state == .active))).plusNotice
        (.rangeResult l run.runId run.cause .ok (u.link l).mgr.state run.roundTrips (some run.spread)
          (some ((u.link l).rng.accept run (u.link l).settings.cable).turn) (some ((u.link l).rng.accept run (u.link l).settings.cable).latency)
          (some ((u.link l).rng.accept run (u.link l).settings.cable).delay) (some ((u.link l).rng.accept run (u.link l).settings.cable).path)
          ((u.link l).rng.accept run (u.link l).settings.cable).suspect true 0 none) = settled := by
      refine congr (congrArg State.plusNotice (State.modLink_congr ?_)) ?_
      · rw [hsettings, hstate]
        exact congrArg (fun x : Ranging => ({ u.link l with settings := old.settings, rng := x } : Link)) (hended _ hrun)
      · rw [hsettings, hstate, hspread, haccept, hrunEq]
        simp only [hid]
    have hpath : ((u.link l).rng.accept run (u.link l).settings.cable).path = path := by rw [hsettings, haccept]
    dsimp only at hok
    rw [hsettled, hpath, hrun, hstate, hsettings] at hok
    refine ⟨fun hle hsame => ?_, fun hle hactive hnew => ⟨u.endOk l run, ?_, ?_⟩, fun hlt hinactive => ?_, fun hlt hactive hfew => ?_,
      fun hlt hactive hfailures => ⟨u.endFailed l run .jitter, ?_, ?_⟩⟩
    · rw [hjudge, if_neg (Nat.not_lt.mpr hle), hok, if_pos hsame.symm]
    · rw [hjudge, if_neg (Nat.not_lt.mpr hle)]
    · rw [hok, if_neg (by simp [hactive, hnew])]
      exact State.reEvaluate_reEvaluated settled _ _ _
    · rw [hjudge, if_pos hlt, State.endFailed_of_inactive run (by decide) (by rw [hstate]; exact hinactive), hresult, hrun]
    · rw [hjudge, if_pos hlt, State.endFailed_of_active run (by decide) (by rw [hstate]; exact hactive), hrun, if_neg (by omega),
        State.failureCounted, hresult, hrun]
      rfl
    · rw [hjudge, if_pos hlt]
    · have h := State.endFailed_tornDown run (s := u) (outcome := .jitter) (by decide) (by rw [hstate]; exact hactive)
        (by rw [hrun]; exact hfailures)
      rw [hresult] at h
      refine h.congr ?_ ?_ ?_ ?_ ?_
      · exact (s.plusNotice (jitter 3)).afterGoodFrame_torn l f .fault
      all_goals
        rw [show (u.plusNotice (jitter 3)).link l = u.link l from rfl, hlink]
        rfl

end

end Sys2Proof.Machine
end

section
/-! The tracking marks (R41 to R44). -/

namespace Sys2Proof.Machine

open Sys2Proof

section
variable {s : State} {l : LinkIx}

theorem State.modRng_congr {f f' : Ranging → Ranging} (h : f (s.link l).rng = f' (s.link l).rng) : s.modRng l f = s.modRng l f' :=
  State.modLink_congr (by rw [h])

theorem TrackMarker.admits_iff (x : TrackMarker) (runId : BitVec 8) (now : Seq16) (arrival : Nat) :
    x.admits runId now arrival = true ↔ x.isOpen = true ∧ x.runId = runId ∧ x.block = now ∧ arrival ≤ 65535 := by
  simp [TrackMarker.admits, and_assoc]

theorem State.takeTrackEcho_of_match {x : TrackMarker} {runId : BitVec 8} {turn arrival : Nat} (hx : (s.link l).rng.marker = some x)
    (h : x.admits runId s.period arrival = true) : s.takeTrackEcho l runId turn arrival =
      (s.modRng l (fun r => { r with marker := none })).useEstimate l (estimate arrival turn (s.link l).settings.asymmetry) := by
  unfold State.takeTrackEcho
  rw [hx]
  exact if_pos h

theorem State.takeTrackEcho_of_no_match {runId : BitVec 8} {turn arrival : Nat}
    (h : ∀ x, (s.link l).rng.marker = some x → x.admits runId s.period arrival = false) :
    s.takeTrackEcho l runId turn arrival = s.countUnexpected l := by
  unfold State.takeTrackEcho
  cases hx : (s.link l).rng.marker with
  | none => rfl
  | some x => exact if_neg (by rw [h x hx]; simp)

theorem isInlier_iff (delay d : Nat) : isInlier delay d = true ↔ d ≤ delay + 64 ∧ delay ≤ d + 64 := by
  simp [isInlier]

/-- R43: the path once D has moved a step towards an estimate. -/
def Link.trackedPath (x : Link) (d : Nat) : Nat :=
  if stepToward x.rng.delay d = x.rng.delay then x.rng.path else pathOf (stepToward x.rng.delay d) x.rng.latency x.settings.cable

/-- R43: a link's ranging fields once an inlier has been used. -/
def State.tracked (s : State) (l : LinkIx) (d : Nat) : State := s.modRng l (fun r => { r with
  outliers := 0, delay := stepToward (s.link l).rng.delay d, path := (s.link l).trackedPath d })

/-- R43: an inlier. -/
theorem State.useEstimate_of_inlier {d : Nat} (h : isInlier (s.link l).rng.delay d = true) : s.useEstimate l d =
    if (s.link l).trackedPath d = (s.link l).rng.path ∨ (s.link l).mgr.state ≠ .active then s.tracked l d
    else (s.tracked l d).reEvaluate (s.link l).settings.group (.path l ((s.link l).trackedPath d)) [] := by
  unfold State.useEstimate State.tracked Link.trackedPath
  dsimp only
  rw [if_pos h]
  by_cases hstep : stepToward (s.link l).rng.delay d = (s.link l).rng.delay
  · rw [if_pos hstep, if_pos hstep, if_pos (Or.inl rfl)]
    exact State.modLink_congr rfl
  · have hmoved : (s.modRng l (fun r => { r with outliers := 0, delay := stepToward r.delay d })).modRng l
        (fun y => { y with path := pathOf y.delay y.latency (s.link l).settings.cable }) = s.modRng l (fun r => { r with
          outliers := 0, delay := stepToward (s.link l).rng.delay d
          path := pathOf (stepToward (s.link l).rng.delay d) (s.link l).rng.latency (s.link l).settings.cable }) :=
      (State.modLink_modLink ..).trans (State.modLink_congr rfl)
    rw [if_neg hstep, if_neg hstep, hmoved]
    have hlink : (s.modRng l (fun r => { r with
        outliers := 0, delay := stepToward (s.link l).rng.delay d
        path := pathOf (stepToward (s.link l).rng.delay d) (s.link l).rng.latency (s.link l).settings.cable })).link l = _ :=
      State.modLink_link_same ..
    unfold State.reportPath
    rw [hlink]
    dsimp only
    by_cases hpath : pathOf (stepToward (s.link l).rng.delay d) (s.link l).rng.latency (s.link l).settings.cable = (s.link l).rng.path
    · rw [if_pos hpath, if_pos (Or.inl hpath)]
    · rw [if_neg hpath]
      by_cases hactive : (s.link l).mgr.state = .active
      · rw [if_pos hactive, if_neg (by simp [hpath, hactive])]
      · rw [if_neg hactive, if_pos (Or.inr hactive)]

theorem State.useEstimate_of_outlier {d : Nat} (h : isInlier (s.link l).rng.delay d = false) : s.useEstimate l d =
    if 3 ≤ (s.link l).rng.outliers + 1 then s.startRun l .tracking else s.modRng l (fun r => { r with outliers := r.outliers + 1 }) := by
  unfold State.useEstimate
  dsimp only
  rw [if_neg (by rw [h]; simp)]

theorem Ranging.settleMarker_eq (r : Ranging) : r.settleMarker = { r with
    marker := none
    missingEchoes := if (∃ y, r.marker = some y ∧ y.isOpen = false) then bump16 r.missingEchoes else r.missingEchoes } := by
  unfold Ranging.settleMarker
  cases hm : r.marker with
  | none =>
    rw [if_neg (by simp)]
    conv_lhs => rw [show r = { r with marker := none } by rw [← hm]]
  | some x => cases hx : x.isOpen <;> simp [hx]

/-- R41: the mark placed. -/
theorem State.placeMark_eq : s.placeMark l = s.modLink l (fun x => { x with
    mgr := { x.mgr with
      markNext := if s.time.blockOwed then some (.mark x.rng.runCounter .track) else x.mgr.markNext
      frame := if s.time.blockOwed then x.mgr.frame
        else x.mgr.frame.map (fun f => { f with messages := .mark x.rng.runCounter .track :: f.messages }) }
    rng := { x.rng with
      trackCount := 0
      marker := some { runId := x.rng.runCounter, block := s.time.block, isOpen := true }
      missingEchoes := if (∃ y, x.rng.marker = some y ∧ y.isOpen = false) then bump16 x.rng.missingEchoes
        else x.rng.missingEchoes } }) := by
  refine State.modLink_congr ?_
  dsimp only
  rw [Ranging.settleMarker_eq]
  unfold Manager.placeTrackMark
  cases s.time.blockOwed <;> rfl

/-- Settles O33. -/
theorem trackingMarksOpenAndClose : Obligations.TrackingMarksOpenAndClose := by
  intro s l hreset due
  have hevent (s : State) : exec (.trackingMark l) s = s.running (s.boundaryEvent (fun t => t.markDue l) (fun t => t.trackingMark l)) := rfl
  have hiff (u : State) : u.markDue l = true ↔ due u := u.markDue_iff l
  have hnot (u : State) (h : ¬ due u) : u.markDue l = false := by
    rw [← Bool.not_eq_true, hiff]
    exact h
  refine ⟨fun hdue => ?_, fun hno => ?_, fun y hy => ?_, ?_⟩
  · rw [event_of_due hevent hreset ((hiff s).mpr hdue), State.trackingMark]
    obtain ⟨hactive, hrun, hcount⟩ := hdue
    by_cases hle : 16 ≤ (s.link l).rng.trackCount
    · rw [if_pos (by simp [State.trackingDue, hactive, hrun, hle]), State.placeMark_eq]
      refine congrArg _ (State.modLink_congr ?_)
      dsimp only
      rw [decide_eq_false (by omega), Bool.or_false]
    · have hfifteen := (hcount.resolve_left hle).1
      rw [if_neg (by simp [State.trackingDue, hle]), State.countAndMark, State.placeMark_eq, State.modRng, State.modLink_modLink]
      refine congrArg _ (State.modLink_congr ?_)
      dsimp only
      rw [decide_eq_true hfifteen, Bool.or_true]
  · obtain ⟨hlater, hnever⟩ := event_of_not_due hevent hreset (hnot s hno)
    exact ⟨fun hopen hdue => hlater hopen ((hiff _).mpr hdue), fun h => hnever (h.imp_right (hnot _))⟩
  · refine (State.running_of_released _ _ hreset).trans (congrArg _ (State.modRng_congr ?_))
    rw [hy]
    rfl
  · intro f runId turn latency hok herr hm hopen u old matching x1 d delay path moved
    have hexec : exec (.uplinkFrameArrival l f) s = .next (u.takeTrackEcho l runId turn.toNat f.arrivalStep) :=
      exec_openMessage hreset hok herr hm hopen
    have hlink : u.link l = _ := State.afterGoodFrame_link_same
    have hrng : (u.link l).rng = old := by rw [hlink]
    have hstate : (u.link l).mgr.state = (s.link l).mgr.state := by rw [hlink]
    have hsettings : (u.link l).settings = (s.link l).settings := by rw [hlink]
    have hmatch (y : TrackMarker) : y.admits runId u.period f.arrivalStep = true ↔ matching y := y.admits_iff ..
    refine ⟨fun hnone => ?_, fun y hy hmatching => ?_⟩
    · rw [hexec, State.takeTrackEcho_of_no_match fun y hy => ?_]
      · rfl
      · rw [← Bool.not_eq_true, hmatch]
        exact hnone y (by rw [← hrng]; exact hy)
    · let v := u.modRng l (fun r => { r with marker := none })
      have hv : v.link l = { u.link l with rng := { old with marker := none } } := by
        rw [show v.link l = _ from State.modLink_link_same .., hrng]
      have hd : estimate f.arrivalStep turn.toNat (u.link l).settings.asymmetry = d := by
        rw [hsettings]
        rfl
      rw [hexec, State.takeTrackEcho_of_match (by rw [hrng]; exact hy) ((hmatch y).mpr hmatching), hd]
      have hdelay : (v.link l).rng.delay = old.delay := by rw [hv]
      have hpath : (v.link l).trackedPath d = path := by
        rw [Link.trackedPath, hv]
        show (if delay = old.delay then old.path else pathOf delay old.latency (u.link l).settings.cable) = _
        rw [hsettings]
        rfl
      have hmoved : v.tracked l d = moved := by
        rw [State.tracked, hpath, hdelay]
        exact (State.modLink_modLink ..).trans (State.modLink_congr rfl)
      have hin (h1 : d ≤ old.delay + 64) (h2 : old.delay ≤ d + 64) : v.useEstimate l d =
          if path = old.path ∨ (s.link l).mgr.state ≠ .active then moved
          else moved.reEvaluate (s.link l).settings.group (.path l path) [] := by
        rw [State.useEstimate_of_inlier (by rw [hdelay]; exact (isInlier_iff _ _).mpr ⟨h1, h2⟩), hmoved, hpath, hv, ← hstate, ← hsettings]
      have hout (h : old.delay + 64 < d ∨ d + 64 < old.delay) : v.useEstimate l d = if 3 ≤ old.outliers + 1 then v.startRun l .tracking
          else v.modRng l (fun r => { r with outliers := r.outliers + 1 }) := by
        rw [State.useEstimate_of_outlier, hv]
        rw [hdelay, ← Bool.not_eq_true, isInlier_iff]
        omega
      refine ⟨fun h1 h2 hsame => ?_, fun h1 h2 hactive hnew => ⟨_, rfl, ?_⟩, fun h hfew => ?_, fun h hthird => ?_⟩
      · rw [hin h1 h2, if_pos hsame.symm]
      · rw [hin h1 h2, if_neg (by simp [hnew, hactive])]
        exact State.reEvaluate_reEvaluated moved _ _ _
      · rw [hout h, if_neg (by omega)]
        exact congrArg _ ((State.modLink_modLink ..).trans (State.modLink_congr rfl))
      · rw [hout h, if_pos (by omega), State.startRun, hv]
        exact congrArg _ ((State.modLink_modLink ..).trans (State.modLink_congr rfl))

end

end Sys2Proof.Machine
end

section
/-! The completion of requests (R19, R21, R22, R95 to R97) and the control messages of a frame (R17, R22, R25). -/

namespace Sys2Proof.Machine

open Sys2Proof

/-! ## Freed tags go to the pending queue (R19) -/

/-- R19: one tag, if it is free, takes the head of the pending queue. -/
def Manager.giveIfFree (m : Manager) (g : Tag) : Manager :=
  if m.outstanding[g].isNone then
    match m.pendingQueue with
    | [] => m
    | r :: rest => { m with pendingQueue := rest }.giveTag g r
  else m

theorem Manager.giveFreedTags_eq_foldl (m : Manager) : m.giveFreedTags = allTags.foldl Manager.giveIfFree m := rfl

/-- R19: what a tag holds once requests have been given to the tags they are paired with. -/
def heldWith (held : Vector (Option Outstanding) 4) (given : List (Tag × Request)) (g : Tag) : Option Outstanding :=
  match given.find? (fun x => x.1 == g) with
  | some x => some { request := x.2, sentIn := none }
  | none => held[g]

/-- R19: requests given to the tags they are paired with. -/
def Manager.withGiven (m : Manager) (given : List (Tag × Request)) (rest : List Request) : Manager :=
  { m with
    outstanding := Vector.ofFn (heldWith m.outstanding given)
    txQueue := m.txQueue ++ given.map (fun x => .request x.1 x.2)
    pendingQueue := rest }

theorem set_held (held : Vector (Option Outstanding) 4) (g g' : Tag) (o : Option Outstanding) :
    (held.set g o)[g'] = if g = g' then o else held[g'] := by
  simp [Vector.getElem_set, Fin.ext_iff]

theorem ofFn_heldWith_nil (held : Vector (Option Outstanding) 4) : Vector.ofFn (heldWith held []) = held := by
  ext i hi
  simp [heldWith]

theorem heldWith_set {held : Vector (Option Outstanding) 4} {g : Tag} {r : Request} {given : List (Tag × Request)}
    (hfresh : ∀ x ∈ given, x.1 ≠ g) :
    heldWith (held.set g (some { request := r, sentIn := none })) given = heldWith held ((g, r) :: given) := by
  funext g'
  unfold heldWith
  rw [set_held, List.find?_cons]
  by_cases hg : g = g'
  · subst hg
    have hnone : given.find? (fun x => x.1 == g) = none := List.find?_eq_none.mpr fun x hx => by simpa using hfresh x hx
    rw [hnone, if_pos rfl, beq_self_eq_true]
  · rw [if_neg hg, beq_false_of_ne hg]

theorem Manager.withGiven_nil (m : Manager) : m.withGiven [] m.pendingQueue = m := by
  simp [Manager.withGiven, ofFn_heldWith_nil]

theorem Manager.withGiven_cons {m : Manager} {g : Tag} {r : Request} {given : List (Tag × Request)} {rest waiting : List Request}
    (hfresh : ∀ x ∈ given, x.1 ≠ g) :
    ({ m with pendingQueue := waiting }.giveTag g r).withGiven given rest = m.withGiven ((g, r) :: given) rest := by
  simp [Manager.withGiven, Manager.giveTag, heldWith_set hfresh]

/-- R19: a request given to a tag that has just been freed. -/
theorem Manager.withGiven_freed (m : Manager) (g : Tag) (r : Request) (rest : List Request) :
    { m with outstanding := m.outstanding.set g none }.withGiven [(g, r)] rest = { m with
      outstanding := m.outstanding.set g (some { request := r, sentIn := none })
      txQueue := m.txQueue ++ [.request g r]
      pendingQueue := rest } := by
  have hheld : Vector.ofFn (heldWith (m.outstanding.set g none) [(g, r)]) = m.outstanding.set g (some { request := r, sentIn := none }) := by
    rw [← heldWith_set (by simp), Vector.set_set, ofFn_heldWith_nil]
  simp [Manager.withGiven, hheld]

/-- R19: the free tags of a list, lowest first, take the requests of the pending queue in its order. -/
theorem Manager.foldl_giveIfFree {gs : List Tag} (hgs : gs.Nodup) (m : Manager) : gs.foldl Manager.giveIfFree m =
    m.withGiven ((gs.filter (fun g => m.outstanding[g].isNone)).zip m.pendingQueue)
      (m.pendingQueue.drop (gs.filter (fun g => m.outstanding[g].isNone)).length) := by
  induction gs generalizing m with
  | nil => exact m.withGiven_nil.symm
  | cons g gs ih =>
    obtain ⟨hg, hgs⟩ := List.nodup_cons.mp hgs
    rw [List.foldl_cons]
    cases hfree : m.outstanding[g].isNone with
    | false =>
      rw [show m.giveIfFree g = m from if_neg (ne_true_of_eq_false hfree), ih hgs,
        List.filter_cons_of_neg (p := fun g : Tag => m.outstanding[g].isNone) (ne_true_of_eq_false hfree)]
    | true =>
      rw [List.filter_cons_of_pos (p := fun g : Tag => m.outstanding[g].isNone) hfree]
      cases hq : m.pendingQueue with
      | nil =>
        have hstep : m.giveIfFree g = m := (if_pos hfree).trans (by rw [hq])
        rw [hstep, ih hgs, hq]
        simp
      | cons r rest =>
        have hstep : m.giveIfFree g = { m with pendingQueue := rest }.giveTag g r := (if_pos hfree).trans (by rw [hq])
        have hfilter : gs.filter (fun g' => ({ m with pendingQueue := rest }.giveTag g r).outstanding[g'].isNone) =
            gs.filter (fun g' => m.outstanding[g'].isNone) := by
          refine List.filter_congr fun g' hg' => congrArg Option.isNone ?_
          exact (set_held ..).trans (if_neg fun (e : g = g') => hg (e ▸ hg'))
        rw [hstep, ih hgs, hfilter, Manager.withGiven_cons]
        · rfl
        · intro x hx e
          subst e
          exact hg (List.mem_of_mem_filter (List.of_mem_zip hx).1)

theorem allTags_nodup : allTags.Nodup := by decide

theorem Manager.giveFreedTags_eq (m : Manager) : m.giveFreedTags =
    m.withGiven ((allTags.filter (fun g => m.outstanding[g].isNone)).zip m.pendingQueue)
      (m.pendingQueue.drop (allTags.filter (fun g => m.outstanding[g].isNone)).length) :=
  Manager.foldl_giveIfFree allTags_nodup m

theorem Manager.giveFreedTags_of_empty {m : Manager} (h : m.pendingQueue = []) : m.giveFreedTags = m := by
  have hnil := m.withGiven_nil
  rw [h] at hnil
  rw [m.giveFreedTags_eq, h, List.zip_nil_right, List.drop_nil, hnil]

theorem Manager.giveFreedTags_of_held {m : Manager} (h : ∀ g : Tag, m.outstanding[g] ≠ none) : m.giveFreedTags = m := by
  have hnone : allTags.filter (fun g => m.outstanding[g].isNone) = [] := List.filter_eq_nil_iff.mpr fun g _ => by simpa using h g
  rw [m.giveFreedTags_eq, hnone]
  exact m.withGiven_nil

/-- R19: with tag g freed and no lower or higher tag free, the head of the pending queue takes it. -/
theorem Manager.giveFreedTags_freed {m : Manager} {g : Tag} (h : m.pendingQueue = [] ∨ ∀ g' : Tag, g' ≠ g → m.outstanding[g'] ≠ none) :
    { m with outstanding := m.outstanding.set g none }.giveFreedTags = m.tagPassedOn g := by
  unfold Manager.tagPassedOn
  cases hq : m.pendingQueue with
  | nil => exact Manager.giveFreedTags_of_empty rfl
  | cons r rest =>
    have hheld := h.resolve_left (by rw [hq]; exact List.cons_ne_nil _ _)
    have hfree : allTags.filter (fun g' => (m.outstanding.set g none)[g'].isNone) = [g] := by
      have hcongr : allTags.filter (fun g' => (m.outstanding.set g none)[g'].isNone) = allTags.filter (fun g' => g' == g) := by
        refine List.filter_congr fun g' _ => ?_
        rw [set_held]
        by_cases he : g = g'
        · rw [if_pos he, he, beq_self_eq_true]
          rfl
        · rw [if_neg he, beq_false_of_ne (Ne.symm he)]
          exact Option.isNone_eq_false_iff.mpr (Option.isSome_iff_ne_none.mpr (hheld g' (Ne.symm he)))
      have hself : ∀ g : Tag, allTags.filter (fun g' => g' == g) = [g] := by decide
      rw [hcongr, hself]
    rw [Manager.giveFreedTags_eq]
    dsimp only
    rw [hfree]
    exact ({ m with pendingQueue := r :: rest } : Manager).withGiven_freed g r rest

/-! ## Completions (R22, R23, R95 to R97) -/

section
variable {s : State} {l : LinkIx} {g : Tag}

/-- R19: the tag of a completed request freed and given on. -/
theorem State.giveFreed (hnext : s.tagIsNext l g) : (s.freeTag l g).modMgr l Manager.giveFreedTags = s.modMgr l (fun m => m.tagPassedOn g) := by
  unfold State.freeTag State.modMgr
  rw [State.modLink_modLink]
  refine State.modLink_congr ?_
  dsimp only
  rw [Manager.giveFreedTags_freed hnext]

theorem State.giveFreed_plusNotice (hnext : s.tagIsNext l g) (n : Notice) :
    ((s.freeTag l g).plusNotice n).modMgr l Manager.giveFreedTags = (s.modMgr l (fun m => m.tagPassedOn g)).plusNotice n :=
  congrArg (fun t : State => t.plusNotice n) (State.giveFreed hnext)

theorem Manager.tagPassedOn_of_empty {m : Manager} (h : m.pendingQueue = []) :
    m.tagPassedOn g = { m with outstanding := m.outstanding.set g none } := by
  unfold Manager.tagPassedOn
  rw [h]

theorem Manager.tagPassedOn_of_cons {m : Manager} {r : Request} {rest : List Request} (h : m.pendingQueue = r :: rest) :
    m.tagPassedOn g = { m with
      outstanding := m.outstanding.set g (some { request := r, sentIn := none })
      txQueue := m.txQueue ++ [.request g r]
      pendingQueue := rest } := by
  unfold Manager.tagPassedOn
  rw [h]

/-- R95: the completion of a PLAN, and the tag it frees given on. -/
def State.planEnded (s : State) (l : LinkIx) (g : Tag) (n : Nat) (rep : PlanReport) : State :=
  ((s.freeTag l g).planCompleted l n rep).modMgr l Manager.giveFreedTags

section
variable {n : Nat} {rep : PlanReport}

theorem State.modMgr_of_fixed {f : Manager → Manager} (h : f (s.link l).mgr = (s.link l).mgr) : s.modMgr l f = s := by
  refine (State.modLink_congr (f' := fun x => x) (by rw [h])).trans ?_
  simp [State.modLink]

theorem State.freeTag_link : (s.freeTag l g).link l =
    { s.link l with mgr := { (s.link l).mgr with outstanding := (s.link l).mgr.outstanding.set g none } } := State.modLink_link_same ..

theorem State.planCompleted_of_current {x : Exchange} (hx : (s.link l).exchange = some x) (hn : x.current = some n) :
    s.planCompleted l n rep = match x.purpose, rep with
      | _, .accept => s.setExchange l (some x.accept)
      | .switch, _ => s.setExchange l (some { x with standing := .failed })
      | .join, _ => if 3 ≤ x.attempts + 1 then s.fault l .planFail else s.issueJoin l (x.attempts + 1) := by
  unfold State.planCompleted
  rw [hx]
  exact if_neg (not_not_intro hn)

/-- R95, R97: the completion of an exchange's current PLAN that settles the exchange. -/
theorem State.planEnded_of_settled {x : Exchange} (hx : (s.link l).exchange = some x) (hn : x.current = some n)
    (h : rep = .accept ∨ x.purpose = .switch) (hnext : s.tagIsNext l g) : s.planEnded l g n rep = s.modLink l (fun y => { y with
      mgr := y.mgr.tagPassedOn g
      exchange := some { x with standing := if rep = .accept then .accepted else .failed } }) := by
  have hcompleted : (s.freeTag l g).planCompleted l n rep =
      (s.freeTag l g).setExchange l (some { x with standing := if rep = .accept then .accepted else .failed }) := by
    rw [State.planCompleted_of_current (x := x) (by rw [State.freeTag_link]; exact hx) hn]
    cases rep with
    | accept =>
      obtain ⟨purpose, target, m, current, standing, attempts⟩ := x
      cases purpose <;> rfl
    | refuse => rw [h.resolve_left (by decide)]; rfl
    | timeout => rw [h.resolve_left (by decide)]; rfl
  unfold State.planEnded
  rw [hcompleted]
  refine (congrArg (State.modMgr · l _) (State.modLink_modLink ..)).trans ((State.modLink_modLink ..).trans (State.modLink_congr ?_))
  dsimp only
  rw [← Manager.giveFreedTags_freed hnext]

/-- R97: a PLAN that no exchange waits for only frees its tag. -/
theorem State.planEnded_of_superseded (h : (s.link l).exchange = none ∨ ∃ x, (s.link l).exchange = some x ∧ x.current ≠ some n)
    (hnext : s.tagIsNext l g) : s.planEnded l g n rep = s.modMgr l (fun m => m.tagPassedOn g) := by
  have hcompleted : (s.freeTag l g).planCompleted l n rep = s.freeTag l g := by
    unfold State.planCompleted
    rw [State.freeTag_link]
    obtain hx | ⟨x, hx, hn⟩ := h
    · dsimp only
      rw [hx]
    · dsimp only
      rw [hx]
      exact if_pos hn
  unfold State.planEnded
  rw [hcompleted, State.giveFreed hnext]

/-- R96: a refused or unanswered PLAN of a JOIN exchange is renewed. -/
theorem State.planEnded_of_retried {x : Exchange} {target : BitVec 8} {m2 : Seq16} {entries : List Entry} {g2 : Tag}
    (hx : (s.link l).exchange = some x) (hn : x.current = some n) (hrep : rep ≠ .accept) (hjoin : x.purpose = .join)
    (hfew : x.attempts < 2) (hoffers : s.offers (s.link l).settings.zone target m2 entries)
    (hfree : g2 = g ∨ (s.link l).mgr.outstanding[g2] = none)
    (hlow : ∀ g3 : Tag, g3 < g2 → g3 ≠ g ∧ (s.link l).mgr.outstanding[g3] ≠ none) (hnext : s.tagIsNext l g) :
    s.planEnded l g n rep = s.joinRetried l g g2 target m2 entries (x.attempts + 1) := by
  have hlink : (s.freeTag l g).link l = _ := State.freeTag_link
  have htag : ((s.freeTag l g).link l).mgr.freeTag = some g2 := by
    rw [hlink]
    refine Manager.freeTag_of_free ?_ fun g3 hg3 => ?_
    · refine (set_held ..).trans ?_
      by_cases he : g = g2
      · exact if_pos he
      · exact (if_neg he).trans (hfree.resolve_left (Ne.symm he))
    · obtain ⟨hne, hheld⟩ := hlow g3 hg3
      exact fun e => hheld (((set_held ..).trans (if_neg (Ne.symm hne))).symm.trans e)
  have hcompleted : (s.freeTag l g).planCompleted l n rep = s.joinRetried l g g2 target m2 entries (x.attempts + 1) := by
    rw [State.planCompleted_of_current (x := x) (by rw [hlink]; exact hx) hn, hjoin]
    have hissue : (s.freeTag l g).issueJoin l (x.attempts + 1) = s.joinRetried l g g2 target m2 entries (x.attempts + 1) := by
      rw [State.issueJoin_of_offers (x.attempts + 1) (by rw [hlink]; exact hoffers), State.issuePlan_eq]
      have hdrops : ((s.freeTag l g).link l).mgr.planDrops = none := by
        unfold Manager.planDrops
        rw [htag]
        rfl
      rw [hdrops]
      rw [hlink] at htag
      rw [show queryDones l .aborted (none : Option Request).toList = [] from rfl, State.plusNotices_nil]
      unfold State.freeTag State.modMgr
      rw [State.modLink_modLink]
      refine State.modLink_congr ?_
      exact Link.withPlan_of_free _ _ htag
    cases rep with
    | accept => exact absurd rfl hrep
    | refuse => exact (if_neg (by omega)).trans hissue
    | timeout => exact (if_neg (by omega)).trans hissue
  unfold State.planEnded
  rw [hcompleted]
  have hgiven : ((s.joinRetried l g g2 target m2 entries (x.attempts + 1)).link l).mgr.giveFreedTags =
      ((s.joinRetried l g g2 target m2 entries (x.attempts + 1)).link l).mgr := by
    rw [State.joinRetried, State.modLink_link_same]
    obtain hnone | hheld := hnext
    · exact Manager.giveFreedTags_of_empty hnone
    · refine Manager.giveFreedTags_of_held fun g' => ?_
      have hg2 : g2 = g := hfree.elim id fun h => by_contra fun hne => hheld g2 hne h
      rw [set_held, set_held]
      by_cases he : g2 = g'
      · rw [if_pos he]
        exact Option.some_ne_none _
      · rw [if_neg he, if_neg (hg2 ▸ he)]
        exact hheld g' fun e => he (hg2.trans e.symm)
  exact State.modMgr_of_fixed hgiven

/-- R15: a PLAN posts nothing when its link is torn down. -/
theorem queryDones_heldRequests_freed {outcome : QueryOutcome} {m : Manager} {n : Nat} {sf : Seq16} {items : List PlanItem} {sent : Option Seq16}
    (h : m.outstanding[g] = some { request := .plan n sf items, sentIn := sent }) :
    queryDones l outcome { m with outstanding := m.outstanding.set g none }.heldRequests = queryDones l outcome m.heldRequests := by
  unfold queryDones Manager.heldRequests
  rw [List.filterMap_append, List.filterMap_append, List.filterMap_filterMap, List.filterMap_filterMap]
  refine congrArg (· ++ _) (List.filterMap_congr fun g' _ => ?_)
  rw [set_held]
  by_cases he : g = g'
  · subst he
    rw [if_pos rfl, h]
    rfl
  · rw [if_neg he]

/-- R96: the third failed attempt of a JOIN exchange tears its link down. -/
theorem State.planEnded_of_third {x : Exchange} {sf : Seq16} {items : List PlanItem} {b : Seq16}
    (hg : (s.link l).mgr.outstanding[g] = some { request := .plan n sf items, sentIn := some b })
    (hx : (s.link l).exchange = some x) (hn : x.current = some n) (hrep : rep ≠ .accept) (hjoin : x.purpose = .join)
    (hthird : 2 ≤ x.attempts) (hstate : (s.link l).mgr.state = .joining) :
    s.planEnded l g n rep = (s.freeTag l g).fault l .planFail ∧
    TornDown s ((s.freeTag l g).fault l .planFail) l .fault (.fault .planFail) := by
  have hlink : (s.freeTag l g).link l = _ := State.freeTag_link
  have hdown : (s.freeTag l g).fault l .planFail = ((s.freeTag l g).torn l .fault).plusNotices
      (.linkState l ((s.freeTag l g).link l).mgr.state .fault (.fault .planFail) ((s.freeTag l g).link l).mgr.wires none ::
        queryDones l .linkDown ((s.freeTag l g).link l).mgr.heldRequests) := by
    refine (State.takeDown_eq ..).trans (if_neg ?_)
    rw [hlink, hstate]
    decide
  have hcompleted : (s.freeTag l g).planCompleted l n rep = (s.freeTag l g).fault l .planFail := by
    rw [State.planCompleted_of_current (x := x) (by rw [hlink]; exact hx) hn, hjoin]
    cases rep with
    | accept => exact absurd rfl hrep
    | refuse => exact if_pos (by omega)
    | timeout => exact if_pos (by omega)
  refine ⟨?_, ?_⟩
  · unfold State.planEnded
    rw [hcompleted]
    refine State.modMgr_of_fixed (Manager.giveFreedTags_of_empty ?_)
    rw [hdown, State.plusNotices_link, State.torn, State.modLink_link_same]
  · refine (State.takeDown_tornDown _ l .fault _).congr ?_ ?_ ?_ ?_ ?_
    · unfold State.torn State.freeTag State.modMgr
      rw [State.modLink_modLink]
    · rw [hlink]
    · rw [hlink]
    · rw [hlink]
    · rw [hlink]
      exact queryDones_heldRequests_freed hg

end

end

end Sys2Proof.Machine
end

section
/-! The control messages of an arriving frame by their kind (R17, R22, R25, R95 to R97). -/

namespace Sys2Proof.Machine

open Sys2Proof

section
variable {s : State} {l : LinkIx} {g : Tag}

theorem State.takeReply_of_sent {r : Request} {b : Seq16} (h : (s.link l).mgr.outstanding[g] = some { request := r, sentIn := some b })
    (status : ReplyStatus) (data : BitVec 32) :
    s.takeReply l g status data = ((s.freeTag l g).completeReply l r status data).modMgr l Manager.giveFreedTags := by
  unfold State.takeReply
  rw [h]

theorem State.takeReply_of_unsent
    (h : (s.link l).mgr.outstanding[g] = none ∨ ∃ r, (s.link l).mgr.outstanding[g] = some { request := r, sentIn := none })
    (status : ReplyStatus) (data : BitVec 32) : s.takeReply l g status data = s.countUnexpected l := by
  unfold State.takeReply
  obtain h | ⟨r, h⟩ := h <;> rw [h]

/-- R22, R23: the reply to a query. -/
theorem State.takeReply_query {item : Item} {orderTag : BitVec 16} {b : Seq16}
    (h : (s.link l).mgr.outstanding[g] = some { request := .query item orderTag, sentIn := some b }) (hnext : s.tagIsNext l g)
    (status : ReplyStatus) (data : BitVec 32) : s.takeReply l g status data = (s.modMgr l (fun m => m.tagPassedOn g)).plusNotice
      (if status = .data then .queryDone l item .data orderTag data else .queryDone l item .rejected orderTag 0) := by
  rw [State.takeReply_of_sent h, ← State.giveFreed_plusNotice hnext]
  cases status <;> rfl

/-- R22, R95: the reply to a PLAN. -/
theorem State.takeReply_plan {n : Nat} {m : Seq16} {items : List PlanItem} {b : Seq16}
    (h : (s.link l).mgr.outstanding[g] = some { request := .plan n m items, sentIn := some b }) (status : ReplyStatus) (data : BitVec 32) :
    s.takeReply l g status data = s.planEnded l g n (if status = .accept then .accept else .refuse) :=
  State.takeReply_of_sent h status data

/-- R25: an alarm message by the name of its wire. -/
theorem State.takeOpenMessage_alarm (w : Wire) (on : Bool) (arrival : Nat) :
    s.takeOpenMessage l arrival (if on then .alarmOn w else .alarmOff w) = s.takeAlarm l w on := by
  cases on <;> rfl

theorem wireIx_of_mem {w : Wire} {i : Fin 4} (h : (w, i) ∈ ([(.power, 0), (.heat, 1), (.feeder, 2), (.door, 3)] : List (Wire × Fin 4))) :
    wireIx w = i := by
  revert h
  cases w <;> revert i <;> decide

theorem TornDown.of_afterGoodFrame {t : State} {f : UplinkFrame} {new : LinkState} {cause : LinkCause}
    (h : TornDown (s.afterGoodFrame l f) t l new cause) : TornDown s t l new cause := by
  have hlink := s.afterGoodFrame_link_same (l := l) (f := f)
  exact h.congr (s.afterGoodFrame_torn l f new) (by rw [hlink]) (by rw [hlink]) (by rw [hlink]) (by rw [hlink]; rfl)

end

/-- Settles O30. -/
theorem messagesAreTakenByKind : Obligations.MessagesAreTakenByKind := by
  intro s l f hreset hok herr hopen u
  have hlink : u.link l = _ := State.afterGoodFrame_link_same
  have hexec (m : RxMsg) (hm : f.messages = [m]) : exec (.uplinkFrameArrival l f) s = .next (u.takeOpenMessage l f.arrivalStep m) :=
    exec_openMessage hreset hok herr hm hopen
  have hout (g : Tag) : (u.link l).mgr.outstanding[g] = (s.link l).mgr.outstanding[g] := by rw [hlink]
  have hpending : (u.link l).mgr.pendingQueue = (s.link l).mgr.pendingQueue := by rw [hlink]
  have hexchange : (u.link l).exchange = (s.link l).exchange := by rw [hlink]
  refine ⟨fun hm => ?_, fun w i on hw hm => ?_, fun g status data hm => ⟨fun hunsent => ?_, ?_,
    fun n m items b hplan hnext => ?_⟩, fun hm => hexec _ hm⟩
  · show execUplinkFrameArrival l f s = _
    rw [execUplinkFrameArrival, if_pos hok, State.running_of_released _ _ hreset, State.takeFrame, hm, if_neg (by simp [herr]),
      State.takeGood_takeSamples (LinkState.controlOpen_of_mem hopen)]
    rfl
  · have hwire := wireIx_of_mem hw
    subst hwire
    have hwires : (u.link l).mgr.wires[wireIx w] = (s.link l).mgr.wires[wireIx w] := by rw [hlink]
    rw [hexec _ hm, State.takeOpenMessage_alarm, State.takeAlarm]
    exact ⟨fun h => congrArg _ (if_neg (by rw [hwires]; exact h)), fun h => congrArg _ (if_pos (by rw [hwires]; exact h))⟩
  · rw [hexec _ hm]
    refine congrArg _ (State.takeReply_of_unsent ?_ status data)
    rw [hout]
    exact hunsent
  · intro item orderTag b hquery n
    have hreply (hnext : s.tagIsNext l g) :
        exec (.uplinkFrameArrival l f) s = .next ((u.modMgr l (fun m => m.tagPassedOn g)).plusNotice n) := by
      rw [hexec _ hm]
      refine congrArg _ (State.takeReply_query (b := b) (by rw [hout]; exact hquery) ?_ status data)
      unfold State.tagIsNext
      rw [hlink]
      exact hnext
    refine ⟨fun hnone => ?_, fun r rest hcons hheld => ?_⟩
    · rw [hreply (Or.inl hnone)]
      exact congrArg (fun t : State => Host.Outcome.next (t.plusNotice n))
        (State.modMgr_congr (Manager.tagPassedOn_of_empty (by rw [hpending]; exact hnone)))
    · rw [hreply (Or.inr hheld)]
      exact congrArg (fun t : State => Host.Outcome.next (t.plusNotice n))
        (State.modMgr_congr (Manager.tagPassedOn_of_cons (by rw [hpending]; exact hcons)))
  · have hnext' : u.tagIsNext l g := by
      unfold State.tagIsNext
      rw [hlink]
      exact hnext
    have hplan' : (u.link l).mgr.outstanding[g] = some { request := .plan n m items, sentIn := some b } := by rw [hout]; exact hplan
    have hreply : exec (.uplinkFrameArrival l f) s = .next (u.planEnded l g n (if status = .accept then .accept else .refuse)) := by
      rw [hexec _ hm]
      exact congrArg _ (State.takeReply_plan hplan' status data)
    have hreport : (if status = .accept then PlanReport.accept else .refuse) = .accept ↔ status = .accept := by
      by_cases h : status = .accept <;> simp [h]
    refine ⟨fun x hx hn hsettled => ?_, fun x target m2 entries g2 hx hn hrefused hjoin hfew hoffers hfree hlow => ?_,
      fun x hx hn hrefused hjoin hthird hjoining => ?_, fun hsuperseded => ?_⟩
    · rw [hreply, State.planEnded_of_settled (by rw [hexchange]; exact hx) hn (hsettled.imp_left hreport.mpr) hnext']
      simp only [hreport]
    · rw [hreply]
      refine congrArg _ (State.planEnded_of_retried (by rw [hexchange]; exact hx) hn (fun h => hrefused (hreport.mp h)) hjoin hfew ?_ ?_ ?_ hnext')
      · rw [hlink]
        exact hoffers
      · rw [hout]
        exact hfree
      · intro g3 hg3
        rw [hout]
        exact hlow g3 hg3
    · obtain ⟨heq, htorn⟩ := State.planEnded_of_third (rep := if status = .accept then .accept else .refuse) hplan'
        (by rw [hexchange]; exact hx) hn (fun h => hrefused (hreport.mp h)) hjoin hthird (by rw [hlink]; exact hjoining)
      exact ⟨_, hreply.trans (congrArg _ heq), htorn.of_afterGoodFrame⟩
    · rw [hreply, State.planEnded_of_superseded (by rw [hexchange]; exact hsuperseded) hnext']

end Sys2Proof.Machine
end

section
/-! Arriving frames (R7, R12, R13, R17, R138): the HELLO, errored frames, and the messages of a frame one after another. -/

namespace Sys2Proof.Machine

open Sys2Proof

/-! ## What a message leaves of its link's reception -/

/-- R12, R17: from x to y a link closes its control channel, or stands in its state with its errored run and its received history. -/
def Link.StaysOrCloses (x y : Link) : Prop :=
  y.mgr.state.controlOpen = false ∨ (y.mgr.state = x.mgr.state ∧ y.mgr.erroredRun = x.mgr.erroredRun ∧ y.rx = x.rx)

theorem Link.StaysOrCloses.refl (x : Link) : x.StaysOrCloses x := .inr ⟨rfl, rfl, rfl⟩

theorem Link.StaysOrCloses.trans {x y z : Link} (h : x.StaysOrCloses y) (k : y.StaysOrCloses z) : x.StaysOrCloses z := by
  obtain hz | ⟨hstate, hrun, hrx⟩ := k
  · exact .inl hz
  · obtain hy | ⟨hstate', hrun', hrx'⟩ := h
    · exact .inl (by rw [hstate]; exact hy)
    · exact .inr ⟨hstate.trans hstate', hrun.trans hrun', hrx.trans hrx'⟩

/-- R12, R17: link l closes its control channel on the way from s to t, or stands as far as its reception goes. -/
def State.StaysOrCloses (s t : State) (l : LinkIx) : Prop := (s.link l).StaysOrCloses (t.link l)

section
variable {s : State} {l : LinkIx} {g : Tag}

theorem State.StaysOrCloses.trans {t u : State} (h : s.StaysOrCloses t l) (k : t.StaysOrCloses u l) : s.StaysOrCloses u l :=
  Link.StaysOrCloses.trans h k

theorem State.StaysOrCloses.notify {t : State} (h : s.StaysOrCloses t l) (n : Notice) : s.StaysOrCloses (t.notify n) l := h

theorem State.staysOrCloses_modLink {f : Link → Link} (h : (s.link l).StaysOrCloses (f (s.link l))) : s.StaysOrCloses (s.modLink l f) l := by
  unfold State.StaysOrCloses
  rw [State.modLink_link_same]
  exact h

theorem State.staysOrCloses_modRng (f : Ranging → Ranging) : s.StaysOrCloses (s.modRng l f) l :=
  State.staysOrCloses_modLink (.inr ⟨rfl, rfl, rfl⟩)

theorem State.staysOrCloses_modMgr {f : Manager → Manager}
    (h : (f (s.link l).mgr).state = (s.link l).mgr.state ∧ (f (s.link l).mgr).erroredRun = (s.link l).mgr.erroredRun) :
    s.StaysOrCloses (s.modMgr l f) l :=
  State.staysOrCloses_modLink (.inr ⟨h.1, h.2, rfl⟩)

theorem State.staysOrCloses_reEvaluate (g : GroupIx) (cause : AlignCause) (flags : List (LinkIx × Bool)) :
    s.StaysOrCloses (s.reEvaluate g cause flags) l := by
  unfold State.StaysOrCloses
  rw [State.reEvaluate_link_frame]
  exact .inr ⟨rfl, rfl, rfl⟩

theorem State.fault_link_closed (c : FaultCause) : ((s.fault l c).link l).mgr.state = .fault := by
  rw [State.fault, State.takeDown_eq]
  dsimp only
  split
  · rw [State.reEvaluate_link_frame, State.plusNotices_link, State.torn, State.modLink_link_same]
  · rw [State.plusNotices_link, State.torn, State.modLink_link_same]

theorem State.staysOrCloses_fault (c : FaultCause) : s.StaysOrCloses (s.fault l c) l :=
  .inl (by rw [State.fault_link_closed]; rfl)

theorem State.staysOrCloses_reportPath : s.StaysOrCloses (s.reportPath l) l := by
  unfold State.reportPath
  split
  · exact State.staysOrCloses_reEvaluate ..
  · exact .refl _

theorem State.staysOrCloses_endFailed (r : RangingRun) (c : RunOutcome) : s.StaysOrCloses (s.endFailed l r c) l := by
  unfold State.endFailed
  split
  · extract_lets t1 t2
    have h : s.StaysOrCloses t2 l := (State.staysOrCloses_modRng _).notify _
    split
    · exact h.trans (State.staysOrCloses_fault _)
    · exact h
  · exact (State.staysOrCloses_modRng _).notify _

theorem State.staysOrCloses_endOk (r : RangingRun) : s.StaysOrCloses (s.endOk l r) l := by
  unfold State.endOk
  extract_lets p a t1 t2
  have h : s.StaysOrCloses t2 l := (State.staysOrCloses_modRng _).notify _
  split
  · exact h
  · exact h.trans State.staysOrCloses_reportPath

theorem State.staysOrCloses_takeEcho (runId : BitVec 8) (m : Fin 4) (turn latency arrival : Nat) :
    s.StaysOrCloses (s.takeEcho l runId m turn latency arrival) l := by
  unfold State.takeEcho
  split
  · exact State.staysOrCloses_modMgr ⟨rfl, rfl⟩
  · split
    · dsimp only
      split
      · unfold State.judge
        split
        · exact State.staysOrCloses_endFailed ..
        · exact State.staysOrCloses_endOk _
      · exact State.staysOrCloses_modRng _
    · exact State.staysOrCloses_modMgr ⟨rfl, rfl⟩

theorem State.staysOrCloses_useEstimate (d : Nat) : s.StaysOrCloses (s.useEstimate l d) l := by
  unfold State.useEstimate
  extract_lets r t u
  split
  · split
    · exact State.staysOrCloses_modRng _
    · have h : s.StaysOrCloses u l := (State.staysOrCloses_modRng (s := s) (l := l) _).trans (State.staysOrCloses_modRng _)
      split
      · exact h
      · exact h.trans State.staysOrCloses_reportPath
  · split
    · exact State.staysOrCloses_modRng _
    · exact State.staysOrCloses_modRng _

theorem State.staysOrCloses_takeTrackEcho (runId : BitVec 8) (turn arrival : Nat) :
    s.StaysOrCloses (s.takeTrackEcho l runId turn arrival) l := by
  unfold State.takeTrackEcho
  split
  · exact State.staysOrCloses_modMgr ⟨rfl, rfl⟩
  · split
    · exact (State.staysOrCloses_modRng _).trans (State.staysOrCloses_useEstimate _)
    · exact State.staysOrCloses_modMgr ⟨rfl, rfl⟩

theorem State.staysOrCloses_issuePlan (x : Exchange) (plan : List Entry) : s.StaysOrCloses (s.issuePlan l x plan) l := by
  rw [State.issuePlan_eq]
  have hissued (m : Manager) (r : Request) : (m.issued r).state = m.state ∧ (m.issued r).erroredRun = m.erroredRun := by
    unfold Manager.issued
    cases m.freeTag <;> exact ⟨rfl, rfl⟩
  unfold State.StaysOrCloses
  rw [State.plusNotices_link, State.modLink_link_same]
  obtain ⟨hstate, hrun⟩ := hissued (s.link l).mgr (.plan (s.link l).planSerial x.m (s.planItems plan))
  exact .inr ⟨hstate, hrun, rfl⟩

theorem State.staysOrCloses_planCompleted (n : Nat) (rep : PlanReport) : s.StaysOrCloses (s.planCompleted l n rep) l := by
  have hexchange (e : Option Exchange) : s.StaysOrCloses (s.setExchange l e) l := State.staysOrCloses_modLink (.inr ⟨rfl, rfl, rfl⟩)
  unfold State.planCompleted
  split
  · exact .refl _
  · split
    · exact .refl _
    · split
      · exact hexchange _
      · exact hexchange _
      · split
        · exact State.staysOrCloses_fault _
        · exact State.staysOrCloses_issuePlan ..

theorem State.staysOrCloses_queryDone (r : Request) (c : QueryOutcome) (d : BitVec 32) : s.StaysOrCloses (s.queryDone l r c d) l := by
  unfold State.queryDone
  split <;> exact .refl _

theorem Manager.giveFreedTags_state (m : Manager) : m.giveFreedTags.state = m.state ∧ m.giveFreedTags.erroredRun = m.erroredRun := by
  rw [Manager.giveFreedTags_eq]
  exact ⟨rfl, rfl⟩

theorem State.staysOrCloses_takeReply (status : ReplyStatus) (data : BitVec 32) : s.StaysOrCloses (s.takeReply l g status data) l := by
  unfold State.takeReply
  split
  · have hfree : s.StaysOrCloses (s.freeTag l g) l := State.staysOrCloses_modMgr ⟨rfl, rfl⟩
    refine (hfree.trans ?_).trans (State.staysOrCloses_modMgr (Manager.giveFreedTags_state _))
    unfold State.completeReply
    split
    · split <;> exact State.staysOrCloses_queryDone ..
    · exact State.staysOrCloses_planCompleted ..
  · exact State.staysOrCloses_modMgr ⟨rfl, rfl⟩

theorem State.staysOrCloses_takeAlarm (w : Wire) (on : Bool) : s.StaysOrCloses (s.takeAlarm l w on) l := by
  unfold State.takeAlarm
  split
  · exact State.staysOrCloses_modMgr ⟨rfl, rfl⟩
  · exact State.staysOrCloses_modMgr (s := s) (l := l) (f := fun m => { m with wires := m.wires.set (wireIx w) on }) ⟨rfl, rfl⟩

theorem State.staysOrCloses_takeOpenMessage (arrival : Nat) (m : RxMsg) : s.StaysOrCloses (s.takeOpenMessage l arrival m) l := by
  unfold State.takeOpenMessage
  split
  · exact State.staysOrCloses_fault _
  · exact State.staysOrCloses_takeEcho ..
  · exact State.staysOrCloses_takeTrackEcho ..
  · exact State.staysOrCloses_takeReply ..
  · exact State.staysOrCloses_takeAlarm ..
  · exact State.staysOrCloses_takeAlarm ..
  · exact State.staysOrCloses_modMgr ⟨rfl, rfl⟩

end

/-! ## The messages of a frame one after another (R17) -/

/-- R12, R138: the frame's own part has been taken on link l: its errored run is 0 where the control channel is open, and the received
history of an ACTIVE link would not take the frame again. -/
def State.frameTaken (s : State) (l : LinkIx) (f : UplinkFrame) : Prop :=
  ((s.link l).mgr.state.controlOpen = true → (s.link l).mgr.erroredRun = 0) ∧
  ((s.link l).mgr.state = .active → (s.link l).rx.map (fun h => h.take s.period f) = (s.link l).rx)

section
variable {s : State} {l : LinkIx} {f : UplinkFrame}

theorem State.frameTaken.of_staysOrCloses {t : State} (h : s.frameTaken l f) (htime : t.time = s.time) (hstays : s.StaysOrCloses t l) :
    t.frameTaken l f := by
  have hperiod : t.period = s.period := by
    unfold State.period
    rw [htime]
  obtain hclosed | ⟨hstate, hrun, hrx⟩ := hstays
  · refine ⟨fun hopen => absurd (hopen.symm.trans hclosed) (by decide), fun hactive => ?_⟩
    rw [hactive] at hclosed
    cases hclosed
  · unfold State.frameTaken
    rw [hstate, hrun, hrx, hperiod]
    exact h

theorem State.takeMessage_frameTaken (arrival : Nat) (m : RxMsg) (h : s.frameTaken l f) : (s.takeMessage l arrival m).frameTaken l f := by
  obtain ⟨htime, -⟩ := (State.takeMessage_edits s l arrival m).frame
  by_cases hopen : (s.link l).mgr.state.controlOpen = true
  · refine h.of_staysOrCloses htime ?_
    unfold State.takeMessage
    rw [if_pos hopen]
    exact State.staysOrCloses_takeOpenMessage arrival m
  · unfold State.takeMessage
    rw [if_neg hopen]
    split
    · split
      · have hlink (x : RuIdentity) : (s.takeHello l x).link l = { s.link l with mgr := { (s.link l).mgr.hello x with
            txQueue := placeSetup ((s.link l).mgr.hello x).txQueue (s.link l).settings.toSetup } } := by
          unfold State.takeHello State.issueSetup State.modMgr
          rw [State.modLink_notify, State.modLink_modLink]
          simp only [State.notify_link, State.modLink_link_same]
        unfold State.frameTaken
        rw [hlink]
        exact ⟨fun _ => rfl, nofun⟩
      · exact h
    · exact h

theorem RxBlock.take_take (b : RxBlock) (f : UplinkFrame) : (b.take f).take f = b.take f := by
  unfold RxBlock.take
  cases htaken : b.taken <;> cases f.errored <;> simp [htaken]

theorem RxHistory.take_take (h : RxHistory) (p : Seq16) (f : UplinkFrame) : (h.take p f).take p f = h.take p f := by
  unfold RxHistory.take
  by_cases h1 : f.number = p
  · simp only [if_pos h1, RxBlock.take_take]
  · by_cases h2 : f.number = p - 1
    · simp only [if_neg h1, if_pos h2, RxBlock.take_take]
    · simp only [if_neg h1, if_neg h2]

theorem State.takeSamples_link : (s.takeSamples l f).link l = { s.link l with
    rx := if (s.link l).mgr.state = .active then (s.link l).rx.map (fun h => h.take s.period f) else (s.link l).rx } := by
  unfold State.takeSamples
  split
  · exact State.modLink_link_same ..
  · rfl

/-- An unerrored frame's own part. -/
theorem State.takeGood_frameTaken : ((s.takeSamples l f).takeGood l).frameTaken l f := by
  have htime : (s.takeSamples l f).time = s.time := by
    unfold State.takeSamples
    split <;> rfl
  have hsamples : (s.takeSamples l f).period = s.period := by
    unfold State.period
    rw [htime]
  have htwice : (s.link l).mgr.state = .active → ((s.takeSamples l f).link l).rx.map (fun h => h.take s.period f) =
      ((s.takeSamples l f).link l).rx := by
    intro hactive
    rw [State.takeSamples_link]
    dsimp only
    rw [if_pos hactive, Option.map_map]
    exact congrArg (Option.map · _) (funext fun h => h.take_take s.period f)
  have hstate : ((s.takeSamples l f).link l).mgr = (s.link l).mgr := by rw [State.takeSamples_link]
  unfold State.takeGood State.frameTaken
  split
  · have hperiod : ((s.takeSamples l f).modMgr l (fun m => { m with erroredRun := 0 })).period = s.period := hsamples
    rw [hperiod, State.modMgr_link_same]
    exact ⟨fun _ => rfl, fun hactive => htwice (by rw [← hstate]; exact hactive)⟩
  · rename_i hclosed
    rw [hsamples]
    exact ⟨fun hopen => absurd hopen hclosed, fun hactive => htwice (by rw [← hstate]; exact hactive)⟩

/-- A frame taken again adds nothing of its own. -/
theorem State.takeGood_of_frameTaken (h : s.frameTaken l f) : (s.takeSamples l f).takeGood l = s := by
  have hfixed {k : Link → Link} (hk : k (s.link l) = s.link l) : s.modLink l k = s := by
    refine (State.modLink_congr (f' := fun x => x) hk).trans ?_
    simp [State.modLink]
  have hsamples : s.takeSamples l f = s := by
    unfold State.takeSamples
    split
    · rename_i hactive
      exact hfixed (by rw [h.2 hactive])
    · rfl
  rw [hsamples, State.takeGood]
  split
  · rename_i hopen
    refine hfixed ?_
    rw [← h.1 hopen]
  · rfl

theorem exec_uplinkFrame (hreset : s.path.inReset = false) (hok : frameOk f = true) : exec (.uplinkFrameArrival l f) s = .next (s.takeFrame l f) := by
  show execUplinkFrameArrival l f s = _
  rw [execUplinkFrameArrival, if_pos hok, State.running_of_released _ _ hreset]

theorem State.takeFrame_of_good (herr : f.errored = false) : s.takeFrame l f =
    f.messages.foldl (fun s m => s.takeMessage l f.arrivalStep m) ((s.takeSamples l f).takeGood l) :=
  if_neg (ne_true_of_eq_false herr)

/-- R17: the messages of a frame are taken one after another. -/
theorem State.takeFrame_append (first : List RxMsg) (m : RxMsg) (herr : f.errored = false) (hm : f.messages = first ++ [m]) :
    s.takeFrame l f = (s.takeFrame l { f with messages := first }).takeFrame l { f with messages := [m] } := by
  have htaken : (s.takeFrame l { f with messages := first }).frameTaken l f := by
    rw [State.takeFrame_of_good (f := { f with messages := first }) herr]
    have hfold (ms : List RxMsg) (t : State) (ht : t.frameTaken l f) :
        (ms.foldl (fun s m => s.takeMessage l f.arrivalStep m) t).frameTaken l f := by
      induction ms generalizing t with
      | nil => exact ht
      | cons m ms ih => exact ih _ (State.takeMessage_frameTaken _ m ht)
    exact hfold first _ State.takeGood_frameTaken
  rw [State.takeFrame_of_good (f := { f with messages := [m] }) herr, State.takeFrame_of_good herr, hm, List.foldl_append]
  refine congrArg (fun t : State => [m].foldl (fun s m => s.takeMessage l f.arrivalStep m) t) ?_
  exact (State.takeFrame_of_good (f := { f with messages := first }) herr).symm.trans (State.takeGood_of_frameTaken htaken).symm

/-! ## Frames by the state of the link (R7, R12, R17) -/

theorem State.takeSamples_of_inactive (h : (s.link l).mgr.state ≠ .active) : s.takeSamples l f = s := if_neg h

/-- R7, R17: with the control channel closed a frame that brings no awaited HELLO changes nothing. -/
theorem State.takeFrame_of_closed (hclosed : (s.link l).mgr.state.controlOpen = false)
    (h : f.errored = true ∨ ¬ ((s.link l).mgr.state = .attach ∧ (s.link l).mgr.attachPhase = some .helloWait) ∨
      ∀ identity firmware, .hello identity firmware ∉ f.messages) : s.takeFrame l f = s := by
  have hnot : ¬ (s.link l).mgr.state.controlOpen = true := ne_true_of_eq_false hclosed
  have hinactive : (s.link l).mgr.state ≠ .active := fun e => by rw [e] at hclosed; cases hclosed
  cases herr : f.errored with
  | true =>
    unfold State.takeFrame
    rw [State.takeSamples_of_inactive hinactive]
    exact (if_pos herr).trans (if_neg hnot)
  | false =>
    have hmessages := h.resolve_left (ne_true_of_eq_false herr)
    have hone (m : RxMsg) (hm : m ∈ f.messages) : s.takeMessage l f.arrivalStep m = s := by
      unfold State.takeMessage
      rw [if_neg hnot]
      split
      · rename_i hwait
        have hno := hmessages.resolve_left (not_not_intro hwait)
        split
        · exact absurd hm (hno _ _)
        · rfl
      · rfl
    rw [State.takeFrame_of_good herr, State.takeSamples_of_inactive hinactive, State.takeGood, if_neg hnot]
    have hfold (ms : List RxMsg) (hms : ∀ m ∈ ms, m ∈ f.messages) : ms.foldl (fun s m => s.takeMessage l f.arrivalStep m) s = s := by
      induction ms with
      | nil => rfl
      | cons m ms ih =>
        rw [List.foldl_cons, hone m (hms m (List.mem_cons_self ..))]
        exact ih fun m' hm' => hms m' (List.mem_cons_of_mem _ hm')
    exact hfold f.messages fun _ hm => hm

/-- R12, R138: an errored frame on a link with its control channel open, before it faults the link. -/
def State.afterErroredFrame (s : State) (l : LinkIx) (f : UplinkFrame) : State := s.modLink l (fun x => { x with
  mgr := { x.mgr with erroredFrames := bump16 x.mgr.erroredFrames, erroredRun := x.mgr.erroredRun + 1 }
  rx := if x.mgr.state = .active then x.rx.map (fun h => h.take s.period f) else x.rx })

theorem State.takeFrame_of_errored (hopen : (s.link l).mgr.state.controlOpen = true) (herr : f.errored = true) : s.takeFrame l f =
    if 4 ≤ (s.link l).mgr.erroredRun + 1 then (s.afterErroredFrame l f).fault l .errors else s.afterErroredFrame l f := by
  have hcounted : (s.takeSamples l f).modMgr l (fun m => { m with erroredFrames := bump16 m.erroredFrames, erroredRun := m.erroredRun + 1 }) =
      s.afterErroredFrame l f := by
    unfold State.takeSamples
    split
    · rename_i hactive
      unfold State.modMgr
      rw [State.modLink_modLink]
      refine State.modLink_congr ?_
      rw [if_pos hactive]
    · rename_i hinactive
      refine State.modLink_congr ?_
      rw [if_neg hinactive]
  have hrun : ((s.afterErroredFrame l f).link l).mgr.erroredRun = (s.link l).mgr.erroredRun + 1 := by
    rw [State.afterErroredFrame, State.modLink_link_same]
  unfold State.takeFrame State.takeErrored
  dsimp only
  rw [if_pos herr, hcounted, hrun, State.takeSamples_link]
  exact if_pos hopen

end

/-- Settles O29. -/
theorem framesMoveTheLink : Obligations.FramesMoveTheLink := by
  refine ⟨setupsReplaceOneAnother, ?_, fun s l f first m hreset hok herr hm => ?_, ?_⟩
  · intro h p f took
    have htook (b : RxBlock) : b.take f = took b := by
      unfold RxBlock.take took
      cases b.taken <;> cases f.errored <;> rfl
    unfold RxHistory.take
    rw [htook, htook]
    refine ⟨fun hp => if_pos hp, fun hp => ?_, fun hp hp' => (if_neg hp).trans (if_neg hp')⟩
    exact (if_neg (by rw [hp]; bv_omega)).trans (if_pos hp)
  · have hlen : f.messages.length ≤ 8 ∧ f.arrivalStep < 128000 ∧ samplesOk 51200 f.samples = true := by
      simpa [frameOk, and_assoc] using hok
    rw [hm, List.length_append] at hlen
    obtain ⟨hcount, harrival, hsamples⟩ := hlen
    have hfirst : frameOk { f with messages := first } = true := by
      simp [frameOk, harrival, hsamples, Nat.le_of_add_right_le hcount]
    have hlast : frameOk { f with messages := [m] } = true := by
      simp [frameOk, harrival, hsamples]
    refine ⟨s.takeFrame l { f with messages := first }, exec_uplinkFrame hreset hfirst, ?_⟩
    rw [exec_uplinkFrame hreset hok, exec_uplinkFrame ?_ hlast, State.takeFrame_append first m herr hm]
    obtain ⟨-, hpath, -⟩ := (State.takeFrame_edits (s := s) (l := l) (f := { f with messages := first }) (samplesWf_of_samplesOk hsamples)).frame
    rw [hpath]
    exact hreset
  · intro s l f hreset hok openStates
    have hopen (h : (s.link l).mgr.state ∈ openStates) : (s.link l).mgr.state.controlOpen = true := LinkState.controlOpen_of_mem h
    rw [exec_uplinkFrame hreset hok]
    refine ⟨fun identity firmware herr hm hattach hwait => ?_, fun hattach h => ?_, fun herr hstate hfew => ?_, fun herr hstate hthree => ?_,
      fun identity firmware herr hm hstate => ?_, fun hstate => ?_⟩
    · have hnot : ¬ (s.link l).mgr.state.controlOpen = true := by rw [hattach]; decide
      rw [State.takeFrame_of_good herr, State.takeSamples_of_inactive (by rw [hattach]; decide), State.takeGood, if_neg hnot, hm]
      refine congrArg _ ((if_neg hnot).trans ((if_pos ⟨hattach, hwait⟩).trans ?_))
      show State.takeHello _ _ _ = _
      unfold State.takeHello State.issueSetup State.modMgr
      rw [State.modLink_notify, State.modLink_modLink]
      simp only [State.notify_link, State.modLink_link_same]
      exact congrArg (State.notify · _) (State.modLink_congr rfl)
    · refine congrArg _ (State.takeFrame_of_closed (by rw [hattach]; rfl) (h.imp_right (Or.imp_left fun hphase hwait => hphase hwait.2)))
    · rw [State.takeFrame_of_errored (hopen hstate) herr, if_neg (by omega)]
      rfl
    · rw [State.takeFrame_of_errored (hopen hstate) herr, if_pos (by omega)]
      have hlink : (s.afterErroredFrame l f).link l = _ := State.modLink_link_same ..
      refine ⟨_, rfl, (State.takeDown_tornDown _ l .fault _).congr ?_ ?_ ?_ ?_ ?_⟩
      · unfold State.torn State.afterErroredFrame State.modMgr
        rw [State.modLink_modLink, State.modLink_modLink]
      · rw [hlink, State.modMgr_link_same]
      · rw [hlink, State.modMgr_link_same]
      · rw [hlink, State.modMgr_link_same]
      · rw [hlink, State.modMgr_link_same]
        rfl
    · refine ⟨_, (exec_uplinkFrame hreset hok).symm.trans (exec_openMessage hreset hok herr hm hstate), ?_⟩
      exact TornDown.of_afterGoodFrame (State.takeDown_tornDown _ l .fault _)
    · have hclosed : (s.link l).mgr.state.controlOpen = false ∧ (s.link l).mgr.state ≠ .attach := by
        generalize (s.link l).mgr.state = x at hstate
        revert x
        decide
      exact congrArg _ (State.takeFrame_of_closed hclosed.1 (.inr (.inl fun h => hclosed.2 h.1)))

end Sys2Proof.Machine
end

section
/-! A transition made at a boundary governs the frame that starts there (R3; log 20). -/

namespace Sys2Proof.Machine

open Sys2Proof

/-- R3 (log 20): link l as the boundary's transition leaves its frame and its lanes. -/
def State.governedLink (s : State) (l : LinkIx) : Link :=
  let x := s.link l
  { x with
    mgr := { x.mgr with frame := x.mgr.frame.map (fun f =>
      { f with messages := if x.mgr.state.controlOpen then f.messages else [], carriesLanes := x.mgr.state == .active, k := x.align.k }) }
    line := { x.line with now := s.enteredLanes l } }

/-- R137 (log 20): the block record once the links of p stand in it as they are in s. -/
def State.governedRecord (s : State) (p : LinkIx → Prop) [DecidablePred p] (r : BlockRecord) : BlockRecord :=
  { r with
    applied := Vector.ofFn (fun l : Fin 16 => if p l then (s.link l).align.k else r.applied[l])
    launched := Vector.ofFn (fun l : Fin 16 =>
      if p l then (if (s.link l).mgr.state = .active then some (s.link l).settings.zone else none) else r.launched[l]) }

/-- R3, R137 (log 20): t is s with the frames, the lanes and the block record's view of the links of p brought to their state. -/
structure State.GovernedOn (s t : State) (p : LinkIx → Prop) [DecidablePred p] : Prop where
  frame : t = { s with links := t.links, combiner := { s.combiner with now := t.combiner.now } }
  link : ∀ l, t.link l = if p l then s.governedLink l else s.link l
  record : t.combiner.now = s.combiner.now.map (s.governedRecord p)

section
variable {s : State} {p q : LinkIx → Prop} [DecidablePred p] [DecidablePred q]

theorem State.governedRecord_none (h : ∀ l, ¬ p l) (r : BlockRecord) : s.governedRecord p r = r := by
  have happlied : (Vector.ofFn fun l : Fin 16 => if p l then (s.link l).align.k else r.applied[l]) = r.applied := by
    ext i hi
    simp [h]
  have hlaunched : (Vector.ofFn fun l : Fin 16 => if p l then (if (s.link l).mgr.state = .active then some (s.link l).settings.zone else none)
      else r.launched[l]) = r.launched := by
    ext i hi
    simp [h]
  unfold State.governedRecord
  rw [happlied, hlaunched]

theorem State.GovernedOn.refl (h : ∀ l, ¬ p l) : s.GovernedOn s p where
  frame := rfl
  link l := (if_neg (h l)).symm
  record := by
    rw [funext (State.governedRecord_none h (s := s))]
    exact Option.map_id'.symm

theorem State.enteredLanes_of_frame {t : State} {l : LinkIx} (hframe : t = { s with links := t.links, combiner := t.combiner })
    (hlink : t.link l = s.link l) : t.enteredLanes l = s.enteredLanes l := by
  have hlanes (z : ZoneIx) : t.zoneLanes z = s.zoneLanes z := by rw [hframe]; rfl
  unfold State.enteredLanes
  rw [hlink, hlanes]

/-- R3 (log 20): one link brought to its state. -/
theorem State.regovern_of_started {l : LinkIx} (h : s.time.blockOwed = false) : s.regovern l =
    { s.modLink l (fun _ => s.governedLink l) with combiner := { s.combiner with now := s.combiner.now.map (fun r => { r with
        applied := r.applied.set l (s.link l).align.k
        launched := r.launched.set l (if (s.link l).mgr.state = .active then some (s.link l).settings.zone else none) }) } } := by
  have hlink : s.modLink l (fun x => { x with
      mgr := { x.mgr with frame := x.mgr.frame.map (fun f =>
        { f with messages := if (s.link l).mgr.state.controlOpen then f.messages else []
                 carriesLanes := (s.link l).mgr.state == .active, k := (s.link l).align.k }) }
      line := { x.line with now := s.enteredLanes l } }) = s.modLink l (fun _ => s.governedLink l) := State.modLink_congr rfl
  unfold State.regovern
  rw [if_neg (ne_true_of_eq_false h)]
  dsimp only
  rw [← hlink]
  rfl

theorem State.regovern_link_same {l : LinkIx} (h : s.time.blockOwed = false) : (s.regovern l).link l = s.governedLink l := by
  rw [State.regovern_of_started h]
  exact State.modLink_link_same s l (fun _ => s.governedLink l)

/-- R3 (log 20): one more link brought to its state, where the frames of the boundary have started. -/
theorem State.GovernedOn.regovern {t : State} {l : LinkIx} (h : s.GovernedOn t p) (howed : s.time.blockOwed = false) (hl : ¬ p l)
    (hq : ∀ l', q l' ↔ p l' ∨ l' = l) : s.GovernedOn (t.regovern l) q := by
  have hframe : t = { s with links := t.links, combiner := t.combiner } := by
    refine h.frame.trans ?_
    have hnow := congrArg State.combiner h.frame
    exact congrArg (fun c => ({ s with links := t.links, combiner := c } : State)) hnow.symm
  have hlink : t.link l = s.link l := (h.link l).trans (if_neg hl)
  have hlanes : t.enteredLanes l = s.enteredLanes l := State.enteredLanes_of_frame hframe hlink
  have htime : t.time.blockOwed = false := by rw [hframe]; exact howed
  have hgoverned : t.governedLink l = s.governedLink l := by
    unfold State.governedLink
    rw [hlink, hlanes]
  rw [State.regovern_of_started htime, hgoverned, hlink]
  refine ⟨?_, fun l' => ?_, ?_⟩
  · have hcombiner := congrArg State.combiner h.frame
    dsimp only at hcombiner
    rw [hcombiner, hframe]
    rfl
  · show (t.modLink l (fun _ => s.governedLink l)).link l' = _
    by_cases he : l = l'
    · subst he
      rw [State.modLink_link_same, if_pos ((hq l).mpr (Or.inr rfl))]
    · rw [State.modLink_link_other _ _ _ _ he, h.link]
      by_cases hp : p l'
      · rw [if_pos hp, if_pos ((hq l').mpr (Or.inl hp))]
      · rw [if_neg hp, if_neg fun k => ((hq l').mp k).elim hp fun e => he e.symm]
  · show (t.combiner.now).map _ = _
    rw [h.record, Option.map_map]
    refine congrArg (Option.map · s.combiner.now) (funext fun r => ?_)
    unfold State.governedRecord Function.comp
    dsimp only
    congr 1
    · ext i hi
      by_cases he : l.val = i
      · have hi : q ⟨i, hi⟩ := (hq _).mpr (Or.inr (Fin.ext he.symm))
        subst he
        simp [hi]
      · have hiff : q ⟨i, hi⟩ ↔ p ⟨i, hi⟩ := (hq _).trans (or_iff_left fun e => he (Fin.ext_iff.mp e).symm)
        simp [he, hiff]
    · ext i hi
      by_cases he : l.val = i
      · have hi : q ⟨i, hi⟩ := (hq _).mpr (Or.inr (Fin.ext he.symm))
        subst he
        simp [hi]
      · have hiff : q ⟨i, hi⟩ ↔ p ⟨i, hi⟩ := (hq _).trans (or_iff_left fun e => he (Fin.ext_iff.mp e).symm)
        simp [he, hiff]

/-- R3, R58, R137 (log 20): what the statements say of links brought to their state. -/
theorem State.GovernedOn.governed {before t : State} (h : s.GovernedOn t p)
    (hp : ∀ l, p l ↔ s.time.blockOwed = false ∧ (s.link l).mgr.state ≠ (before.link l).mgr.state)
    (hlanes : ∀ l, p l → (s.link l).mgr.state = .active → ∀ plan, s.putsInForce (s.link l).settings.zone plan →
      s.buildsLanes (s.link l).settings.zone plan (s.zoneLanes (s.link l).settings.zone)) : before.governed s t := by
  refine ⟨fun howed => ?_, h.frame, fun hnone => by rw [h.record, hnone]; rfl, fun r hr => ?_, fun l => ?_⟩
  · have hnot (l : LinkIx) : ¬ p l := fun k => by
      rw [((hp l).mp k).1] at howed
      cases howed
    have hlinks : t.links = s.links := by
      ext i hi
      exact (h.link ⟨i, hi⟩).trans (if_neg (hnot _))
    have hnow : t.combiner.now = s.combiner.now := by
      rw [h.record, funext (State.governedRecord_none hnot (s := s))]
      exact Option.map_id'
    rw [h.frame, hlinks, hnow]
  · refine ⟨s.governedRecord p r, by rw [h.record, hr]; rfl, fun l => ⟨fun hno => ?_, fun hchanged => ?_⟩⟩
    · have hl : ¬ p l := fun k => hno ((hp l).mp k)
      simp [State.governedRecord, hl]
    · have hl : p l := (hp l).mpr hchanged
      simp [State.governedRecord, hl]
  · rw [h.link]
    refine ⟨fun hno => if_neg fun k => hno ((hp l).mp k), fun hchanged => ?_⟩
    have hl : p l := (hp l).mpr hchanged
    rw [if_pos hl]
    refine ⟨?_, fun hinactive => if_neg hinactive, fun hactive plan hplan => ?_⟩
    · simp only [State.governedLink, ← LinkState.controlOpen_iff]
    · have hentered : (s.governedLink l).line.now = s.zoneLanes (s.link l).settings.zone := if_pos hactive
      rw [hentered]
      exact hlanes l hl hactive plan hplan

/-- R3 (log 20): one link, out of ACTIVE, brought to its state. -/
theorem State.regovern_governed {before : State} {l : LinkIx} (hchanged : (s.link l).mgr.state ≠ (before.link l).mgr.state)
    (hothers : ∀ l', l' ≠ l → (s.link l').mgr.state = (before.link l').mgr.state) (hinactive : (s.link l).mgr.state ≠ .active) :
    before.governed s (s.regovern l) := by
  cases howed : s.time.blockOwed with
  | true =>
    rw [show s.regovern l = s from if_pos howed]
    exact State.governed_of_owed howed
  | false =>
    have h : s.GovernedOn (s.regovern l) (fun l' => l' = l) :=
      (State.GovernedOn.refl (p := fun _ => False) fun _ => id).regovern howed id fun l' => (or_iff_right id).symm
    refine h.governed (fun l' => ⟨fun e => ⟨howed, e ▸ hchanged⟩, fun ⟨_, hne⟩ => by_contra fun hl => hne (hothers l' hl)⟩) ?_
    rintro l' rfl hactive
    exact absurd hactive hinactive

end

end Sys2Proof.Machine
end

section
/-! Deadlines of requests (R19, R21, R95 to R97). -/

namespace Sys2Proof.Machine

open Sys2Proof

section
variable {s : State} {l : LinkIx} {g : Tag}

theorem State.mem_expiredTags : g ∈ s.expiredTags l ↔ ∃ o b, (s.link l).mgr.outstanding[g] = some o ∧ o.sentIn = some b ∧
    40 ≤ (s.time.block - b).toNat := by
  unfold State.expiredTags deadlineReached
  rw [List.mem_filter]
  cases ho : (s.link l).mgr.outstanding[g] with
  | none => simp
  | some o =>
    cases hb : o.sentIn with
    | none => simp [hb]
    | some b => simp [hb, mem_allTags]

theorem allTags_sorted : allTags.Pairwise (· < ·) := by decide

theorem State.expiredTags_eq {due : List Tag} (hsorted : due.Pairwise (· < ·))
    (hdue : ∀ g : Tag, g ∈ due ↔ ∃ o b, (s.link l).mgr.outstanding[g] = some o ∧ o.sentIn = some b ∧ 40 ≤ (s.time.block - b).toNat) :
    s.expiredTags l = due :=
  (allTags_sorted.filter _).eq_of_mem_iff hsorted fun g => State.mem_expiredTags.trans (hdue g).symm

theorem State.expireTag_of_sent {r : Request} {b : Seq16} (h : (s.link l).mgr.outstanding[g] = some { request := r, sentIn := some b }) :
    s.expireTag l g = (s.freeTag l g).completeTimeout l r := by
  unfold State.expireTag
  rw [h]

/-- R10 (log 2): the note that QUIESCING ends. -/
def Manager.noted (m : Manager) (owed : Bool) : Manager :=
  if m.state = .quiescing ∧ (∀ g : Tag, m.outstanding[g] = none) ∧ m.pendingQueue = [] ∧ owed = false then { m with quiesceDue := true } else m

theorem State.noteQuiesced_eq : s.noteQuiesced l = s.modMgr l (fun m => m.noted s.time.blockOwed) := by
  refine State.modMgr_congr ?_
  unfold Manager.noted
  simp only [Manager.settled_iff, and_assoc]

theorem Manager.noted_of_held {m : Manager} {o : Outstanding} (h : m.outstanding[g] = some o) (owed : Bool) : m.noted owed = m :=
  if_neg fun k => by
    have hfree := k.2.1 g
    rw [h] at hfree
    cases hfree

theorem Manager.noted_of_state {m : Manager} (h : m.state ≠ .quiescing) (owed : Bool) : m.noted owed = m := if_neg fun k => h k.1

/-- R21: the deadlines of a link where the completions leave t. -/
theorem State.deadlinesIfDue_eq {t : State} (hdue : s.expiredTags l ≠ [])
    (ht : ((s.expiredTags l).foldl (fun s t => s.expireTag l t) s).modMgr l Manager.giveFreedTags = t) : s.deadlinesIfDue l =
      if ((t.noteQuiesced l).link l).mgr.state = (s.link l).mgr.state then t.noteQuiesced l else (t.noteQuiesced l).regovern l := by
  unfold State.deadlinesIfDue
  rw [if_neg (by simpa using hdue)]
  dsimp only
  rw [ht]

theorem State.noteQuiesced_state : ((s.noteQuiesced l).link l).mgr.state = (s.link l).mgr.state := by
  rw [State.noteQuiesced_eq, State.modMgr_link_same, Manager.noted]
  split <;> rfl

/-- R21: the deadlines of a link whose completions leave its state. -/
theorem State.deadlinesIfDue_of_state {t : State} (hdue : s.expiredTags l ≠ [])
    (ht : ((s.expiredTags l).foldl (fun s t => s.expireTag l t) s).modMgr l Manager.giveFreedTags = t)
    (hstate : (t.link l).mgr.state = (s.link l).mgr.state) (htime : t.time = s.time) :
    s.deadlinesIfDue l = t.modMgr l (fun m => m.noted s.time.blockOwed) := by
  rw [State.deadlinesIfDue_eq hdue ht, if_pos (by rw [State.noteQuiesced_state]; exact hstate), State.noteQuiesced_eq, htime]

theorem Manager.tagPassedOn_state (m : Manager) : (m.tagPassedOn g).state = m.state := by
  unfold Manager.tagPassedOn
  cases m.pendingQueue <;> rfl

theorem State.modMgr_plusNotice (f : Manager → Manager) (n : Notice) : (s.plusNotice n).modMgr l f = (s.modMgr l f).plusNotice n := rfl

/-- R13: a link outside ACTIVE enters FAULT. -/
theorem State.fault_of_inactive (h : (s.link l).mgr.state ≠ .active) (c : FaultCause) : s.fault l c = (s.torn l .fault).plusNotices
    (.linkState l (s.link l).mgr.state .fault (.fault c) (s.link l).mgr.wires none :: queryDones l .linkDown (s.link l).mgr.heldRequests) :=
  (State.takeDown_eq ..).trans (if_neg h)

end

/-! ## One expired tag -/

section
variable {s : State} {l : LinkIx} {g : Tag} {b : Seq16} (hold : 40 ≤ (s.time.block - b).toNat)
  (halone : ∀ g' : Tag, g' ≠ g → ∀ o, (s.link l).mgr.outstanding[g'] = some o → ∀ b', o.sentIn = some b' → (s.time.block - b').toNat < 40)
include hold halone

theorem State.expiredTags_of_one {r : Request} (h : (s.link l).mgr.outstanding[g] = some { request := r, sentIn := some b }) :
    s.expiredTags l = [g] := by
  refine State.expiredTags_eq (List.pairwise_singleton _ _) fun g' => ?_
  rw [List.mem_singleton]
  refine ⟨fun e => ⟨_, b, e ▸ h, rfl, hold⟩, fun ⟨o, b', ho, hb, hle⟩ => ?_⟩
  by_contra hne
  exact absurd (halone g' hne o ho b' hb) (by omega)

variable (hreset : s.path.inReset = false)
include hreset

/-- The event of one expired tag. -/
theorem exec_deadline {r : Request} (h : (s.link l).mgr.outstanding[g] = some { request := r, sentIn := some b }) :
    exec (.requestDeadlineExpiry l) s = .next (s.deadlinesIfDue l) ∧
    ((s.expiredTags l).foldl (fun s t => s.expireTag l t) s).modMgr l Manager.giveFreedTags =
      ((s.freeTag l g).completeTimeout l r).modMgr l Manager.giveFreedTags ∧ s.expiredTags l ≠ [] := by
  have hone := State.expiredTags_of_one hold halone h
  refine ⟨event_of_due (due := fun t => !(t.expiredTags l).isEmpty) (fun _ => rfl) hreset (by rw [hone]; rfl), ?_, by simp [hone]⟩
  rw [hone, List.foldl_cons, List.foldl_nil, State.expireTag_of_sent h]

/-- R21: a query whose deadline expires. -/
theorem exec_deadline_query {item : Item} {orderTag : BitVec 16}
    (h : (s.link l).mgr.outstanding[g] = some { request := .query item orderTag, sentIn := some b }) (hnext : s.tagIsNext l g) :
    exec (.requestDeadlineExpiry l) s =
      .next ((s.modMgr l (fun m => (m.tagPassedOn g).noted s.time.blockOwed)).plusNotice (.queryDone l item .timeout orderTag 0)) := by
  obtain ⟨hexec, hfold, hsome⟩ := exec_deadline hold halone hreset h
  have ht := hfold.trans (State.giveFreed_plusNotice hnext (.queryDone l item .timeout orderTag 0))
  rw [hexec, State.deadlinesIfDue_of_state hsome ht ?_ rfl]
  · rw [State.modMgr_plusNotice, State.modMgr_modMgr]
  · show ((s.modMgr l (fun m => m.tagPassedOn g)).link l).mgr.state = _
    rw [State.modMgr_link_same]
    exact Manager.tagPassedOn_state _

/-- R21, R95: a PLAN whose deadline expires leaves its link's state. -/
theorem exec_deadline_plan {n : Nat} {m : Seq16} {items : List PlanItem} {f : Link → Link}
    (h : (s.link l).mgr.outstanding[g] = some { request := .plan n m items, sentIn := some b })
    (hended : s.planEnded l g n .timeout = s.modLink l f) (hstate : (f (s.link l)).mgr.state = (s.link l).mgr.state) :
    exec (.requestDeadlineExpiry l) s = .next ((s.modLink l f).modMgr l (fun m => m.noted s.time.blockOwed)) := by
  obtain ⟨hexec, hfold, hsome⟩ := exec_deadline hold halone hreset h
  rw [hexec, State.deadlinesIfDue_of_state hsome (hfold.trans hended) ?_ rfl]
  rw [State.modLink_link_same]
  exact hstate

/-- R96, R3 (log 20): the third failed attempt of a JOIN exchange, by an expired deadline. -/
theorem exec_deadline_third {n : Nat} {sf : Seq16} {items : List PlanItem} {x : Exchange}
    (h : (s.link l).mgr.outstanding[g] = some { request := .plan n sf items, sentIn := some b })
    (hx : (s.link l).exchange = some x) (hn : x.current = some n) (hjoin : x.purpose = .join)
    (hthird : 2 ≤ x.attempts) (hjoining : (s.link l).mgr.state = .joining) :
    exec (.requestDeadlineExpiry l) s = .next (((s.freeTag l g).fault l .planFail).regovern l) ∧
      TornDown s ((s.freeTag l g).fault l .planFail) l .fault (.fault .planFail) := by
  obtain ⟨hexec, hfold, hsome⟩ := exec_deadline hold halone hreset h
  obtain ⟨hended, htorn⟩ := State.planEnded_of_third (rep := .timeout) h hx hn (by decide) hjoin hthird hjoining
  refine ⟨?_, htorn⟩
  have hfault := State.fault_link_closed (s := s.freeTag l g) (l := l) .planFail
  have hnoted : ((s.freeTag l g).fault l .planFail).noteQuiesced l = (s.freeTag l g).fault l .planFail := by
    rw [State.noteQuiesced_eq]
    exact State.modMgr_of_fixed (Manager.noted_of_state (by rw [hfault]; decide) _)
  rw [hexec, State.deadlinesIfDue_eq hsome (hfold.trans hended), hnoted, if_neg (by rw [hfault, hjoining]; decide)]

end

/-! ## Several expired queries -/

section
variable {s : State} {l : LinkIx}

theorem ofFn_freed (held : Vector (Option Outstanding) 4) (g : Tag) (due : List Tag) :
    Vector.ofFn (fun g' : Fin 4 => if g' ∈ due then none else (held.set g none)[g']) =
      Vector.ofFn (fun g' : Fin 4 => if g' ∈ g :: due then none else held[g']) := by
  refine congrArg Vector.ofFn (funext fun g' => ?_)
  rw [set_held]
  by_cases he : g' ∈ due
  · rw [if_pos he, if_pos (List.mem_cons_of_mem _ he)]
  · by_cases hg : g = g'
    · rw [if_neg he, if_pos hg, if_pos (by simp [hg])]
    · rw [if_neg he, if_neg hg, if_neg (by simp [he, Ne.symm hg])]

/-- R19: these tags of a link freed. -/
def Manager.freed (m : Manager) (due : List Tag) : Manager :=
  { m with outstanding := Vector.ofFn (fun g : Fin 4 => if g ∈ due then none else m.outstanding[g]) }

theorem Manager.freed_nil (m : Manager) : m.freed [] = m := by simp [Manager.freed]

theorem Manager.freed_cons (m : Manager) (g : Tag) (due : List Tag) :
    { m with outstanding := m.outstanding.set g none }.freed due = m.freed (g :: due) := by
  unfold Manager.freed
  dsimp only
  rw [ofFn_freed]

/-- R21: the queries at these tags time out, one after another. -/
theorem State.foldl_expireTag {due : List Tag} (hnodup : due.Nodup) (query : Tag → Item × BitVec 16)
    (hquery : ∀ g ∈ due, ∃ b, (s.link l).mgr.outstanding[g] = some { request := .query (query g).1 (query g).2, sentIn := some b }) :
    due.foldl (fun s t => s.expireTag l t) s = { s.modMgr l (fun m => m.freed due) with
      notices := due.foldl (fun u g => u.generate (.queryDone l (query g).1 .timeout (query g).2 0)) s.notices } := by
  induction due generalizing s with
  | nil =>
    have hfixed : s.modMgr l (fun m => m.freed []) = s := State.modMgr_of_fixed (Manager.freed_nil _)
    rw [hfixed]
    rfl
  | cons g due ih =>
    obtain ⟨hg, hnodup⟩ := List.nodup_cons.mp hnodup
    obtain ⟨b, hb⟩ := hquery g (List.mem_cons_self ..)
    have hstep : s.expireTag l g = (s.freeTag l g).plusNotice (.queryDone l (query g).1 .timeout (query g).2 0) := State.expireTag_of_sent hb
    rw [List.foldl_cons, hstep, ih hnodup fun g' hg' => ?_]
    · rw [State.modMgr_plusNotice, State.freeTag, State.modMgr_modMgr]
      simp only [Manager.freed_cons]
      rfl
    · rw [show ((s.freeTag l g).plusNotice (.queryDone l (query g).1 .timeout (query g).2 0)).link l = _ from
        State.freeTag_link (s := s) (l := l) (g := g)]
      obtain ⟨b', hb'⟩ := hquery g' (List.mem_cons_of_mem _ hg')
      exact ⟨b', ((set_held ..).trans (if_neg fun (e : g = g') => hg (e ▸ hg'))).trans hb'⟩

end

/-- Settles O28. -/
theorem deadlineExpiryFreesTag : Obligations.DeadlineExpiryFreesTag := by
  refine ⟨?_, ?_, ?_⟩
  · intro s l g b hreset noted hold halone
    have hnoted (t : State) : noted t = t.modMgr l (fun m => m.noted s.time.blockOwed) := rfl
    refine ⟨fun item orderTag hquery => ⟨fun hnone => ?_, fun r rest hcons hheld => ?_⟩, fun n m items hplan hnext => ⟨?_, ?_, ?_, ?_⟩⟩
    · rw [exec_deadline_query hold halone hreset hquery (Or.inl hnone), hnoted]
      rw [State.modMgr_plusNotice, State.modMgr_modMgr]
      refine congrArg (fun t : State => Host.Outcome.next (t.plusNotice (.queryDone l item .timeout orderTag 0))) (State.modMgr_congr ?_)
      rw [Manager.tagPassedOn_of_empty hnone]
    · rw [exec_deadline_query hold halone hreset hquery (Or.inr hheld)]
      refine congrArg (fun t : State => Host.Outcome.next (t.plusNotice (.queryDone l item .timeout orderTag 0))) (State.modMgr_congr ?_)
      rw [Manager.tagPassedOn_of_cons hcons]
      exact Manager.noted_of_held (g := g) (o := { request := r, sentIn := none }) ((set_held ..).trans (if_pos rfl)) _
    · intro x hx hn hswitch
      exact exec_deadline_plan hold halone hreset hplan (State.planEnded_of_settled hx hn (Or.inr hswitch) hnext) (Manager.tagPassedOn_state _)
    · intro x target m2 entries g2 hx hn hjoin hfew hoffers hfree hlow
      rw [exec_deadline_plan hold halone hreset hplan (State.planEnded_of_retried hx hn (by decide) hjoin hfew hoffers hfree hlow hnext) rfl]
      refine congrArg _ (State.modMgr_of_fixed ?_)
      rw [State.modLink_link_same]
      exact Manager.noted_of_held (g := g2) ((set_held ..).trans (if_pos rfl)) _
    · intro x hx hn hjoin hthird hjoining
      obtain ⟨hexec, htorn⟩ := exec_deadline_third hold halone hreset hplan hx hn hjoin hthird hjoining
      have hlink : (s.freeTag l g).link l = _ := State.freeTag_link
      have hdown := State.fault_of_inactive (s := s.freeTag l g) (l := l) (by rw [hlink, hjoining]; decide) .planFail
      have hfault := State.fault_link_closed (s := s.freeTag l g) (l := l) .planFail
      have hothers (l' : LinkIx) (hl : l' ≠ l) : ((s.freeTag l g).fault l .planFail).link l' = s.link l' := by
        rw [hdown, State.plusNotices_link, State.torn, State.modLink_link_other _ _ _ _ (Ne.symm hl)]
        exact State.modLink_link_other _ _ _ _ (Ne.symm hl)
      have htime : ((s.freeTag l g).fault l .planFail).time = s.time := by rw [hdown]; rfl
      have hcombiner : ((s.freeTag l g).fault l .planFail).combiner = s.combiner := by rw [hdown]; rfl
      refine ⟨_, _, hexec, htorn, ?_, fun howed => ?_, fun hopen => ?_⟩
      · exact State.regovern_governed (by rw [hfault, hjoining]; decide) (fun l' hl => by rw [hothers l' hl]) (by rw [hfault]; decide)
      · rw [State.regovern, if_pos (by rw [htime]; exact howed)]
        exact hcombiner
      · have hfields : ((s.freeTag l g).fault l .planFail).link l = ((s.freeTag l g).torn l .fault).link l := by rw [hdown]; rfl
        rw [State.torn, State.modLink_link_same, hlink] at hfields
        have hopen' : ((s.freeTag l g).fault l .planFail).time.blockOwed = false := by rw [htime]; exact hopen
        refine ⟨?_, ?_⟩
        · rw [State.regovern_link_same hopen', State.governedLink, hfields]
          rfl
        · rw [State.regovern_of_started hopen', hcombiner, hfields]
          rfl
    · intro hsuperseded
      exact exec_deadline_plan hold halone hreset hplan (State.planEnded_of_superseded hsuperseded hnext) (Manager.tagPassedOn_state _)
  · intro s l due free query hreset hsome hdue hfree hmem hquery hfreeMem given noted
    have hexpired : s.expiredTags l = due := State.expiredTags_eq hdue hmem
    have hgone (g : Tag) : (if g ∈ due then none else (s.link l).mgr.outstanding[g]) = if g ∈ free then none else (s.link l).mgr.outstanding[g] := by
      have hiff := hfreeMem g
      by_cases hd : g ∈ due
      · rw [if_pos hd, if_pos (hiff.mpr (Or.inl hd))]
      · rw [if_neg hd]
        by_cases hf : g ∈ free
        · rw [if_pos hf]
          exact (hiff.mp hf).resolve_left hd
        · rw [if_neg hf]
    let freed := Vector.ofFn (fun g : Fin 4 => if g ∈ due then none else (s.link l).mgr.outstanding[g])
    have hfreed (g : Tag) : freed[g] = if g ∈ free then none else (s.link l).mgr.outstanding[g] := (by simp [freed] : freed[g] = _).trans (hgone g)
    have hfilter : allTags.filter (fun g => freed[g].isNone) = free := by
      refine (allTags_sorted.filter _).eq_of_mem_iff hfree fun g => ?_
      rw [List.mem_filter, hfreed]
      by_cases hf : g ∈ free
      · simp [hf, mem_allTags]
      · have hheld : (s.link l).mgr.outstanding[g] ≠ none := fun e => hf ((hfreeMem g).mpr (Or.inr e))
        simpa [hf, mem_allTags] using hheld
    have hgiven : { (s.link l).mgr with outstanding := freed }.giveFreedTags = { (s.link l).mgr with
        outstanding := Vector.ofFn (fun g : Fin 4 => match given.find? (fun x => x.1 == g) with
          | some x => some { request := x.2, sentIn := none }
          | none => if g ∈ free then none else (s.link l).mgr.outstanding[g])
        txQueue := (s.link l).mgr.txQueue ++ given.map (fun x => .request x.1 x.2)
        pendingQueue := (s.link l).mgr.pendingQueue.drop free.length } := by
      rw [Manager.giveFreedTags_eq]
      dsimp only
      rw [hfilter]
      have hheld : heldWith freed given = fun g => match given.find? (fun x => x.1 == g) with
          | some x => some { request := x.2, sentIn := none }
          | none => if g ∈ free then none else (s.link l).mgr.outstanding[g] := by
        funext g
        unfold heldWith
        rw [hfreed] <;> rfl
      unfold Manager.withGiven
      dsimp only
      rw [hheld]
    let notices := due.foldl (fun u g => u.generate (.queryDone l (query g).1 .timeout (query g).2 0)) s.notices
    have hended : ((s.expiredTags l).foldl (fun s t => s.expireTag l t) s).modMgr l Manager.giveFreedTags =
        { s.modMgr l (fun m => (m.freed due).giveFreedTags) with notices := notices } := by
      rw [hexpired, State.foldl_expireTag hdue.nodup query fun g hg => hquery g hg]
      exact congrArg (fun t : State => ({ t with notices := notices } : State)) (State.modMgr_modMgr s l _ _)
    rw [event_of_due (event := exec (.requestDeadlineExpiry l)) (due := fun t => !(t.expiredTags l).isEmpty)
      (act := fun t => t.deadlinesIfDue l) (fun _ => rfl) hreset (by simpa [hexpired] using hsome),
      State.deadlinesIfDue_of_state (by rw [hexpired]; exact hsome) hended ?_ rfl]
    · exact congrArg (fun t : State => Host.Outcome.next (noted { t with notices := notices })) (State.modMgr_congr hgiven)
    · show ((s.modMgr l (fun m => (m.freed due).giveFreedTags)).link l).mgr.state = _
      rw [State.modMgr_link_same]
      exact (Manager.giveFreedTags_state _).1
  · intro s l hreset due hno
    have hiff (u : State) : (!(u.expiredTags l).isEmpty) = true ↔ due u := by
      rw [Bool.not_eq_true', List.isEmpty_eq_false_iff_exists_mem]
      exact exists_congr fun g => State.mem_expiredTags
    have hnot (u : State) (h : ¬ due u) : (!(u.expiredTags l).isEmpty) = false := by
      rw [← Bool.not_eq_true, hiff]
      exact h
    obtain ⟨hlater, hnever⟩ := event_of_not_due (event := exec (.requestDeadlineExpiry l)) (fun _ => rfl) hreset (hnot s hno)
    exact ⟨fun hopen hdue => hlater hopen ((hiff _).mpr hdue), fun h => hnever (h.imp_right (hnot _))⟩

end Sys2Proof.Machine
end

section
/-! Host accesses (chapter 9): their words and places, the arbitration, writes to unowned places, and reads. -/

namespace Sys2Proof.Machine

open Sys2Proof

/-! ## The words of an access (R154, R155) -/

theorem State.writeWords_getElem? (s : State) (a : BitVec 28) (ws : List BusWord) (i : Nat) : (s.writeWords a ws)[i]? = (ws[i]?).map (fun w =>
    { addr := a + BitVec.ofNat 28 i, place := s.placeOf (a + BitVec.ofNat 28 i), data := w.data, enables := w.enables }) := by
  induction ws generalizing a i with
  | nil => rfl
  | cons w ws ih =>
    cases i with
    | zero => simp [State.writeWords]
    | succ i =>
      have haddr : a + 1 + BitVec.ofNat 28 i = a + BitVec.ofNat 28 (i + 1) := by bv_omega
      rw [State.writeWords, List.getElem?_cons_succ, ih, haddr]
      rfl

theorem State.mem_writeWords {s : State} {a : BitVec 28} {ws : List BusWord} {x : AccessWord} (h : x ∈ s.writeWords a ws) :
    ∃ i w, ws[i]? = some w ∧ x = { addr := a + BitVec.ofNat 28 i, place := s.placeOf (a + BitVec.ofNat 28 i), data := w.data, enables := w.enables } := by
  obtain ⟨i, hi⟩ := List.mem_iff_getElem?.mp h
  rw [State.writeWords_getElem?, Option.map_eq_some_iff] at hi
  obtain ⟨w, hw, hx⟩ := hi
  exact ⟨i, w, hw, hx.symm⟩

theorem State.writeWords_ne_nil {s : State} {a : BitVec 28} {ws : List BusWord} (h : 1 ≤ ws.length) : s.writeWords a ws ≠ [] := by
  cases ws with
  | nil => simp at h
  | cons w ws => simp [State.writeWords]

theorem accessAddrs_getElem? (a : BitVec 28) (n i : Nat) :
    (accessAddrs a n)[i]? = if i < n then some (a + BitVec.ofNat 28 i) else none := by
  induction n generalizing a i with
  | zero => rfl
  | succ n ih =>
    cases i with
    | zero => simp [accessAddrs]
    | succ i =>
      have haddr : a + 1 + BitVec.ofNat 28 i = a + BitVec.ofNat 28 (i + 1) := by bv_omega
      rw [accessAddrs, List.getElem?_cons_succ, ih, haddr]
      exact if_congr (by omega) rfl rfl

theorem State.readWords_addrs (s : State) (a : BitVec 28) (n : Nat) : (s.readWords a n).map (fun w => w.addr) = accessAddrs a n := by
  simp [State.readWords, Function.comp_def]

theorem Place.owned_iff (p : Place) : p.owned = true ↔ ∃ v, p ∈ ([.statusPage, .noticeRing, .ring v] : List Place) := by
  cases p <;> simp [Place.owned]

/-! ## Places (R154) -/

theorem State.windowWord_byte {s : State} (h : s.windowAligned) {off : Nat} (hoff : off < 65536) (hword : off % 4 = 0) :
    4 * (s.windowWord off).toNat = s.path.windowBase + off := by
  obtain ⟨hbase, hlast⟩ := h
  rw [State.windowWord, BitVec.toNat_ofNat]
  omega

/-- R154: the places of the control window. -/
theorem State.placeOf_windowWord {s : State} (h : s.windowAligned) {off : Nat} (hoff : off < 65536) (hword : off % 4 = 0) :
    s.placeOf (s.windowWord off) = windowPlace off := by
  have hbyte := State.windowWord_byte h hoff hword
  unfold State.placeOf
  rw [hbyte, if_pos (by omega), Nat.add_sub_cancel_left]

theorem windowPlace_word {off : Nat} (hword : off % 4 = 0) : windowPlace off =
    if off < 0x400 then .orderRing else if off = 0x400 then .producerIndex else if off = 0x404 then .consumerIndex
    else if off = 0x408 then .flushWord else if 0x1000 ≤ off ∧ off < 0x1800 then .statusPage
    else if 0x2000 ≤ off ∧ off < 0x2800 then .noticeRing else .windowRest := by
  unfold windowPlace
  by_cases h0 : off < 0x400
  · rw [if_pos h0, if_pos h0]
  by_cases h1 : off = 0x400
  · subst h1; rfl
  by_cases h2 : off = 0x404
  · subst h2; rfl
  by_cases h3 : off = 0x408
  · subst h3; rfl
  rw [if_neg h0, if_neg (by omega), if_neg (by omega), if_neg (by omega), if_neg h0, if_neg h1, if_neg h2, if_neg h3]

/-- R64, R69, R154: a byte address lies in an area of an ENABLED service. -/
def Service.holdsAt (y : Service) (x : Option Area) (addr : Nat) : Prop :=
  y.state = .enabled ∧ ∃ ar, x = some ar ∧ ar.base ≤ addr ∧ addr < ar.base + ar.blocks * (32 + 6400 * y.width)

theorem inArea_iff (a : Area) (w addr : Nat) : inArea a w addr = true ↔ a.base ≤ addr ∧ addr < a.base + a.blocks * (32 + 6400 * w) := by
  unfold inArea areaBytes blockBytes
  rw [Bool.and_eq_true, decide_eq_true_eq, decide_eq_true_eq]

theorem mem_allStreams (n : StreamName) : n ∈ allStreams := by cases n <;> decide

theorem Service.streamAt_eq_some {y : Service} {addr : Nat} {n : StreamName} (h : y.streamAt addr = some n) :
    y.holdsAt (y.areas.get n) addr := by
  unfold Service.streamAt at h
  split at h
  · rename_i henabled
    have hn := List.find?_some h
    refine ⟨henabled, ?_⟩
    cases ha : y.areas.get n with
    | none => rw [ha] at hn; cases hn
    | some a => rw [ha] at hn; exact ⟨a, rfl, (inArea_iff ..).mp hn⟩
  · cases h

theorem Service.streamAt_of_holds {y : Service} {addr : Nat} {n : StreamName} (h : y.holdsAt (y.areas.get n) addr) :
    ∃ n', y.streamAt addr = some n' := by
  obtain ⟨henabled, a, ha, hin⟩ := h
  refine Option.ne_none_iff_exists'.mp fun hnone => ?_
  unfold Service.streamAt at hnone
  rw [if_pos henabled, List.find?_eq_none] at hnone
  have hno := hnone n (mem_allStreams n)
  rw [ha] at hno
  exact hno ((inArea_iff ..).mpr hin)

theorem Service.ringAt_iff {y : Service} {addr : Nat} : y.ringAt addr = true ↔ y.holdsAt y.ring addr := by
  unfold Service.ringAt Service.holdsAt
  cases y.ring with
  | none => simp
  | some a => simp [inArea_iff]

/-- R154: the place of a word by its service. -/
def Service.placeAt (y : Service) (v : ServiceIx) (addr : Nat) : Option Place :=
  match y.streamAt addr with
  | some n => some (.stream v n)
  | none => if y.ringAt addr then some (.ring v) else none

theorem Service.placeAt_stream {y : Service} {v v' : ServiceIx} {addr : Nat} {n : StreamName} (h : y.placeAt v' addr = some (.stream v n)) :
    v' = v ∧ y.holdsAt (y.areas.get n) addr := by
  unfold Service.placeAt at h
  cases hs : y.streamAt addr with
  | none => rw [hs] at h; dsimp only at h; split at h <;> cases h
  | some m =>
    rw [hs] at h
    cases h
    exact ⟨rfl, Service.streamAt_eq_some hs⟩

theorem Service.placeAt_ring {y : Service} {v v' : ServiceIx} {addr : Nat} (h : y.placeAt v' addr = some (.ring v)) :
    v' = v ∧ y.holdsAt y.ring addr := by
  unfold Service.placeAt at h
  cases hs : y.streamAt addr with
  | some m => rw [hs] at h; cases h
  | none =>
    rw [hs] at h
    dsimp only at h
    split at h
    · rename_i hring
      cases h
      exact ⟨rfl, Service.ringAt_iff.mp hring⟩
    · cases h

/-- A service's place is in one of its streams or in its ring. -/
theorem Service.placeAt_cases (y : Service) (v : ServiceIx) (addr : Nat) :
    (∃ n, y.placeAt v addr = some (.stream v n)) ∨ y.placeAt v addr = some (.ring v) ∨
    (y.placeAt v addr = none ∧ (∀ n, ¬ y.holdsAt (y.areas.get n) addr) ∧ ¬ y.holdsAt y.ring addr) := by
  unfold Service.placeAt
  cases hs : y.streamAt addr with
  | some n => exact .inl ⟨n, rfl⟩
  | none =>
    cases hr : y.ringAt addr with
    | true => exact .inr (.inl rfl)
    | false =>
      refine .inr (.inr ⟨rfl, fun n hn => ?_, fun hring => ?_⟩)
      · obtain ⟨n', hn'⟩ := Service.streamAt_of_holds hn
        rw [hs] at hn'
        cases hn'
      · rw [Service.ringAt_iff.mpr hring] at hr
        cases hr

theorem State.placeOf_outside {s : State} {a : BitVec 28} (h : 4 * a.toNat < s.path.windowBase ∨ s.path.windowBase + 65536 ≤ 4 * a.toNat) :
    s.placeOf a = (allServices.findSome? (fun v => (s.service v).placeAt v (4 * a.toNat))).getD .elsewhere := by
  unfold State.placeOf
  rw [if_neg (by omega)]
  rfl

/-- Outside the window a word is in a place of a service, or elsewhere where no service holds it. -/
theorem State.placeOf_outside_cases {s : State} {a : BitVec 28}
    (h : 4 * a.toNat < s.path.windowBase ∨ s.path.windowBase + 65536 ≤ 4 * a.toNat) :
    (∃ v, (s.service v).placeAt v (4 * a.toNat) = some (s.placeOf a)) ∨
    (s.placeOf a = .elsewhere ∧ ∀ v, (s.service v).placeAt v (4 * a.toNat) = none) := by
  rw [State.placeOf_outside h]
  cases hfind : allServices.findSome? (fun v => (s.service v).placeAt v (4 * a.toNat)) with
  | some p =>
    obtain ⟨v, -, hv⟩ := List.exists_of_findSome?_eq_some hfind
    exact .inl ⟨v, hv⟩
  | none => exact .inr ⟨rfl, fun v => List.findSome?_eq_none_iff.mp hfind v (mem_allServices v)⟩

/-! ## Arbitration (R160) -/

section
variable {m : MemPath}

theorem MemPath.hostWaiting_iff : m.hostWaiting = true ↔ ∃ a, m.access = some a ∧ a.standing = .waiting := by
  unfold MemPath.hostWaiting
  cases m.access with
  | none => simp
  | some a => simp

theorem MemPath.arbitrate_of_granted {a : HostAccess} (hport : m.port = .idle) (ha : m.access = some a) (hwaiting : a.standing = .waiting)
    (h : m.queue = [] ∨ m.pressure = false) : m.arbitrate = { m with port := .host, access := some { a with standing := .inMemory } } := by
  have hgrant : (m.hostWaiting && (m.queue.isEmpty || !m.pressure)) = true := by
    rw [MemPath.hostWaiting_iff.mpr ⟨a, ha, hwaiting⟩]
    obtain h | h := h <;> simp [h]
  unfold MemPath.arbitrate MemPath.grantHost
  rw [if_pos hport, if_pos hgrant, ha]
  rfl

theorem MemPath.arbitrate_of_posting (hport : m.port = .idle) (hqueue : m.queue ≠ [])
    (h : (¬ ∃ a, m.access = some a ∧ a.standing = .waiting) ∨ m.pressure = true) : m.arbitrate = { m with port := .posting } := by
  have hno : ¬ (m.hostWaiting && (m.queue.isEmpty || !m.pressure)) = true := by
    obtain h | h := h
    · rw [← MemPath.hostWaiting_iff, Bool.not_eq_true] at h
      simp [h]
    · simp [h, hqueue]
  unfold MemPath.arbitrate
  rw [if_pos hport, if_neg hno, if_neg (by simpa using hqueue)]

theorem MemPath.arbitrate_of_empty (hport : m.port = .idle) (hwaiting : ¬ ∃ a, m.access = some a ∧ a.standing = .waiting)
    (hqueue : m.queue = []) : m.arbitrate = m := by
  rw [← MemPath.hostWaiting_iff, Bool.not_eq_true] at hwaiting
  unfold MemPath.arbitrate
  rw [if_pos hport, if_neg (by simp [hwaiting]), if_pos (by simp [hqueue])]

end

/-! ## Writes and reads (R155, R162, R163) -/

section
variable {s : State} {a : BitVec 28}

theorem accessLengthOk_iff (n : Nat) : accessLengthOk n = true ↔ 1 ≤ n ∧ n ≤ 8 := by simp [accessLengthOk]

theorem exec_hostWrite {ws : List BusWord} (h1 : 1 ≤ ws.length) (h8 : ws.length ≤ 8) : exec (.hostWrite a ws) s = .next (s.hostWrite a ws) :=
  if_pos ((accessLengthOk_iff _).mpr ⟨h1, h8⟩)

theorem exec_hostRead {n : Nat} (h1 : 1 ≤ n) (h8 : n ≤ 8) : exec (.hostRead a n) s = .next (s.hostRead a n) :=
  if_pos ((accessLengthOk_iff _).mpr ⟨h1, h8⟩)

theorem exec_flushWordRead : exec .flushWordRead s = .next (s.hostRead (s.windowWord 0x408) 1) := rfl

/-- R155: a read stands in the part by its release mark. -/
theorem State.hostRead_of_free (hreset : s.path.inReset = false) (hfree : s.path.access = none) (n : Nat) :
    s.hostRead a n = s.withArrival false (s.readWords a n) (standingOf (s.path.readMark (s.readWords a n))) := by
  unfold State.hostRead
  rw [hfree]
  simp only [Option.isSome_none, Bool.false_eq_true, if_false]
  rw [if_neg (by simp [hreset])]
  rfl

theorem MemPath.readMark_of_plain {words : List AccessWord} (h : ∀ w ∈ words, w.place ≠ .flushWord) :
    s.path.readMark words = releaseMark s.path.queue (words.map (fun w => w.addr)) :=
  if_neg (by simpa using h)

/-- R162: a read of words other than the flush word stands as the statements say. -/
theorem State.hostRead_of_stands (hreset : s.path.inReset = false) (hfree : s.path.access = none) {n : Nat} {x : AccessStanding}
    (hplain : ∀ i, i < n → s.placeOf (a + BitVec.ofNat 28 i) ≠ .flushWord) (hx : s.stands (accessAddrs a n) x) :
    s.hostRead a n = s.withArrival false (s.readWords a n) x := by
  have hmark : s.path.readMark (s.readWords a n) = releaseMark s.path.queue (accessAddrs a n) := by
    rw [MemPath.readMark_of_plain, State.readWords_addrs]
    intro w hw
    obtain ⟨b, hb, rfl⟩ := List.mem_map.mp hw
    obtain ⟨i, hi, rfl⟩ := (mem_accessAddrs ..).mp hb
    exact hplain i hi
  rw [State.hostRead_of_free hreset hfree, hmark, State.standingOf_of_stands hx]

theorem MemPath.readMark_of_empty {m : MemPath} (h : m.queue = []) (words : List AccessWord) : m.readMark words = none := by
  unfold MemPath.readMark youngest
  rw [h]
  split <;> rfl

/-- R155: a read on an idle path is granted at once. -/
theorem State.hostRead_of_idle (h : s.pathIdle) (n : Nat) : s.hostRead a n = s.withAccess false (s.readWords a n) := by
  obtain ⟨hreset, hfree, hqueue, hport⟩ := h
  rw [State.hostRead_of_free hreset hfree, MemPath.readMark_of_empty hqueue]
  exact State.withArrival_of_idle s false _ hqueue hport

theorem State.tapWord_of_untapped {x : AccessWord} (h : x.place ∈ ([.flushWord, .windowRest, .elsewhere] : List Place)) : s.tapWord x = s := by
  unfold State.tapWord
  simp only [List.mem_cons, List.not_mem_nil, or_false] at h
  obtain h | h | h := h <;> rw [h]

theorem State.foldl_tapWord_of_untapped {words : List AccessWord}
    (h : ∀ x ∈ words, x.place ∈ ([.flushWord, .windowRest, .elsewhere] : List Place) ∨ x.place.owned = true) :
    words.foldl State.tapWord s = s := by
  induction words with
  | nil => rfl
  | cons x words ih =>
    have hx : s.tapWord x = s := by
      obtain hplain | howned := h x (List.mem_cons_self ..)
      · exact State.tapWord_of_untapped hplain
      · unfold State.tapWord
        obtain ⟨v, hv⟩ := (Place.owned_iff _).mp howned
        simp only [List.mem_cons, List.not_mem_nil, or_false] at hv
        obtain h | h | h := hv <;> rw [h]
    rw [List.foldl_cons, hx]
    exact ih fun y hy => h y (List.mem_cons_of_mem _ hy)

theorem State.stands_waiting_of_empty (h : s.path.queue = []) (addrs : List (BitVec 28)) : s.stands addrs .waiting :=
  .inl ⟨rfl, fun q hq => by rw [h] at hq; cases hq⟩

/-- R155: a write with no owned word, its tapped words taken. -/
theorem State.hostWrite_of_places {ws : List BusWord} {x : AccessStanding} (hreset : s.path.inReset = false) (hfree : s.path.access = none)
    (h1 : 1 ≤ ws.length)
    (hown : ∀ i, i < ws.length → ∀ v, s.placeOf (a + BitVec.ofNat 28 i) ∉ ([.statusPage, .noticeRing, .ring v] : List Place))
    (hx : ((s.writeWords a ws).foldl State.tapWord s).stands ((s.writeWords a ws).map (fun w => w.addr)) x) :
    s.hostWrite a ws = ((s.writeWords a ws).foldl State.tapWord s).withArrival true (s.writeWords a ws) x := by
  refine State.hostWrite_of_unowned hreset hfree (State.writeWords_ne_nil h1) (fun w hw => ?_) rfl hx
  obtain ⟨i, b, hb, rfl⟩ := State.mem_writeWords hw
  rw [← Bool.not_eq_true, Place.owned_iff]
  rintro ⟨v, hv⟩
  exact hown i (List.getElem?_eq_some_iff.mp hb).1 v hv

end

/-- Settles O42. -/
theorem hostAccessesAreGranted : Obligations.HostAccessesAreGranted := by
  refine ⟨fun s hidle => ⟨fun a ws h1 h8 hplaces => ?_, fun a n h1 h8 => ?_, ?_⟩, ?_, fun s a ws n i => ⟨s.writeWords_getElem? a ws i, ?_⟩,
    fun s off haligned hoff hword => ?_, fun s a houtside => ?_, fun m => ?_, fun s a w ws slot word => ?_⟩
  · obtain ⟨hreset, hfree, hqueue, hport⟩ := hidle
    have hplace (x : AccessWord) (hx : x ∈ s.writeWords a ws) : x.place ∈ ([.flushWord, .windowRest, .elsewhere] : List Place) := by
      obtain ⟨i, b, hb, rfl⟩ := State.mem_writeWords hx
      exact hplaces i (List.getElem?_eq_some_iff.mp hb).1
    have htap : (s.writeWords a ws).foldl State.tapWord s = s := State.foldl_tapWord_of_untapped fun x hx => .inl (hplace x hx)
    have hwrite : s.hostWrite a ws = s.withArrival true (s.writeWords a ws) .waiting := by
      have h := State.hostWrite_of_places (a := a) (x := .waiting) hreset hfree h1 (fun i hi v hv => ?_) (by
        rw [htap]
        exact State.stands_waiting_of_empty hqueue _)
      · rwa [htap] at h
      · have hi' := hplaces i hi
        generalize s.placeOf (a + BitVec.ofNat 28 i) = p at hv hi'
        cases p <;> simp at hv hi'
    rw [exec_hostWrite h1 h8, hwrite]
    exact congrArg _ (State.withArrival_of_idle s true _ hqueue hport)
  · rw [exec_hostRead h1 h8, State.hostRead_of_idle hidle]
  · rw [exec_flushWordRead, State.hostRead_of_idle hidle]
  · intro s a ws hreset hfree h1 h8 hown words u x hx
    rw [exec_hostWrite h1 h8]
    exact congrArg _ (State.hostWrite_of_places hreset hfree h1 hown hx)
  · rw [State.readWords, List.getElem?_map, accessAddrs_getElem?]
    split <;> rfl
  · rw [State.placeOf_windowWord haligned hoff hword, windowPlace_word hword]
  · intro inside
    have hcases := State.placeOf_outside_cases houtside
    refine ⟨fun v n hplace => ?_, fun v hplace => ?_, fun ⟨v, hv⟩ => ?_, fun hnone => ?_⟩
    · obtain ⟨v', hv'⟩ | ⟨helse, -⟩ := hcases
      · rw [hplace] at hv'
        obtain ⟨rfl, hin⟩ := Service.placeAt_stream hv'
        exact hin
      · rw [hplace] at helse
        cases helse
    · obtain ⟨v', hv'⟩ | ⟨helse, -⟩ := hcases
      · rw [hplace] at hv'
        obtain ⟨rfl, hin⟩ := Service.placeAt_ring hv'
        exact hin
      · rw [hplace] at helse
        cases helse
    · obtain ⟨v', hv'⟩ | ⟨-, hno⟩ := hcases
      · obtain ⟨n, hn⟩ | hring | ⟨hno, -⟩ := (s.service v').placeAt_cases v' (4 * a.toNat)
        · rw [hv'] at hn
          exact ⟨v', .inl ⟨n, Option.some.inj hn⟩⟩
        · rw [hv'] at hring
          exact ⟨v', .inr (Option.some.inj hring)⟩
        · rw [hv'] at hno
          cases hno
      · obtain ⟨n, hn⟩ | hring | ⟨-, hnoStream, hnoRing⟩ := (s.service v).placeAt_cases v (4 * a.toNat)
        · rw [hno v] at hn
          cases hn
        · rw [hno v] at hring
          cases hring
        · exact hv.elim (fun ⟨n, hn⟩ => absurd hn (hnoStream n)) fun hring => absurd hring hnoRing
    · obtain ⟨v', hv'⟩ | ⟨helse, -⟩ := hcases
      · obtain ⟨hnoStream, hnoRing⟩ := hnone v'
        obtain ⟨n, hn⟩ | hring | ⟨hno, -⟩ := (s.service v').placeAt_cases v' (4 * a.toNat)
        · exact absurd (Service.placeAt_stream hn).2 (hnoStream n)
        · exact absurd (Service.placeAt_ring hring).2 hnoRing
        · rw [hv'] at hno
          cases hno
      · exact helse
  · exact ⟨m.arbitrate_of_busy, MemPath.arbitrate_of_empty, fun a => MemPath.arbitrate_of_granted, MemPath.arbitrate_of_posting⟩
  · refine ⟨rfl, rfl, rfl, rfl, rfl, rfl, rfl, fun hbusy h1 h8 => ?_, fun hlength => ?_, fun n => ⟨fun hbusy h1 h8 => ?_, fun hlength => ?_⟩⟩
    · rw [exec_hostWrite h1 h8, State.hostWrite, if_pos hbusy]
    · refine if_neg fun hok => ?_
      obtain ⟨h1, h8⟩ := (accessLengthOk_iff _).mp hok
      obtain rfl | h := hlength
      · simp at h1
      · omega
    · rw [exec_hostRead h1 h8, State.hostRead, if_pos hbusy]
    · refine if_neg fun hok => ?_
      obtain ⟨h1, h8⟩ := (accessLengthOk_iff _).mp hok
      omega

/-- Settles O43. -/
theorem readsAreHeldBehindPostings : Obligations.ReadsAreHeldBehindPostings := by
  intro s hreset hfree arrived shares
  have hshares (p : Posting) (a : BitVec 28) (n : Nat) : shares p a n ↔ ∃ b, b ∈ accessAddrs a n ∧ p.writes b := by
    simp only [mem_accessAddrs, Posting.writes, shares]
    constructor
    · rintro ⟨i, j, hi, hj, e⟩
      exact ⟨_, ⟨i, hi, rfl⟩, j, hj, e⟩
    · rintro ⟨b, ⟨i, hi, rfl⟩, j, hj, e⟩
      exact ⟨i, j, hi, hj, e⟩
  have hnot (p : Posting) (a : BitVec 28) (n : Nat) (h : ¬ shares p a n) (b : BitVec 28) (hb : b ∈ accessAddrs a n) : ¬ p.writes b :=
    fun hw => h ((hshares p a n).mpr ⟨b, hb, hw⟩)
  refine ⟨fun a n k p h1 h8 hplain hp hmeets hyounger => ?_, fun a n h1 h8 hplain hnone => ?_, fun haligned hqueue => ?_⟩
  · rw [exec_hostRead h1 h8]
    refine congrArg _ (State.hostRead_of_stands hreset hfree hplain (.inr ⟨k, p, rfl, hp, (hshares ..).mp hmeets, fun j q hj hq => ?_⟩))
    exact hnot q a n (hyounger j q hj hq)
  · rw [exec_hostRead h1 h8]
    exact congrArg _ (State.hostRead_of_stands hreset hfree hplain (.inl ⟨rfl, fun q hq => hnot q a n (hnone q hq)⟩))
  · have hplace : s.placeOf (s.windowWord 0x408) = .flushWord := State.placeOf_windowWord haligned (by decide) (by decide)
    have hwords : s.readWords (s.windowWord 0x408) 1 = [{ addr := s.windowWord 0x408, place := .flushWord, data := 0, enables := 0 }] := by
      simp [State.readWords, accessAddrs, hplace]
    have hmark : s.path.readMark [{ addr := s.windowWord 0x408, place := .flushWord, data := 0, enables := 0 }] = some (s.path.queue.length - 1) := by
      simp [MemPath.readMark, youngest, hqueue]
    rw [exec_flushWordRead, State.hostRead_of_free hreset hfree, hwords, hmark]
    rfl

end Sys2Proof.Machine
end

section
/-! The writes that reach a unit: sample words (R73, R75), the notice consumer index (R176), and the owned places (R157). -/

namespace Sys2Proof.Machine

open Sys2Proof

section
variable {s : State} {a : BitVec 28} {w : BusWord}

/-- R155: a single word written to a place that is not owned. -/
theorem State.hostWrite_single {p : Place} {t : State} {x : AccessStanding} (hreset : s.path.inReset = false) (hfree : s.path.access = none)
    (hplace : s.placeOf a = p) (hown : p.owned = false)
    (ht : s.tapWord { addr := a, place := p, data := w.data, enables := w.enables } = t) (hx : t.stands [a] x) :
    s.hostWrite a [w] = t.withArrival true [{ addr := a, place := p, data := w.data, enables := w.enables }] x := by
  have hwords : s.writeWords a [w] = [{ addr := a, place := p, data := w.data, enables := w.enables }] := by
    simp [State.writeWords, hplace]
  rw [← hwords]
  refine State.hostWrite_of_unowned hreset hfree (by simp [hwords]) (by simp [hwords, hown]) ?_ (by rw [hwords]; exact hx)
  rw [hwords]
  exact ht

/-- R162: only the posting queue says where an access stands. -/
theorem State.stands_congr {s t : State} {addrs : List (BitVec 28)} {x : AccessStanding} (hx : s.stands addrs x) (h : t.path = s.path) :
    t.stands addrs x := by
  unfold State.stands
  rw [h]
  exact hx

end

/-! ## Sample words (R73, R75) -/

theorem mergeBytes_getLsbD (old data : Word) (enables : BitVec 4) {i : Nat} (h : i < 32) : (mergeBytes old data enables).getLsbD i =
    if enables.getLsbD (i / 8) = true then data.getLsbD i else old.getLsbD i := by
  unfold mergeBytes
  dsimp only
  simp only [BitVec.getLsbD_append]
  obtain hi | hi | hi | hi : i < 8 ∨ (8 ≤ i ∧ i < 16) ∨ (16 ≤ i ∧ i < 24) ∨ (24 ≤ i ∧ i < 32) := by omega
  · have hbyte : i / 8 = 0 := by omega
    rw [hbyte]
    cases enables.getLsbD 0 <;> simp [hi]
  · have hbyte : i / 8 = 1 := by omega
    have hnot : ¬ i < 8 := by omega
    have hin : i - 8 < 8 := by omega
    have hsum : 8 + (i - 8) = i := by omega
    rw [hbyte]
    cases enables.getLsbD 1 <;> simp [hnot, hin, hsum]
  · have hbyte : i / 8 = 2 := by omega
    have hnot : ¬ i < 8 ∧ ¬ i - 8 < 8 ∧ i - 8 - 8 < 8 := by omega
    have hsum : 16 + (i - 8 - 8) = i := by omega
    rw [hbyte]
    cases enables.getLsbD 2 <;> simp [hnot, hsum]
  · have hbyte : i / 8 = 3 := by omega
    have hnot : ¬ i < 8 ∧ ¬ i - 8 < 8 ∧ ¬ i - 8 - 8 < 8 ∧ i - 8 - 8 - 8 < 8 := by omega
    have hsum : 24 + (i - 8 - 8 - 8) = i := by omega
    rw [hbyte]
    cases enables.getLsbD 3 <;> simp [hnot, hsum]

section
variable {y : Service} {n : StreamName} {r : StreamRec} {ar : Area} {addr : Nat}

/-- R72, R73: a word of a block behind its commit word. -/
theorem Service.takeWord_sampleWord (har : y.areas.get n = some ar) (b : Seq16) (w : BusWord)
    (hpos : ((addr - ar.base) % blockBytes y.width) / 4 ≠ 0) : y.takeWord n b addr w =
      if ((addr - ar.base) % blockBytes y.width) / 4 < 8 then y
      else y.takeSample n ar.blocks ((addr - ar.base) / blockBytes y.width) (((addr - ar.base) % blockBytes y.width) / 4 - 8) w := by
  unfold Service.takeWord
  rw [har]
  exact if_neg hpos

variable (hr : y.streams.get n = some r) (blocks i word : Nat) (w : BusWord)
include hr

theorem Service.takeSample_eq : y.takeSample n blocks i word w =
    if r.open1.seq.toNat % blocks = i ∧ r.open1.committed = false then
      { y with streams := y.streams.set n (some { r with open1 := r.open1.capture word w }) }
    else if r.open2.seq.toNat % blocks = i ∧ r.open2.committed = false then
      { y with streams := y.streams.set n (some { r with open2 := r.open2.capture word w }) }
    else if r.open1.seq.toNat % blocks = i ∨ r.open2.seq.toNat % blocks = i then y.count n .lateWrite
    else y := by
  unfold Service.takeSample sequenceIndex
  rw [hr]
  simp only [Bool.and_eq_true, Bool.or_eq_true, beq_iff_eq, Bool.not_eq_true']

end

/-- Settles O45. -/
theorem sampleWritesAreCaptured : Obligations.SampleWritesAreCaptured := by
  refine ⟨fun old data enables i hi => mergeBytes_getLsbD old data enables hi, ?_⟩
  intro s a w v n y ar r x hreset hfree hx hplace hy har hr _ block i at_ word merged sent
  have hsent : exec (.streamSampleWrite a [w]) s = sent (y.takeWord n s.period (4 * a.toNat) w) := by
    show Host.Outcome.next (s.hostWrite a [w]) = _
    rw [State.hostWrite_streamWord hreset hfree hx hplace, hy]
  have htaken (hpos : at_ ≠ 0) := Service.takeWord_sampleWord (addr := 4 * a.toNat) har s.period w hpos
  refine ⟨fun h1 h8 => ?_, fun h8 => ?_⟩
  · rw [hsent, htaken (by omega)]
    exact congrArg sent (if_pos h8)
  · have hcaptured : exec (.streamSampleWrite a [w]) s = sent (y.takeSample n ar.blocks i word w) := by
      rw [hsent, htaken (by omega)]
      exact congrArg sent (if_neg (by show ¬ at_ < 8; omega))
    rw [hcaptured, Service.takeSample_eq hr]
    refine ⟨fun hi hopen => congrArg sent (if_pos ⟨hi, hopen⟩), fun hno hi hopen => ?_, fun hsome hfirst hsecond => ?_, fun hfirst hsecond => ?_⟩
    · have hnot : ¬ (r.open1.seq.toNat % ar.blocks = i ∧ r.open1.committed = false) := fun h => hno.elim (fun k => k h.1) fun k => by
        rw [h.2] at k
        cases k
      rw [if_neg hnot, if_pos ⟨hi, hopen⟩]
      rfl
    · have hnot1 : ¬ (r.open1.seq.toNat % ar.blocks = i ∧ r.open1.committed = false) := fun h => by
        have := hfirst h.1
        rw [h.2] at this
        cases this
      have hnot2 : ¬ (r.open2.seq.toNat % ar.blocks = i ∧ r.open2.committed = false) := fun h => by
        have := hsecond h.1
        rw [h.2] at this
        cases this
      rw [if_neg hnot1, if_neg hnot2, if_pos hsome]
    · rw [if_neg fun h => hfirst h.1, if_neg fun h => hsecond h.1, if_neg fun h => h.elim hfirst hsecond]

/-! ## The notice consumer index (R176) -/

/-- R175, R176: a consumer index within the posted records. -/
theorem NoticeUnit.takeConsumer_of_posted {u : NoticeUnit} {w : BusWord} (h0 : w.enables.getLsbD 0 = true) (h1 : w.enables.getLsbD 1 = true)
    (h : (w.data.extractLsb' 0 16 - u.consumed).toNat ≤ (u.posted - u.consumed).toNat) : u.takeConsumer w = { u with
      consumed := w.data.extractLsb' 0 16
      holdState := if u.resumeAt ≤ 64 - (u.written - w.data.extractLsb' 0 16).toNat then .normal else u.holdState
      nirq := u.posted != w.data.extractLsb' 0 16 && u.irqEnable } := by
  unfold NoticeUnit.takeConsumer
  rw [if_pos (by rw [h0, h1]; rfl)]
  refine (if_pos h).trans ?_
  unfold NoticeUnit.leaveHold NoticeUnit.refreshIrq NoticeUnit.free
  dsimp only
  cases hstate : u.holdState with
  | normal => simp
  | hold =>
    by_cases hresume : u.resumeAt ≤ 64 - (u.written - w.data.extractLsb' 0 16).toNat
    · rw [if_pos ⟨rfl, hresume⟩, if_pos hresume]
    · rw [if_neg fun k => hresume k.2, if_neg hresume]

/-- Settles O48. -/
theorem consumerIndexWriteFreesSpace : Obligations.ConsumerIndexWriteFreesSpace := by
  intro s w x hreset hfree haligned a hx u c sent
  have hplace : s.placeOf a = .consumerIndex := State.placeOf_windowWord haligned (by decide) (by decide)
  have hsent : exec (.noticeConsumerIndexWrite w) s = sent (s.modNotices (fun u => u.takeConsumer w)) :=
    congrArg _ (State.hostWrite_single hreset hfree hplace rfl rfl (State.stands_congr hx rfl))
  rw [hsent]
  refine ⟨fun hbytes => ?_, fun h0 h1 => ⟨fun hposted => ?_, fun hbeyond => ?_⟩⟩
  · have hsame : u.takeConsumer w = u := if_neg (by rw [Bool.and_eq_true]; exact hbytes)
    exact congrArg (fun v : NoticeUnit => sent { s with notices := v }) hsame
  · exact congrArg (fun v : NoticeUnit => sent { s with notices := v }) (NoticeUnit.takeConsumer_of_posted h0 h1 hposted)
  · have hrejected : u.takeConsumer w = { u with rejected := bump16 u.rejected } :=
      (if_pos (by rw [h0, h1]; rfl)).trans (if_neg (by show ¬ (c - u.consumed).toNat ≤ _; omega))
    exact congrArg (fun v : NoticeUnit => sent { s with notices := v }) hrejected

end Sys2Proof.Machine
end

section
/-! Writes to owned places (R157) and to the order ring (R168 to R172). -/

namespace Sys2Proof.Machine

open Sys2Proof

/-! ## Owned places (R157) -/

section
variable {s : State} {a : BitVec 28} {ws : List BusWord}

theorem State.hostWrite_of_free (hreset : s.path.inReset = false) (hfree : s.path.access = none) :
    s.hostWrite a ws = (((s.writeWords a ws).foldl State.tapWord s).admitWrite (s.writeWords a ws)).arbitrated := by
  unfold State.hostWrite
  rw [hfree, if_neg (by simp), if_neg (by simp [hreset])]

/-- R157: the account of a write whose first owned word is x. -/
theorem MemPath.withhold_of_first {m : MemPath} {words : List AccessWord} {x : AccessWord}
    (h : words.find? (fun y => y.place.owned) = some x) :
    m.withhold words = { m.countOwned x.place with firstOwned := some ((m.countOwned x.place).firstOwned.getD (4 * x.addr.toNat)) } := by
  unfold MemPath.withhold
  rw [h]

/-- R157: a write of which no word is left. -/
theorem State.hostWrite_of_withheld {x : AccessWord} (hreset : s.path.inReset = false) (hfree : s.path.access = none)
    (hall : ∀ y ∈ s.writeWords a ws, y.place.owned = true) (hx : (s.writeWords a ws).head? = some x) :
    s.hostWrite a ws = { s with path := ({ s.path.countOwned x.place with
      firstOwned := some ((s.path.countOwned x.place).firstOwned.getD (4 * x.addr.toNat)) } : MemPath).arbitrate } := by
  have hleft : (s.writeWords a ws).filter (fun y => !y.place.owned) = [] := List.filter_eq_nil_iff.mpr fun y hy => by simp [hall y hy]
  have htap : (s.writeWords a ws).foldl State.tapWord s = s := State.foldl_tapWord_of_untapped fun y hy => .inr (hall y hy)
  have hfirst : (s.writeWords a ws).find? (fun y => y.place.owned) = some x := by
    obtain ⟨rest, hrest⟩ := List.head?_eq_some_iff.mp hx
    rw [hrest] at hall ⊢
    exact List.find?_cons_of_pos (hall x (List.mem_cons_self ..))
  rw [State.hostWrite_of_free hreset hfree, htap, State.admitWrite, hleft]
  simp only [List.isEmpty_nil, if_true, MemPath.withhold_of_first hfirst]
  rfl

/-- R157, R162: a write of which some words are left (log 39). -/
theorem State.hostWrite_of_partly {t : State} {x : AccessStanding} {words left : List AccessWord} (hreset : s.path.inReset = false)
    (hfree : s.path.access = none) (hsome : ∃ y ∈ s.writeWords a ws, y.place.owned = false)
    (ht : ((s.writeWords a ws).foldl State.tapWord s).modPath (fun m => m.withhold (s.writeWords a ws)) = t)
    (hwords : (s.writeWords a ws).map AccessWord.withheld = words)
    (hleft : ∀ y, y ∈ left ↔ y ∈ s.writeWords a ws ∧ y.place.owned = false) (hx : t.stands (left.map (fun y => y.addr)) x) :
    s.hostWrite a ws = t.withArrival true words x := by
  have hmem (y : AccessWord) : y ∈ (s.writeWords a ws).filter (fun y => !y.place.owned) ↔ y ∈ left := by
    rw [List.mem_filter, hleft, Bool.not_eq_true']
  have haddrs (b : BitVec 28) : b ∈ ((s.writeWords a ws).filter (fun y => !y.place.owned)).map (fun y => y.addr) ↔
      b ∈ left.map (fun y => y.addr) := by simp only [List.mem_map, hmem]
  have hstands : t.stands (((s.writeWords a ws).filter (fun y => !y.place.owned)).map (fun y => y.addr)) x := by
    unfold State.stands
    simp only [haddrs]
    exact hx
  have hne : ¬ ((s.writeWords a ws).filter (fun y => !y.place.owned)).isEmpty = true := by
    obtain ⟨y, hy, hown⟩ := hsome
    rw [List.isEmpty_iff]
    exact List.ne_nil_of_mem (List.mem_filter.mpr ⟨hy, by simp [hown]⟩)
  rw [State.hostWrite_of_free hreset hfree, State.admitWrite, if_neg hne, ht, hwords]
  rw [← State.standingOf_of_stands hstands]
  rfl

end

section
variable {s : State} {a : BitVec 28} {ws : List BusWord} {i : Nat}

theorem State.writeWords_length (s : State) (a : BitVec 28) (ws : List BusWord) : (s.writeWords a ws).length = ws.length := by
  induction ws generalizing a with
  | nil => rfl
  | cons w ws ih => simp [State.writeWords, ih]

theorem State.writeWords_at (h : i < ws.length) : (s.writeWords a ws)[i]? = some
    { addr := a + BitVec.ofNat 28 i, place := s.placeOf (a + BitVec.ofNat 28 i), data := ws[i].data, enables := ws[i].enables } := by
  rw [State.writeWords_getElem?, List.getElem?_eq_getElem h]
  rfl

end

/-- R157: the places whose writes are withheld, by their names. -/
theorem Place.owned_eq_false_iff (p : Place) :
    p.owned = false ↔ ¬ ∃ v, p ∈ ([.statusPage, .noticeRing, .ring v] : List Place) := by
  rw [← Place.owned_iff, Bool.not_eq_true]

theorem exec_ownedAreaWrite {s : State} {a : BitVec 28} {ws : List BusWord} (h1 : 1 ≤ ws.length) (h8 : ws.length ≤ 8) :
    exec (.ownedAreaWrite a ws) s = .next (s.hostWrite a ws) := if_pos ((accessLengthOk_iff _).mpr ⟨h1, h8⟩)

/-- Settles O44. -/
theorem ownedWritesAreWithheld : Obligations.OwnedWritesAreWithheld := by
  intro s a ws hreset hfree h1 h8 first
  have hwhole (p : Place) (hp : p.owned = true) (hall : ∀ i, i < ws.length → s.placeOf (a + BitVec.ofNat 28 i) = p) :
      exec (.ownedAreaWrite a ws) s = .next { s with
        path := ({ s.path.countOwned p with firstOwned := some ((s.path.countOwned p).firstOwned.getD (4 * a.toNat)) } : MemPath).arbitrate } := by
    have hhead : (s.writeWords a ws).head? = some { addr := a, place := p, data := ws[0].data, enables := ws[0].enables } := by
      rw [List.head?_eq_getElem?, State.writeWords_at (by omega), hall 0 (by omega)]
      simp
    rw [exec_ownedAreaWrite h1 h8, State.hostWrite_of_withheld hreset hfree (fun y hy => ?_) hhead]
    obtain ⟨i, b, hb, rfl⟩ := State.mem_writeWords hy
    dsimp only
    rw [hall i (List.getElem?_eq_some_iff.mp hb).1]
    exact hp
  refine ⟨fun hall => hwhole .statusPage rfl hall, fun hall => hwhole .noticeRing rfl hall, fun v hall => hwhole (.ring v) rfl hall, ?_, ?_⟩
  · intro k hqueue hport hk hpos hring hplain
    have hplace (i : Nat) (hi : i < ws.length) : (s.placeOf (a + BitVec.ofNat 28 i)).owned = decide (i < k) := by
      by_cases hik : i < k
      · rw [hring i hik, decide_eq_true hik]
        rfl
      · have h := hplain i (by omega) hi
        rw [decide_eq_false hik]
        generalize s.placeOf (a + BitVec.ofNat 28 i) = p at h
        simp only [List.mem_cons, List.not_mem_nil, or_false] at h
        obtain rfl | rfl := h <;> rfl
    have htap : (s.writeWords a ws).foldl State.tapWord s = s := by
      refine State.foldl_tapWord_of_untapped fun y hy => ?_
      obtain ⟨i, b, hb, rfl⟩ := State.mem_writeWords hy
      have hi := (List.getElem?_eq_some_iff.mp hb).1
      by_cases hik : i < k
      · exact .inr ((hplace i hi).trans (decide_eq_true hik))
      · exact .inl (List.mem_cons_of_mem _ (hplain i (by omega) hi))
    have hfirst : (s.writeWords a ws).find? (fun y => y.place.owned) =
        some { addr := a, place := .noticeRing, data := ws[0].data, enables := ws[0].enables } := by
      have hzero : (s.writeWords a ws)[0]? = some { addr := a, place := .noticeRing, data := ws[0].data, enables := ws[0].enables } := by
        rw [State.writeWords_at (by omega), hring 0 hpos]
        simp
      obtain ⟨h0, hx⟩ := List.getElem?_eq_some_iff.mp hzero
      exact List.find?_eq_some_iff_getElem.mpr ⟨rfl, 0, h0, hx, fun j hj => absurd hj (Nat.not_lt_zero j)⟩
    have hwords : (s.writeWords a ws).map AccessWord.withheld =
        ((s.writeWords a ws).take k).map (fun x => { x with enables := 0 }) ++ (s.writeWords a ws).drop k := by
      conv_lhs => rw [← List.take_append_drop k (s.writeWords a ws), List.map_append]
      congr 1
      · refine List.map_congr_left fun y hy => ?_
        obtain ⟨i, hi⟩ := List.mem_iff_getElem?.mp hy
        rw [List.getElem?_take] at hi
        split at hi
        · rename_i hik
          rw [State.writeWords_at (by omega)] at hi
          have howned : y.place.owned = true := by
            rw [← Option.some.inj hi]
            exact (hplace i (by omega)).trans (decide_eq_true hik)
          exact if_pos howned
        · cases hi
      · refine (List.map_congr_left fun y hy => ?_).trans (List.map_id _)
        obtain ⟨i, hi⟩ := List.mem_iff_getElem?.mp hy
        rw [List.getElem?_drop] at hi
        have hlen := (List.getElem?_eq_some_iff.mp hi).1
        rw [State.writeWords_length] at hlen
        rw [State.writeWords_at hlen] at hi
        have hunowned : y.place.owned = false := by
          rw [← Option.some.inj hi]
          exact (hplace (k + i) hlen).trans (decide_eq_false (by omega))
        exact if_neg (ne_true_of_eq_false hunowned)
    have hwrite := State.hostWrite_of_partly (left := (s.writeWords a ws).filter (fun y => !y.place.owned)) (x := .waiting) hreset hfree
      ⟨_, List.mem_of_getElem? (State.writeWords_at hk), (hplace k hk).trans (decide_eq_false (by omega))⟩ rfl hwords
      (fun y => by rw [List.mem_filter, Bool.not_eq_true']) (State.stands_waiting_of_empty (by rw [htap]; exact
        (by simp only [MemPath.withhold_of_first hfirst]; exact hqueue : (s.modPath (fun m => m.withhold (s.writeWords a ws))).path.queue = [])) _)
    rw [exec_ownedAreaWrite h1 h8, hwrite, htap]
    simp only [MemPath.withhold_of_first hfirst]
    exact congrArg _ (State.withArrival_of_idle _ true _ hqueue hport)
  · intro k at_ own hk hown hlow hsome u t words left x hpage hring huplink hlength hwords hleft hx
    have howned (i : Nat) : (s.placeOf (at_ i)).owned = true ↔ own i := Place.owned_iff _
    have hfirst : (s.writeWords a ws).find? (fun y => y.place.owned) =
        some { addr := at_ k, place := s.placeOf (at_ k), data := ws[k].data, enables := ws[k].enables } := by
      obtain ⟨hlt, hxk⟩ := List.getElem?_eq_some_iff.mp (State.writeWords_at (s := s) (a := a) hk)
      refine List.find?_eq_some_iff_getElem.mpr ⟨(howned k).mpr hown, k, hlt, hxk, fun j hj => ?_⟩
      have hjk := List.getElem?_eq_getElem (l := s.writeWords a ws) (i := j) (by omega)
      rw [State.writeWords_at (by omega)] at hjk
      rw [← Option.some.inj hjk, Bool.not_eq_true', ← Bool.not_eq_true]
      exact fun h => hlow j hj ((howned j).mp h)
    have ht : u.modPath (fun m => m.withhold (s.writeWords a ws)) = t := by
      simp only [MemPath.withhold_of_first hfirst]
      obtain ⟨v, hv⟩ := hown
      simp only [List.mem_cons, List.not_mem_nil, or_false] at hv
      obtain hp | hp | hp := hv
      · rw [hpage hp, hp]
        rfl
      · rw [hring hp, hp]
        rfl
      · rw [huplink v hp, hp]
        rfl
    have hmapped : (s.writeWords a ws).map AccessWord.withheld = words := by
      refine List.ext_getElem? fun i => ?_
      rw [List.getElem?_map]
      by_cases hi : i < ws.length
      · have hat := State.writeWords_at (s := s) (a := a) hi
        obtain ⟨hyes, hno⟩ := hwords i _ hat
        rw [hat]
        by_cases hoi : own i
        · rw [hyes hoi]
          exact congrArg some (if_pos ((howned i).mpr hoi))
        · rw [hno hoi]
          exact congrArg some (if_neg fun h => hoi ((howned i).mp h))
      · rw [List.getElem?_eq_none (by rw [State.writeWords_length]; omega), List.getElem?_eq_none (by omega)]
        rfl
    have hfalse (i : Nat) (w : AccessWord) (hw : (s.writeWords a ws)[i]? = some w) : w.place.owned = false ↔ ¬ own i := by
      have hi := (List.getElem?_eq_some_iff.mp hw).1
      rw [State.writeWords_length] at hi
      rw [State.writeWords_at hi] at hw
      rw [← Option.some.inj hw, ← howned, Bool.not_eq_true]
    have hleftIff (y : AccessWord) : y ∈ left ↔ y ∈ s.writeWords a ws ∧ y.place.owned = false := by
      rw [hleft]
      constructor
      · rintro ⟨i, hi, hno⟩
        exact ⟨List.mem_of_getElem? hi, (hfalse i y hi).mpr hno⟩
      · rintro ⟨hy, hno⟩
        obtain ⟨i, hi⟩ := List.mem_iff_getElem?.mp hy
        exact ⟨i, hi, (hfalse i y hi).mp hno⟩
    rw [exec_ownedAreaWrite h1 h8]
    obtain ⟨i, hi, hno⟩ := hsome
    refine congrArg _ (State.hostWrite_of_partly hreset hfree ?_ ht hmapped hleftIff hx)
    exact ⟨_, List.mem_of_getElem? (State.writeWords_at hi), (hfalse i _ (State.writeWords_at hi)).mpr hno⟩

end Sys2Proof.Machine
end

section
/-! Writes to the order ring (R168 to R172). -/

namespace Sys2Proof.Machine

open Sys2Proof

section
variable {u : OrderUnit} {w : BusWord} {slot : Fin 32} {word : Fin 8}

theorem OrderUnit.frozen_iff : u.frozen slot = true ↔ (slot - u.consumer).val < (u.producer - u.consumer).val := decide_eq_true_iff

theorem slotWord_offset (slot : Fin 32) (word : Fin 8) : Fin.ofNat 32 ((32 * slot.val + 4 * word.val) / 32) = slot ∧
    (32 * slot.val + 4 * word.val) % 32 / 4 = word.val := by
  refine ⟨Fin.ext ?_, by omega⟩
  rw [Fin.val_ofNat]
  omega

/-- R169: word k of a slot merged into the shadow. -/
def OrderUnit.withWord (u : OrderUnit) (slot : Fin 32) (k : Nat) (hk : k < 7) (w : BusWord) : OrderUnit :=
  { u with shadow := u.shadow.set slot (u.shadow[slot].set k (mergeBytes u.shadow[slot][k] w.data w.enables)) }

theorem OrderUnit.takeSlotWord_eq (off : Nat) : u.takeSlotWord off w =
    if h : off % 32 / 4 < 7 then
      if u.frozen (Fin.ofNat 32 (off / 32)) then u else u.withWord (Fin.ofNat 32 (off / 32)) (off % 32 / 4) h w
    else u := rfl

/-- R169: a word of an order that is not pending is merged into the shadow. -/
theorem OrderUnit.takeSlotWord_of_open {i : Fin 7} (hi : i.val = word.val) (h : (u.producer - u.consumer).val ≤ (slot - u.consumer).val) :
    u.takeSlotWord (32 * slot.val + 4 * word.val) w =
      { u with shadow := u.shadow.set slot (u.shadow[slot].set i (mergeBytes u.shadow[slot][i] w.data w.enables)) } := by
  obtain ⟨hslot, hword⟩ := slotWord_offset slot word
  have hopen : ¬ u.frozen slot = true := fun k => by
    rw [OrderUnit.frozen_iff] at k
    omega
  replace hword := hword.trans hi.symm
  rw [OrderUnit.takeSlotWord_eq]
  generalize Fin.ofNat 32 ((32 * slot.val + 4 * word.val) / 32) = slot' at hslot
  generalize (32 * slot.val + 4 * word.val) % 32 / 4 = k at hword
  subst hslot hword
  rw [dif_pos i.isLt, if_neg hopen]
  rfl

/-- R169: word 7 of a slot, and a slot of a pending order, are not written. -/
theorem OrderUnit.takeSlotWord_of_frozen (h : word = 7 ∨ (slot - u.consumer).val < (u.producer - u.consumer).val) :
    u.takeSlotWord (32 * slot.val + 4 * word.val) w = u := by
  obtain ⟨hslot, hword⟩ := slotWord_offset slot word
  rw [OrderUnit.takeSlotWord_eq]
  generalize Fin.ofNat 32 ((32 * slot.val + 4 * word.val) / 32) = slot' at hslot
  subst hslot
  split
  · rename_i h7
    refine if_pos (OrderUnit.frozen_iff.mpr (h.resolve_left fun e => ?_))
    rw [hword, e] at h7
    exact absurd h7 (by decide)
  · rfl

end

section
variable {s : State} {w : BusWord} {p : Fin 32}

theorem State.takeProducerWord_eq (h0 : w.enables.getLsbD 0 = true) (hp : p.val = (w.data.extractLsb' 0 5).toNat) :
    s.takeProducerWord w = s.takeProducer p := by
  have hofNat : Fin.ofNat 32 (fieldAt w.data 0 5) = p := by
    refine Fin.ext ?_
    rw [Fin.val_ofNat, fieldAt, ← hp]
    omega
  unfold State.takeProducerWord
  rw [if_pos h0, hofNat]

theorem State.takeNext_of_executing (h : s.orders.executing.isSome = true) : s.takeNext = s := by
  obtain ⟨x, hx⟩ := Option.isSome_iff_exists.mp h
  refine if_neg ?_
  rw [hx]
  simp

/-- R171: an order taken with 64 entries queued keeps its result posting. -/
theorem State.execute_of_full (slot : Fin 32) (o : Order) (h : 64 ≤ s.path.queue.length) :
    s.execute slot o = { (takeByCode o s).1 with
      orders := { s.orders with executing := some slot, result := some (resultPosting s.path.windowBase slot (takeByCode o s).2 o.tag) }
      path := s.path } := by
  obtain ⟨-, hpath, horders, -⟩ := (takeByCode_edits s o).frame
  have hfull : ¬ s.path.hasRoom = true := by
    rw [s.path.hasRoom_iff]
    omega
  unfold State.execute State.handResult
  simp only [State.modOrders_path, hpath, hfull]
  rw [← horders, ← hpath]
  rfl

/-- R172: a result by its kind and code. -/
theorem resultPosting_eq {r : OrderResult} {kind code : BitVec 8} (hkind : r.resultBits = kind) (hcode : r.codeBits = code) (base : Nat)
    (slot : Fin 32) (tag : BitVec 16) :
    resultPosting base slot r tag = { producer := .orderUnit, addr := base + 32 * slot.val + 28, words := [.bits (tag ++ code ++ kind)] } := by
  rw [← hkind, ← hcode]
  rfl

end

/-- Settles O47. -/
theorem orderRingWritesAreTapped : Obligations.OrderRingWritesAreTapped := by
  refine ⟨?_, fun s c o hidle hc => exec_order hidle hc, fun ws => rfl, ?_⟩
  · intro s w hreset hfree haligned u pendingNow sent
    refine ⟨?_, ?_⟩
    · intro slot word x a hx
      have hoff : 32 * slot.val + 4 * word.val < 65536 := by omega
      have hmod : (32 * slot.val + 4 * word.val) % 4 = 0 := by omega
      have hplace : s.placeOf a = .orderRing := (State.placeOf_windowWord haligned hoff hmod).trans (if_pos (by omega))
      have hbyte : 4 * a.toNat - s.path.windowBase = 32 * slot.val + 4 * word.val := by
        rw [State.windowWord_byte haligned hoff hmod]
        omega
      have hsent : exec (.orderSlotWrite slot word [w]) s =
          sent (s.modOrders (fun u => u.takeSlotWord (32 * slot.val + 4 * word.val) w)) a .orderRing x := by
        rw [show exec (.orderSlotWrite slot word [w]) s = .next (s.hostWrite a [w]) from rfl]
        refine congrArg Host.Outcome.next (State.hostWrite_single hreset hfree hplace rfl ?_ (State.stands_congr hx rfl))
        exact congrArg (fun off => s.modOrders (fun u => u.takeSlotWord off w)) hbyte
      rw [hsent]
      refine ⟨fun i hi hopen => ?_, fun hfrozen => ?_⟩
      · exact congrArg (fun v : OrderUnit => sent { s with orders := v } a .orderRing x) (OrderUnit.takeSlotWord_of_open hi hopen)
      · exact congrArg (fun v : OrderUnit => sent { s with orders := v } a .orderRing x) (OrderUnit.takeSlotWord_of_frozen hfrozen)
    · intro p hp a ahead
      have hplace : s.placeOf a = .producerIndex := State.placeOf_windowWord haligned (by decide) (by decide)
      have hsent {t : State} {x : AccessStanding} (ht : s.takeProducerWord w = t) (hx : t.stands [a] x) :
          exec (.orderProducerIndexWrite w) s = sent t a .producerIndex x :=
        congrArg _ (State.hostWrite_single hreset hfree hplace rfl ht hx)
      refine ⟨fun x hx => ⟨fun h0 => ?_, fun h0 hmore hexecuting => ?_, fun h0 hsame => ?_, fun h0 hfewer => ?_⟩, fun h0 hmore hidle => ?_⟩
      · exact hsent (if_neg (ne_true_of_eq_false h0)) hx
      · refine hsent ?_ (State.stands_congr hx rfl)
        rw [State.takeProducerWord_eq h0 hp, State.takeProducer_of_ahead hmore]
        exact State.takeNext_of_executing hexecuting
      · refine hsent ?_ hx
        rw [State.takeProducerWord_eq h0 hp]
        exact (if_neg (by show ¬ pendingNow < ahead; omega)).trans (if_pos hsame)
      · refine hsent ?_ (State.stands_congr hx rfl)
        rw [State.takeProducerWord_eq h0 hp]
        exact (if_neg (by show ¬ pendingNow < ahead; omega)).trans (if_neg (by show ¬ ahead = pendingNow; omega))
      · intro o r result taken
        have htake : s.takeProducerWord w = (s.modOrders (fun u => { u with producer := p })).execute u.consumer o := by
          rw [State.takeProducerWord_eq h0 hp, State.takeProducer_of_ahead hmore]
          exact State.takeNext_of_pending hidle (OrderUnit.frozen_iff.mpr (by rw [sub_self]; show 0 < ahead; omega))
        refine ⟨fun x hroom hx => hsent ?_ hx, fun x hfull hx => hsent ?_ (State.stands_congr hx rfl)⟩
        · rw [htake, State.execute_of_room u.consumer o (by exact hroom)]
          rfl
        · rw [htake, State.execute_of_full u.consumer o (by exact hfull)]
          rfl
  · intro base slot r tag kind code h
    have hword : r.resultBits = kind ∧ r.codeBits = code := by
      simp only [List.mem_cons, Prod.mk.injEq, List.not_mem_nil, or_false] at h
      rcases h with ⟨rfl, rfl, rfl⟩ | ⟨rfl, rfl, rfl⟩ | ⟨rfl, rfl, rfl⟩ | ⟨rfl, rfl, rfl⟩ | ⟨rfl, rfl, rfl⟩ | ⟨rfl, rfl, rfl⟩ |
        ⟨rfl, rfl, rfl⟩ | ⟨rfl, rfl, rfl⟩ | ⟨rfl, rfl, rfl⟩ | ⟨rfl, rfl, rfl⟩ | ⟨rfl, rfl, rfl⟩ | ⟨rfl, rfl, rfl⟩ |
        ⟨rfl, rfl, rfl⟩ | ⟨rfl, rfl, rfl⟩ | ⟨rfl, rfl, rfl⟩ <;> exact ⟨rfl, rfl⟩
    exact resultPosting_eq hword.1 hword.2 base slot tag

end Sys2Proof.Machine
end

section
/-! The producers' hand-over of postings (R148, R149, R159, R161, R177) and the notice unit's decisions (R173 to R175). -/

namespace Sys2Proof.Machine

open Sys2Proof

/-! ## The producers (R159) -/

theorem MemPath.push_eq (m : MemPath) (p : Posting) : m.push p = { m with
    queue := m.queue ++ [p]
    pressure := m.pressure || decide (m.queue.length = 47)
    pressureEntries := if m.pressure = false ∧ m.queue.length = 47 then bump16 m.pressureEntries else m.pressureEntries
    largest := if m.largest ≤ m.queue.length then m.queue.length + 1 else m.largest } := by
  have hturns : (!m.pressure && m.queue.length + 1 == 48) = (!m.pressure && decide (m.queue.length = 47)) := by
    by_cases h : m.queue.length = 47 <;> simp [h]
  have hlargest : max m.largest (m.queue.length + 1) = if m.largest ≤ m.queue.length then m.queue.length + 1 else m.largest := by
    split <;> omega
  unfold MemPath.push
  dsimp only
  rw [hturns, hlargest]
  cases m.pressure <;> simp

/-- R174: the notice unit once a record has been handed over. -/
theorem NoticeUnit.recordHanded_eq (u : NoticeUnit) (n : Notice) (k : Nat) : u.recordHanded n k = { u with
    written := u.written + 1
    handing := if k + 1 < n.records then some (n, k + 1) else none
    holdState := if 64 - (u.written + 1 - u.consumed).toNat ≤ u.holdAt then .hold else u.holdState } := by
  have hhanding : (if n.records ≤ k + 1 then none else some (n, k + 1)) = if k + 1 < n.records then some (n, k + 1) else none := by
    by_cases h : k + 1 < n.records
    · rw [if_pos h, if_neg (by omega)]
    · rw [if_neg h, if_pos (by omega)]
  unfold NoticeUnit.recordHanded NoticeUnit.enterHold NoticeUnit.free
  rw [hhanding]
  dsimp only
  by_cases hlow : 64 - (u.written + 1 - u.consumed).toNat ≤ u.holdAt
  · cases hstate : u.holdState with
    | normal => rw [if_pos ⟨rfl, hlow⟩, if_pos hlow]
    | hold => rw [if_neg (fun h => nomatch h.1), if_pos hlow]
  · rw [if_neg fun h => hlow h.2, if_neg hlow]

section
variable {s : State}

theorem exec_postingEnqueue (hreset : s.path.inReset = false) (p : Producer) :
    exec (.postingEnqueue p) s = .next (s.enqueueFrom p).arbitrated := State.running_of_released _ _ hreset

theorem State.enqueueFrom_of_full (h : 64 ≤ s.path.queue.length) (p : Producer) : s.enqueueFrom p = s :=
  if_neg (by rw [s.path.hasRoom_iff]; omega)

section
variable (hroom : s.path.queue.length < 64)
include hroom

theorem State.enqueueFrom_orderUnit {x : Posting} (hx : s.orders.result = some x) : s.enqueueFrom .orderUnit =
    { s with orders := { s.orders with result := none }, path := s.path.push x } := by
  refine (if_pos (s.path.hasRoom_iff.mpr hroom)).trans ?_
  show s.handWaitingResult = _
  unfold State.handWaitingResult
  rw [hx]
  rfl

/-- R174: a record of the notice being handed over goes to the posting queue. -/
theorem State.handRecord_eq {n : Notice} {k : Nat} (h : s.notices.handing = some (n, k)) : s.handRecord =
    { s with notices := s.notices.recordHanded n k, path := s.path.push (n.posting k s.notices.written s.path) } := by
  unfold State.handRecord
  rw [h]
  exact if_pos (s.path.hasRoom_iff.mpr hroom)

theorem State.enqueueFrom_noticeUnit {n : Notice} {k : Nat} (h : s.notices.handing = some (n, k)) : s.enqueueFrom .noticeUnit =
    { s with notices := s.notices.recordHanded n k, path := s.path.push (n.posting k s.notices.written s.path) } :=
  (if_pos (s.path.hasRoom_iff.mpr hroom)).trans (State.handRecord_eq hroom h)

theorem State.enqueueFrom_statusPoster {page : Page} (h : s.poster.page = some page) : s.enqueueFrom .statusPoster =
    { s with
      poster := { s.poster with page := if page.handed < 63 then some { page with handed := page.handed + 1 } else none }
      path := s.path.push { producer := .statusPoster, addr := s.path.windowBase + 0x1000 + 32 * page.handed
                            words := (page.words.drop (8 * page.handed)).take 8 } } := by
  have hpage : (if 64 ≤ page.handed + 1 then none else some { page with handed := page.handed + 1 }) =
      if page.handed < 63 then some { page with handed := page.handed + 1 } else none := by
    by_cases hlt : page.handed < 63
    · rw [if_pos hlt, if_neg (by omega)]
    · rw [if_neg hlt, if_pos (by omega)]
  refine (if_pos (s.path.hasRoom_iff.mpr hroom)).trans ?_
  show s.handPage = _
  unfold State.handPage State.pagePosting State.pageHanded
  rw [h, ← hpage]
  dsimp only [Option.map_some]
  rw [show (s.modPath (fun m => m.push _)).poster = s.poster from rfl, h]
  rfl

theorem State.enqueueFrom_combiner {b : WorkBlock} {rest : List WorkBlock} {ring : Area} (h : s.combiner.workList = b :: rest)
    (hring : (s.service b.service).ring = some ring) : s.enqueueFrom .combiner =
    { s with
      combiner := { s.combiner with workList :=
        if b.handed < 200 * (s.service b.service).width then { b with handed := b.handed + 1 } :: rest else rest }
      path := s.path.push (b.posting ring (s.service b.service).width b.handed) } := by
  refine (if_pos (s.path.hasRoom_iff.mpr hroom)).trans ?_
  have hposting : s.combinerPosting = some (b.posting ring (s.service b.service).width b.handed) := by
    unfold State.combinerPosting
    rw [h]
    dsimp only
    rw [hring]
    rfl
  show s.handBlock = _
  unfold State.handBlock
  rw [hposting]
  dsimp only
  unfold State.combinerHanded
  rw [show (s.modPath (fun m => m.push (b.posting ring (s.service b.service).width b.handed))).combiner = s.combiner from rfl, h]
  rfl

end

end

/-- Settles O50. -/
theorem postingEnqueueHandsOver : Obligations.PostingEnqueueHandsOver := by
  refine ⟨MemPath.push_eq, fun s hreset => ⟨fun hroom => ⟨fun x hx => ?_, fun n k h => ?_, fun page h => ?_, fun b rest ring h hring => ?_⟩,
    fun p hfull => ?_⟩⟩
  · rw [exec_postingEnqueue hreset, State.enqueueFrom_orderUnit hroom hx]
    rfl
  · rw [exec_postingEnqueue hreset, State.enqueueFrom_noticeUnit hroom h, NoticeUnit.recordHanded_eq]
    rfl
  · rw [exec_postingEnqueue hreset, State.enqueueFrom_statusPoster hroom h]
    rfl
  · intro w at0
    rw [exec_postingEnqueue hreset, State.enqueueFrom_combiner hroom h hring]
    refine ⟨fun hmore => ?_, fun hlast => ?_⟩
    · rw [if_pos hmore, show b.posting ring (s.service b.service).width b.handed = _ from if_pos hmore]
      rfl
    · have hnot : ¬ b.handed < 200 * (s.service b.service).width := by show ¬ b.handed < 200 * w; omega
      rw [if_neg hnot, show b.posting ring (s.service b.service).width b.handed = _ from if_neg hnot]
      rfl
  · rw [exec_postingEnqueue hreset, State.enqueueFrom_of_full hfull]
    rfl

/-! ## Notices (R173, R174, 10.5) -/

section
variable (n : Notice)

theorem Notice.urgent_iff : n.urgent = true ↔ n.intoFault = true ∨ 10 ≤ n.kindCode := by
  cases n <;> simp [Notice.urgent, Notice.intoFault, Notice.kindCode]

theorem Notice.lostIx_val : n.lostIx.val = if n.intoFault then 12 else n.kindCode - 1 := by
  unfold Notice.lostIx
  cases hfault : n.intoFault with
  | true => rfl
  | false => cases n <;> rfl

theorem Notice.records_of_single (h7 : n.kindCode ≠ 7) (h9 : n.kindCode ≠ 9) : n.records = 1 := by
  cases n with
  | stream => exact absurd rfl h7
  | ownedWrite => exact absurd rfl h9
  | _ => rfl

/-- 10.5: the fields of word 0 of a record. -/
theorem header_fields (records : BitVec 3) (k : BitVec 2) (urgent : Bool) (kind : BitVec 8) (q : BitVec 16) :
    let h : Word := BitVec.ofNat 2 0 ++ records ++ k ++ BitVec.ofBool urgent ++ kind ++ q
    h.extractLsb' 0 16 = q ∧ h.extractLsb' 16 8 = kind ∧ h.getLsbD 24 = urgent ∧ h.extractLsb' 25 2 = k ∧
      h.extractLsb' 27 3 = records ∧ h.extractLsb' 30 2 = 0 := by
  intro h
  have hbit (i : Nat) : h.getLsbD i = if i < 16 then q.getLsbD i else if i < 24 then kind.getLsbD (i - 16) else if i < 25 then urgent
      else if i < 27 then k.getLsbD (i - 25) else if i < 30 then records.getLsbD (i - 27) else false := by
    have hzero : BitVec.getLsbD (BitVec.ofNat 2 0) = fun _ => false := funext fun j => by simp
    simp only [h, BitVec.getLsbD_append, hzero, Nat.sub_sub]
    by_cases h16 : i < 16
    · rw [if_pos h16, if_pos h16]
    by_cases h24 : i < 24
    · rw [if_neg h16, if_neg h16, if_pos (show i - 16 < 8 by omega), if_pos h24]
    by_cases h25 : i < 25
    · have he : i = 24 := by omega
      subst he
      cases urgent <;> rfl
    by_cases h27 : i < 27
    · rw [if_neg h16, if_neg h16, if_neg (show ¬ i - 16 < 8 by omega), if_neg h24, if_neg (show ¬ i - (16 + 8) < 1 by omega), if_neg h25,
        if_pos (show i - (16 + 8 + 1) < 2 by omega), if_pos h27]
    · rw [if_neg h16, if_neg h16, if_neg (show ¬ i - 16 < 8 by omega), if_neg h24, if_neg (show ¬ i - (16 + 8) < 1 by omega), if_neg h25,
        if_neg (show ¬ i - (16 + 8 + 1) < 2 by omega), if_neg h27]
      exact if_congr (by omega) rfl rfl
  refine ⟨?_, ?_, ?_, ?_, ?_, ?_⟩
  · ext i hi
    rw [BitVec.getElem_extractLsb', hbit, if_pos (by omega), Nat.zero_add, BitVec.getLsbD_eq_getElem hi]
  · ext i hi
    rw [BitVec.getElem_extractLsb', hbit, if_neg (by omega), if_pos (by omega), Nat.add_sub_cancel_left, BitVec.getLsbD_eq_getElem hi]
  · rw [hbit]
    rfl
  · ext i hi
    rw [BitVec.getElem_extractLsb', hbit, if_neg (by omega), if_neg (by omega), if_neg (by omega), if_pos (by omega), Nat.add_sub_cancel_left,
      BitVec.getLsbD_eq_getElem hi]
  · ext i hi
    rw [BitVec.getElem_extractLsb', hbit, if_neg (by omega), if_neg (by omega), if_neg (by omega), if_neg (by omega), if_pos (by omega),
      Nat.add_sub_cancel_left, BitVec.getLsbD_eq_getElem hi]
  · ext i hi
    rw [BitVec.getElem_extractLsb', hbit, if_neg (by omega), if_neg (by omega), if_neg (by omega), if_neg (by omega), if_neg (by omega)]
    simp

end

section
variable {s : State} {u : NoticeUnit}

theorem NoticeUnit.owed_iff : u.owed = true ↔ u.holdState = .normal ∧ ∃ k : Fin 13, u.lost[k] ≠ 0 := by
  unfold NoticeUnit.owed
  rw [Bool.and_eq_true, beq_iff_eq, List.any_eq_true]
  refine and_congr_right fun _ => ⟨fun ⟨x, hx, hne⟩ => ?_, fun ⟨k, hk⟩ => ⟨u.lost[k], ?_, by simpa using hk⟩⟩
  · obtain ⟨k, hk, rfl⟩ := Vector.mem_iff_getElem.mp (Vector.mem_toList_iff.mp hx)
    exact ⟨⟨k, hk⟩, by simpa using hne⟩
  · exact Vector.mem_toList_iff.mpr (Vector.getElem_mem _)

theorem NoticeUnit.admits_iff (n : Notice) : u.admits n = true ↔
    n.records ≤ 64 - (u.written - u.consumed).toNat ∧ (u.holdState = .normal ∨ n.urgent = true) := by
  unfold NoticeUnit.admits NoticeUnit.free
  rw [Bool.and_eq_true, decide_eq_true_eq, Bool.or_eq_true, beq_iff_eq]

/-- R174: the head of the internal queue is decided where nothing is handed over and no NOTICES_LOST owed. -/
theorem State.noticeHandover_of_head {n : Notice} {rest : List Notice} (hfree : s.notices.handing = none) (howed : ¬ s.notices.owed = true)
    (hqueue : s.notices.queue = n :: rest) : s.noticeHandover = (s.modNotices (fun u => u.decide n rest)).handRecord := by
  unfold State.noticeHandover
  rw [if_neg (by simpa [hfree] using howed), hqueue]

end

/-- Settles O51. -/
theorem noticeHandoverTakesOrLoses : Obligations.NoticeHandoverTakesOrLoses := by
  refine ⟨?_, ?_⟩
  · intro n intoFault kind
    have hfault : intoFault = n.intoFault := by cases n <;> rfl
    have hkind : kind = n.kindCode := by cases n <;> rfl
    clear_value intoFault kind
    subst hfault hkind
    refine ⟨n.urgent_iff, fun u k hne hk => ⟨fun hroom => if_pos hroom, fun hfull => ?_, Fin.ext (n.lostIx_val.trans hk.symm)⟩,
      n.records_of_single, fun v disabled reports h hnormal => ?_, fun page ring uplinks first h => ?_, fun k q hk hrecords => ?_⟩
    · have hix : n.lostIx = k := Fin.ext (n.lostIx_val.trans hk.symm)
      rw [← hix]
      exact if_neg (by omega)
    · subst h
      obtain ⟨r, hr⟩ := Option.isSome_iff_exists.mp hnormal
      have hlength : (reportList reports).length = 1 + (if reports.a.isSome then 1 else 0) + (if reports.b.isSome then 1 else 0) := by
        unfold reportList allStreams PerStream.get
        rw [List.filterMap_cons_some (b := (.normal, r)) (by simp [hr])]
        cases reports.a <;> cases reports.b <;> rfl
      show max 1 (reportList reports).length = _
      omega
    · subst h
      have hrecords : (Notice.ownedWrite page ring uplinks first).records = if uplinks.length ≤ 5 then 1 else 1 + (uplinks.length + 1) / 7 := rfl
      rw [hrecords]
      split <;> omega
    · obtain ⟨hseq, hcode, hurgent, hrecord, hcount, hrest⟩ :=
        header_fields (BitVec.ofNat 3 n.records) (BitVec.ofNat 2 k) n.urgent (BitVec.ofNat 8 n.kindCode) q
      have hheader : n.header k q = BitVec.ofNat 2 0 ++ BitVec.ofNat 3 n.records ++ BitVec.ofNat 2 k ++ BitVec.ofBool n.urgent ++
          BitVec.ofNat 8 n.kindCode ++ q := rfl
      have hsmall : n.kindCode < 256 := by cases n <;> exact Nat.lt_of_sub_eq_succ rfl
      rw [hheader, hseq, hcode, hurgent, hrecord, hcount, hrest]
      refine ⟨rfl, Nat.mod_eq_of_lt hsmall, rfl, Nat.mod_eq_of_lt (by omega), Nat.mod_eq_of_lt (by omega), rfl⟩
  · intro s hreset hfree hroom u lost after record
    have howed : u.owed = true ↔ lost := NoticeUnit.owed_iff
    have hhandover : exec .noticeHandover s = .next s.noticeHandover.arbitrated := State.running_of_released _ _ hreset
    have hrecord (v : NoticeUnit) (n : Notice) (h : v.handing = some (n, 0)) : ({ s with notices := v } : State).handRecord =
        { s with notices := v.recordHanded n 0, path := s.path.push (n.posting 0 v.written s.path) } :=
      State.handRecord_eq (s := { s with notices := v }) hroom h
    refine ⟨fun n rest hno hqueue hfits hadmitted => ?_, fun n rest hno hqueue hrefused => ?_, fun hlost hspace => ?_⟩
    · have hadmits : u.admits n = true := (NoticeUnit.admits_iff n).mpr ⟨hfits, hadmitted⟩
      have hdecided : s.modNotices (fun u => u.decide n rest) = { s with notices := { u with queue := rest, handing := some (n, 0) } } :=
        congrArg (fun v : NoticeUnit => ({ s with notices := v } : State)) (if_pos hadmits)
      rw [hhandover, State.noticeHandover_of_head hfree (fun h => hno (howed.mp h)) hqueue, hdecided, hrecord _ n rfl, NoticeUnit.recordHanded_eq]
      rfl
    · have hadmits : ¬ u.admits n = true := by
        rw [NoticeUnit.admits_iff]
        rintro ⟨hfits, hadmitted⟩
        obtain hmany | ⟨hhold, hroutine⟩ := hrefused
        · omega
        · rw [hhold, hroutine] at hadmitted
          exact hadmitted.elim (fun e => nomatch e) fun e => nomatch e
      have hdecided : s.modNotices (fun u => u.decide n rest) =
          { s with notices := { u with queue := rest, lost := u.lost.set n.lostIx (bump16 u.lost[n.lostIx]) } } :=
        congrArg (fun v : NoticeUnit => ({ s with notices := v } : State)) (if_neg hadmits)
      have hnone (v : NoticeUnit) (h : v.handing = none) : ({ s with notices := v } : State).handRecord = { s with notices := v } := by
        unfold State.handRecord
        rw [show ({ s with notices := v } : State).notices = v from rfl, h]
      rw [hhandover, State.noticeHandover_of_head hfree (fun h => hno (howed.mp h)) hqueue, hdecided, hnone { u with queue := rest, lost := u.lost.set n.lostIx (bump16 u.lost[n.lostIx]) } hfree]
      rfl
    · have hlosing : exec .noticesLost s = .next s.noticesLost.arbitrated := State.running_of_released _ _ hreset
      have htaken : s.noticesLost = (s.modNotices (fun u => { u with
          handing := some (.noticesLost u.lost, 0), lost := Vector.replicate 13 0 })).handRecord := by
        refine if_pos ?_
        rw [howed.mpr hlost, hfree]
        exact decide_eq_true hspace
      rw [hlosing, htaken, State.modNotices, hrecord _ (.noticesLost u.lost) rfl, NoticeUnit.recordHanded_eq]
      exact congrArg (fun h : Option (Notice × Nat) => Host.Outcome.next ((s.modNotices (fun u => { u with
        written := u.written + 1, lost := Vector.replicate 13 0, holdState := after, handing := h })).plusPosting s
          (record (.noticesLost u.lost)))) hfree.symm

end Sys2Proof.Machine
end

section
/-! Completions at the memory port (R155, R159 to R162) and RESET (R165, R166). -/

namespace Sys2Proof.Machine

open Sys2Proof

/-! ## Completions (R159 to R162) -/

section
variable {s : State}

theorem exec_memoryPortCompletion : exec .memoryPortCompletion s = .next s.completePort.arbitrated := rfl

theorem MemPath.headDone_eq {m : MemPath} {p : Posting} {rest : List Posting} (h : m.queue = p :: rest) : m.headDone = { m with
    queue := rest, port := .idle, pressure := m.pressure && decide (rest.length ≠ 16)
    access := m.access.map (fun a => { a with standing := a.standing.afterHead }) } := by
  have hcount : (m.queue.length - 1 != 16) = decide (rest.length ≠ 16) := by
    rw [h, List.length_cons, Nat.add_sub_cancel]
    by_cases hr : rest.length = 16 <;> simp [hr]
  unfold MemPath.headDone
  rw [hcount, h]
  rfl

/-- R159: the part once its head posting has completed and been reported. -/
def State.headReported (s : State) (p : Posting) : State := (s.modPath MemPath.headDone).reportCompletion p.producer

theorem exec_completion_of_posting {p : Posting} {rest : List Posting} (hport : s.path.port = .posting) (hqueue : s.path.queue = p :: rest) :
    exec .memoryPortCompletion s = .next
      (if rest.length < 63 then s.headReported p else (s.headReported p).serve).arbitrated := by
  have hcomplete : s.completePort = s.completeHead p := by
    unfold State.completePort
    rw [hport, hqueue]
  have hroom : s.path.hasRoom = true ↔ rest.length < 63 := by
    rw [s.path.hasRoom_iff, hqueue, List.length_cons]
    omega
  rw [exec_memoryPortCompletion, hcomplete]
  unfold State.completeHead
  simp only [hroom]
  rfl

/-- R162 (log 11): the release mark of a HELD access is the entry under way. -/
theorem exec_heldAccessRelease {a : HostAccess} (hport : s.path.port = .posting) (ha : s.path.access = some a) (hheld : a.standing = .held 0) :
    exec .heldAccessRelease s = exec .memoryPortCompletion s := by
  have hrelease : s.releaseHeld = s.completePort := by
    unfold State.releaseHeld
    rw [ha]
    dsimp only
    rw [hheld]
    exact if_pos ⟨rfl, hport⟩
  show Host.Outcome.next s.releaseHeld.arbitrated = _
  rw [hrelease]
  rfl

theorem State.hasPosting_iff (p : Producer) : s.hasPosting p = true ↔ match p with
    | .orderUnit => s.orders.result.isSome = true
    | .noticeUnit => s.notices.handing.isSome = true
    | .statusPoster => s.poster.page.isSome = true
    | .combiner => ∃ b more ring, s.combiner.workList = b :: more ∧ (s.service b.service).ring = some ring := by
  cases p with
  | combiner =>
    show s.combinerPosting.isSome = true ↔ _
    unfold State.combinerPosting
    cases hwork : s.combiner.workList with
    | nil => simp
    | cons b more =>
      dsimp only
      cases hring : (s.service b.service).ring with
      | none => simp [hring]
      | some ring => simp [hring]
  | _ => exact Iff.rfl

theorem State.serve_of_first {before after : List Producer} {q : Producer} (hrank : producerRank = before ++ q :: after)
    (hq : s.hasPosting q = true) (hbefore : ∀ q' ∈ before, ¬ s.hasPosting q' = true) : s.serve = s.enqueueFrom q := by
  unfold State.serve
  have hfind : producerRank.find? s.hasPosting = some q :=
    List.find?_eq_some_iff_append.mpr ⟨hq, before, after, hrank, fun q' hq' => by simpa using hbefore q' hq'⟩
  rw [hfind]

theorem mem_producerRank (q : Producer) : q ∈ producerRank := by cases q <;> decide

theorem State.serve_of_none (h : ∀ q, ¬ s.hasPosting q = true) : s.serve = s := by
  unfold State.serve
  rw [List.find?_eq_none.mpr fun q _ => h q]

theorem State.serve_of_full (h : 64 ≤ s.path.queue.length) : s.serve = s := by
  unfold State.serve
  split
  · exact State.enqueueFrom_of_full h _
  · rfl

end

/-- Settles O49. -/
theorem memoryPortCompletionEndsAccess : Obligations.MemoryPortCompletionEndsAccess := by
  intro s
  have hwhole (m : MemPath) (h : s.completePort = s.modPath (fun _ => m)) : exec .memoryPortCompletion s = .next { s with path := m.arbitrate } := by
    rw [exec_memoryPortCompletion, h]
    rfl
  refine ⟨fun hport => hwhole _ ?_, fun p hport => hwhole _ ?_, fun hport => hwhole s.path ?_, fun p rest hport hqueue => ?_⟩
  · unfold State.completePort
    rw [hport]
    rfl
  · unfold State.completePort
    rw [hport]
    rfl
  · unfold State.completePort
    rw [hport]
    rfl
  · intro left silent
    have hleft : s.path.headDone = left := by
      rw [MemPath.headDone_eq hqueue]
      have hstanding (a : HostAccess) : a.standing.afterHead = (match a.standing with
          | .held 0 => .waiting
          | .held (k + 1) => .held k
          | .waiting => .waiting
          | .inMemory => .inMemory : AccessStanding) := by
        cases a.standing with
        | held k => cases k <;> rfl
        | _ => rfl
      simp only [hstanding] <;> rfl
    have hexec := exec_completion_of_posting hport hqueue
    have hreported : s.headReported p = ({ s with path := left } : State).reportCompletion p.producer :=
      congrArg (fun m : MemPath => ({ s with path := m } : State).reportCompletion p.producer) hleft
    have hsilent (h : silent) : s.headReported p = { s with path := left } := by
      rw [hreported]
      obtain h | h := h <;> rw [h] <;> rfl
    have hnotice (h : p.producer = .noticeUnit) : s.headReported p = { s with
        path := left
        notices := { s.notices with posted := s.notices.posted + 1
                                    nirq := s.notices.posted + 1 != s.notices.consumed && s.notices.irqEnable } } := by
      rw [hreported, h]
      rfl
    have horder (h : p.producer = .orderUnit) : s.headReported p =
        ({ s with path := left, orders := { s.orders with executing := none, consumer := s.orders.consumer + 1 } } : State).takeNext := by
      rw [hreported, h]
      rfl
    have horderLast (h : p.producer = .orderUnit) (hlast : s.orders.producer = s.orders.consumer + 1) : s.headReported p =
        { s with path := left, orders := { s.orders with executing := none, consumer := s.orders.consumer + 1 } } := by
      rw [horder h]
      refine if_neg fun hpending => ?_
      rw [Bool.and_eq_true, OrderUnit.frozen_iff] at hpending
      have hzero : (s.orders.producer - (s.orders.consumer + 1)).val = 0 := by rw [hlast, sub_self]; rfl
      exact absurd (hzero ▸ hpending.2) (Nat.not_lt_zero _)
    have hqueueLeft : left.queue = rest := rfl
    refine ⟨fun hroom h => ?_, fun hroom h => ?_, fun hroom h hlast => ?_, fun hroom h hmore => ?_, fun x hfull h hx => ?_, ?_,
      fun a hroom h ha hheld => ?_, fun a ha hheld => exec_heldAccessRelease hport ha hheld⟩
    · rw [hexec, if_pos hroom, hsilent h]
      rfl
    · rw [hexec, if_pos hroom, hnotice h]
      rfl
    · rw [hexec, if_pos hroom, horderLast h hlast]
      rfl
    · intro next o r
      have hpending : 0 < (s.orders.producer - next).val :=
        Nat.pos_of_ne_zero fun hzero => hmore (sub_eq_zero.mp (Fin.ext hzero))
      have htaken : s.headReported p = { r.1 with
          path := left.push (resultPosting s.path.windowBase next r.2 o.tag)
          orders := { s.orders with executing := some next, consumer := next } } := by
        rw [horder h, State.takeNext_of_pending rfl (OrderUnit.frozen_iff.mpr (by rw [sub_self]; exact hpending))]
        exact State.execute_of_room next o (by show rest.length < 64; omega)
      have hserved : (if rest.length < 63 then s.headReported p else (s.headReported p).serve) = s.headReported p := by
        by_cases hlt : rest.length < 63
        · exact if_pos hlt
        · refine (if_neg hlt).trans (State.serve_of_full ?_)
          rw [htaken]
          show 64 ≤ (rest ++ [_]).length
          rw [List.length_append, List.length_singleton]
          omega
      rw [hexec, hserved, htaken]
      rfl
    · have hserve : ({ s with path := left } : State).serve = ({ s with path := left } : State).enqueueFrom .orderUnit :=
        State.serve_of_first (before := []) rfl (by show s.orders.result.isSome = true; rw [hx]; rfl) fun q' hq' => nomatch hq'
      rw [hexec, if_neg (by omega), hsilent h, hserve,
        State.enqueueFrom_orderUnit (s := { s with path := left }) (by show rest.length < 64; omega) hx]
      rfl
    · intro has hfull hreset t hsilentT hnoticeT horderT
      have ht : s.headReported p = t := by
        cases hp : p.producer with
        | orderUnit => rw [horderLast hp (horderT hp).1, (horderT hp).2]
        | noticeUnit => rw [hnotice hp, hnoticeT hp]
        | statusPoster => rw [hsilent (.inl hp), hsilentT (.inl hp)]
        | combiner => rw [hsilent (.inr hp), hsilentT (.inr hp)]
      have hkept : t.path = left ∧ t.orders.result = s.orders.result ∧ t.notices.handing = s.notices.handing ∧ t.poster = s.poster ∧
          t.combiner = s.combiner ∧ t.services = s.services := by
        cases hp : p.producer with
        | orderUnit => rw [(horderT hp).2]; exact ⟨rfl, rfl, rfl, rfl, rfl, rfl⟩
        | noticeUnit => rw [hnoticeT hp]; exact ⟨rfl, rfl, rfl, rfl, rfl, rfl⟩
        | statusPoster => rw [hsilentT (.inl hp)]; exact ⟨rfl, rfl, rfl, rfl, rfl, rfl⟩
        | combiner => rw [hsilentT (.inr hp)]; exact ⟨rfl, rfl, rfl, rfl, rfl, rfl⟩
      obtain ⟨hpath, hresult, hhanding, hposter, hcombiner, hservices⟩ := hkept
      have hhas (q : Producer) : t.hasPosting q = true ↔ has q := by
        rw [State.hasPosting_iff]
        unfold State.service
        rw [hresult, hhanding, hposter, hcombiner, hservices] <;> cases q <;> rfl
      have hcompleted : exec .memoryPortCompletion s = .next t.serve.arbitrated := by rw [hexec, if_neg (by omega), ht]
      refine ⟨fun before q after hrank hq hbefore => ?_, fun hnone => ?_⟩
      · rw [hcompleted, State.serve_of_first hrank ((hhas q).mpr hq) fun q' hq' h => hbefore q' hq' ((hhas q').mp h),
          exec_postingEnqueue (by rw [hpath]; exact hreset)]
      · rw [hcompleted, State.serve_of_none fun q h => hnone q ((hhas q).mp h), State.arbitrated, State.modPath, hpath]
    · rw [exec_heldAccessRelease hport ha hheld, hexec, if_pos hroom, hsilent h]
      have haccess : left.access = some { a with standing := .waiting } := by
        show s.path.access.map _ = _
        rw [ha]
        simp [hheld]
      rw [← haccess]
      rfl

/-! ## RESET (R165, R166) -/

theorem State.running_of_reset {s t : State} (h : s.path.inReset = true) : s.running t = .next s := by simp [State.running, h]

theorem MemPath.arbitrate_frame (m : MemPath) : m.arbitrate = { m with port := m.arbitrate.port, access := m.arbitrate.access } := by
  unfold MemPath.arbitrate MemPath.grantHost
  split_ifs <;> rfl

/-- Settles O52. -/
theorem resetEmptiesAndRestores : Obligations.ResetEmptiesAndRestores := by
  intro s
  refine ⟨⟨_, rfl, ?_⟩, fun straps hreset => ?_, fun straps hreleased => ?_, ?_, ?_⟩
  · obtain ⟨hqueue, hport, hinReset⟩ : s.path.asserted.queue = [] ∧ s.path.asserted.port = s.path.portAtAssert ∧ s.path.asserted.inReset = true :=
      ⟨rfl, rfl, rfl⟩
    have haccess : s.path.asserted.access = s.path.access.map (fun a => { a with standing := a.standing.unheld }) := rfl
    have hframe := s.path.asserted.arbitrate_frame
    refine ⟨congrArg MemPath.inReset hframe, congrArg MemPath.queue hframe, congrArg MemPath.pressure hframe, congrArg MemPath.ownedPage hframe,
      congrArg MemPath.ownedRing hframe, fun v => ?_, congrArg MemPath.firstOwned hframe, fun p rest hposting hq => ?_, fun hhost => ?_,
      fun hidle hnone => ?_, fun hnone => ?_, fun a ha => ?_, rfl, rfl, rfl, rfl, rfl, rfl, rfl, rfl⟩
    · have howned : s.path.asserted.arbitrate.ownedUplink = Vector.replicate 24 0 := congrArg MemPath.ownedUplink hframe
      show s.path.asserted.arbitrate.ownedUplink[v] = 0
      rw [howned]
      simp
    · have horphan : s.path.asserted.port = .orphan p := by
        rw [hport, MemPath.portAtAssert, hposting, hq]
      show s.path.asserted.arbitrate.port = _
      rw [MemPath.arbitrate_of_busy _ (by rw [horphan]; exact Port.noConfusion), horphan]
    · have hkept : s.path.asserted.port = .host := by
        rw [hport, MemPath.portAtAssert, hhost]
      show s.path.asserted.arbitrate.port = _
      rw [MemPath.arbitrate_of_busy _ (by rw [hkept]; exact Port.noConfusion), hkept]
    · have hkept : s.path.asserted.port = .idle := by
        rw [hport, MemPath.portAtAssert, hidle]
      show s.path.asserted.arbitrate.port = _
      rw [MemPath.arbitrate_of_empty hkept (by rw [haccess, hnone]; simp) hqueue, hkept]
    · have hstays : s.path.asserted.access = none := by rw [haccess, hnone]; rfl
      show s.path.asserted.arbitrate.access = _
      by_cases hkept : s.path.asserted.port = .idle
      · rw [MemPath.arbitrate_of_empty hkept (by rw [hstays]; simp) hqueue, hstays]
      · rw [MemPath.arbitrate_of_busy _ hkept, hstays]
    · have hsome : s.path.asserted.access = some { a with standing := a.standing.unheld } := by rw [haccess, ha]; rfl
      have hunheld (k : Nat) : a.standing.unheld ≠ .held k := by cases a.standing <;> exact AccessStanding.noConfusion
      by_cases hgranted : s.path.asserted.port = .idle ∧ a.standing.unheld = .waiting
      · have hgrant := MemPath.arbitrate_of_granted hgranted.1 hsome hgranted.2 (Or.inl hqueue)
        exact ⟨{ a with standing := .inMemory }, congrArg MemPath.access hgrant, rfl, rfl, fun k => AccessStanding.noConfusion,
          fun _ _ => ⟨congrArg MemPath.port hgrant, rfl⟩⟩
      · have hkept : s.path.asserted.arbitrate = s.path.asserted := by
          by_cases hidle : s.path.asserted.port = .idle
          · refine MemPath.arbitrate_of_empty hidle (fun ⟨b, hb, hwaiting⟩ => hgranted ⟨hidle, ?_⟩) hqueue
            rw [hsome] at hb
            rw [← Option.some.inj hb] at hwaiting
            exact hwaiting
          · exact MemPath.arbitrate_of_busy _ hidle
        refine ⟨{ a with standing := a.standing.unheld }, (congrArg MemPath.access hkept).trans hsome, rfl, rfl, hunheld, fun hidle hnot => ?_⟩
        refine absurd ⟨?_, ?_⟩ hgranted
        · rw [hport, MemPath.portAtAssert, hidle]
        · cases hstanding : a.standing with
          | inMemory => exact absurd hstanding hnot
          | _ => rfl
  · refine (congrArg Host.Outcome.next (if_pos hreset)).trans ?_
    unfold State.resetReleased MemPath.released
    rw [Nat.mul_comm 65536]
    rfl
  · exact congrArg Host.Outcome.next (if_neg (ne_true_of_eq_false hreleased))
  · intro access passing hreset hfree
    refine ⟨fun a ws h1 h8 => ?_, fun a n h1 h8 => ?_⟩
    · rw [exec_hostWrite h1 h8, State.hostWrite, hfree, if_neg (by simp), if_pos hreset]
      rfl
    · rw [exec_hostRead h1 h8, State.hostRead, hfree, if_neg (by simp)]
      dsimp only
      rw [if_pos hreset]
      rfl
  · intro c acts hreset hinert
    cases c with
    | uplinkFrameArrival l f =>
      have hok : frameOk f = true := (Bool.not_eq_false' ..).mp hinert
      exact (if_pos hok).trans (State.running_of_reset hreset)
    | resetAssert | resetRelease | orderSlotWrite | orderProducerIndexWrite | noticeConsumerIndexWrite | flushWordRead | commitWordWrite
    | streamSampleWrite | ownedAreaWrite | hostWrite | hostRead | heldAccessRelease | memoryPortCompletion =>
      exact Bool.noConfusion (show true = false from hinert)
    | _ => exact State.running_of_reset hreset

end Sys2Proof.Machine
end

section
/-! Samples and lanes: components of a packed sample (R59, R133), what a store of written indices holds, and the lanes a zone's plan
builds (R81, R82, R133). -/

namespace Sys2Proof.Machine

open Sys2Proof

/-! ## Components -/

theorem sampleI_range (w : Word) : -32768 ≤ sampleI w ∧ sampleI w ≤ 32767 := by
  unfold sampleI
  have h1 := BitVec.le_toInt (w.extractLsb' 0 16)
  have h2 := BitVec.toInt_lt (x := w.extractLsb' 0 16)
  omega

theorem sampleQ_range (w : Word) : -32768 ≤ sampleQ w ∧ sampleQ w ≤ 32767 := by
  unfold sampleQ
  have h1 := BitVec.le_toInt (w.extractLsb' 16 16)
  have h2 := BitVec.toInt_lt (x := w.extractLsb' 16 16)
  omega

theorem toInt_ofInt_of_range {i : Int} (h : -32768 ≤ i ∧ i ≤ 32767) : (BitVec.ofInt 16 i).toInt = i := by
  rw [BitVec.toInt_ofInt, Int.bmod_eq_of_le] <;> omega

theorem sampleI_packSample {i : Int} (h : -32768 ≤ i ∧ i ≤ 32767) (q : Int) : sampleI (packSample i q) = i := by
  rw [sampleI, packSample, BitVec.extractLsb'_append_eq_right, toInt_ofInt_of_range h]

theorem sampleQ_packSample (i : Int) {q : Int} (h : -32768 ≤ q ∧ q ≤ 32767) : sampleQ (packSample i q) = q := by
  rw [sampleQ, packSample, BitVec.extractLsb'_append_eq_left, toInt_ofInt_of_range h]

/-- A property of both components of a sample. -/
theorem forall_component {p : (Word → Int) → Prop} (hi : p sampleI) (hq : p sampleQ) :
    ∀ component, component ∈ ([sampleI, sampleQ] : List (Word → Int)) → p component := by
  intro component hmem
  obtain rfl | rfl : component = sampleI ∨ component = sampleQ := by simpa using hmem
  · exact hi
  · exact hq

theorem component_onComponents {f : Int → Int → Int} {x y : Word}
    (h : ∀ a b : Int, (-32768 ≤ a ∧ a ≤ 32767) → (-32768 ≤ b ∧ b ≤ 32767) → -32768 ≤ f a b ∧ f a b ≤ 32767) :
    ∀ component, component ∈ ([sampleI, sampleQ] : List (Word → Int)) → component (onComponents f x y) = f (component x) (component y) :=
  forall_component (sampleI_packSample (h _ _ (sampleI_range x) (sampleI_range y)) _)
    (sampleQ_packSample _ (h _ _ (sampleQ_range x) (sampleQ_range y)))

/-- A weighted mean, rounded, of two 16-bit numbers is one. -/
theorem weighted_range {n k : Int} (hk : 0 ≤ k) (hkn : k ≤ n) (hn : 0 < n) {c : Int} (hc : 0 ≤ c) (hcn : c < n) {a b : Int}
    (ha : -32768 ≤ a ∧ a ≤ 32767) (hb : -32768 ≤ b ∧ b ≤ 32767) :
    -32768 ≤ (a * (n - k) + b * k + c) / n ∧ (a * (n - k) + b * k + c) / n ≤ 32767 := by
  have h1 : -32768 * (n - k) ≤ a * (n - k) := Int.mul_le_mul_of_nonneg_right ha.1 (by omega)
  have h2 : a * (n - k) ≤ 32767 * (n - k) := Int.mul_le_mul_of_nonneg_right ha.2 (by omega)
  have h3 : -32768 * k ≤ b * k := Int.mul_le_mul_of_nonneg_right hb.1 hk
  have h4 : b * k ≤ 32767 * k := Int.mul_le_mul_of_nonneg_right hb.2 hk
  exact ⟨(Int.le_ediv_iff_mul_le hn).mpr (by omega), Int.lt_add_one_iff.mp ((Int.ediv_lt_iff_lt_mul hn).mpr (by omega))⟩

theorem crossfade_range {j : Nat} (hj : j < 1600) {a b : Int} (ha : -32768 ≤ a ∧ a ≤ 32767) (hb : -32768 ≤ b ∧ b ≤ 32767) :
    -32768 ≤ crossfade j a b ∧ crossfade j a b ≤ 32767 :=
  weighted_range (n := 1600) (k := j) (by omega) (by omega) (by omega) (by omega) (by omega) ha hb

/-! ## Stores -/

theorem sampleAt_of_unlisted {x : Samples} {n : Nat} (h : n ∉ x.map (fun e => e.1)) : sampleAt x n = 0 := by
  induction x with
  | nil => rfl
  | cons e rest ih =>
    rw [List.map_cons, List.mem_cons, not_or] at h
    rw [sampleAt, if_neg h.1]
    exact ih h.2

section
variable (place : Nat → Nat) (value : Nat → Word)

theorem samplesWf_foldl_placed (indices : List Nat) {x : Samples} (h : samplesWf x = true) :
    samplesWf (indices.foldl (fun acc n => setSample acc (place n) (value n)) x) = true :=
  foldl_induct (fun x => samplesWf x = true) _ (fun _ _ hx => samplesWf_setSample hx _ _) indices x h

/-- Writes at injective places: what stands at one of them. -/
theorem sampleAt_foldl_placed (hplace : ∀ n m, place n = place m → n = m) (indices : List Nat) {x : Samples} (h : samplesWf x = true)
    (n : Nat) : sampleAt (indices.foldl (fun acc n => setSample acc (place n) (value n)) x) (place n) =
      if n ∈ indices then value n else sampleAt x (place n) := by
  induction indices generalizing x with
  | nil => rfl
  | cons k rest ih =>
    rw [List.foldl_cons, ih (samplesWf_setSample h _ _), sampleAt_setSample h]
    by_cases hr : n ∈ rest
    · rw [if_pos hr, if_pos (List.mem_cons_of_mem _ hr)]
    · by_cases hk : n = k
      · rw [if_neg hr, if_pos (congrArg place hk), if_pos (hk ▸ List.mem_cons_self), hk]
      · rw [if_neg hr, if_neg fun e => hk (hplace _ _ e), if_neg fun hin => (List.mem_cons.mp hin).elim hk hr]

/-- Writes elsewhere leave an index. -/
theorem sampleAt_foldl_elsewhere (indices : List Nat) {x : Samples} (h : samplesWf x = true) {m : Nat} (hm : ∀ n ∈ indices, place n ≠ m) :
    sampleAt (indices.foldl (fun acc n => setSample acc (place n) (value n)) x) m = sampleAt x m := by
  induction indices generalizing x with
  | nil => rfl
  | cons k rest ih =>
    rw [List.foldl_cons, ih (samplesWf_setSample h _ _) fun n hn => hm n (List.mem_cons_of_mem _ hn), sampleAt_setSample h,
      if_neg (Ne.symm (hm k List.mem_cons_self))]

end

/-! ## Lane places -/

/-- R81: where sample word n of an entry's service stands in its zone's lanes. -/
def Entry.laneIndex (e : Entry) (n : Nat) : Nat := 32 * (n / e.width) + e.first + n % e.width

section
variable {e : Entry} (hwidth : 1 ≤ e.width) (hfits : e.first + e.width ≤ 32)
include hwidth hfits

theorem Entry.laneIndex_iff (n j lane : Nat) (hlane : lane < 32) :
    e.laneIndex n = 32 * j + lane ↔ n / e.width = j ∧ e.first + n % e.width = lane := by
  have hmod := Nat.mod_lt n hwidth
  unfold Entry.laneIndex
  omega

theorem Entry.laneIndex_injective (n m : Nat) (h : e.laneIndex n = e.laneIndex m) : n = m := by
  have hmod := Nat.mod_lt m hwidth
  obtain ⟨hdiv, hrem⟩ := (Entry.laneIndex_iff hwidth hfits n (m / e.width) (e.first + m % e.width) (by omega)).mp
    (by rw [h, Entry.laneIndex, Nat.add_assoc])
  rw [← Nat.div_add_mod n e.width, ← Nat.div_add_mod m e.width, hdiv, show n % e.width = m % e.width by omega]

end

theorem Entry.laneIndex_of_word {e : Entry} (hwidth : 1 ≤ e.width) {j i : Nat} (hi : i < e.width) :
    e.laneIndex (j * e.width + i) = 32 * j + e.first + i := by
  have h1 : (j * e.width + i) / e.width = j := by
    rw [Nat.add_comm, Nat.add_mul_div_right _ _ hwidth, Nat.div_eq_of_lt hi, Nat.zero_add]
  have h2 : (j * e.width + i) % e.width = i := by rw [Nat.add_comm, Nat.add_mul_mod_self_right, Nat.mod_eq_of_lt hi]
  rw [Entry.laneIndex, h1, h2]

theorem planFits_lane_le {lane : Nat} {plan : List Entry} (h : planFits lane plan) : lane ≤ 32 := by
  induction plan generalizing lane with
  | nil => exact h
  | cons e rest ih =>
    have h2 := ih h.2
    have h1 := h.1
    omega

theorem planFits_entry {lane : Nat} {plan : List Entry} (h : planFits lane plan) {e : Entry} (he : e ∈ plan) :
    lane ≤ e.first ∧ e.first + e.width ≤ 32 := by
  induction plan generalizing lane with
  | nil => cases he
  | cons e' rest ih =>
    obtain ⟨hfirst, hrest⟩ := h
    obtain rfl | he := List.mem_cons.mp he
    · exact ⟨hfirst, planFits_lane_le hrest⟩
    · obtain ⟨h1, h2⟩ := ih hrest he
      exact ⟨by omega, h2⟩

/-! ## The lanes of a zone (R81, R82, R133) -/

/-- R81: the sample word an entry's lanes take from the streams its service selects. -/
def State.entryWord (s : State) (z : ZoneIx) (e : Entry) (n : Nat) : Word :=
  (s.service e.service).laneWord (s.zone z).selection[e.service] (s.zone z).fadeFrom[e.service] e.width n

/-- R81: an entry's samples written into the lanes. -/
def State.placeEntry (s : State) (z : ZoneIx) (acc : Samples) (e : Entry) : Samples :=
  ((s.service e.service).laneIndices (s.zone z).selection[e.service] (s.zone z).fadeFrom[e.service]).foldl
    (fun acc n => setSample acc (e.laneIndex n) (s.entryWord z e n)) acc

section
variable (s : State) (z : ZoneIx)

theorem State.zoneLanes_eq : s.zoneLanes z = (s.planInForce z).foldl (s.placeEntry z) [] := rfl

theorem State.placeEntry_wf {acc : Samples} (h : samplesWf acc = true) (e : Entry) : samplesWf (s.placeEntry z acc e) = true :=
  samplesWf_foldl_placed _ _ _ h

theorem State.foldl_placeEntry_wf {acc : Samples} (h : samplesWf acc = true) (plan : List Entry) :
    samplesWf (plan.foldl (s.placeEntry z) acc) = true :=
  foldl_induct (fun x => samplesWf x = true) _ (fun _ _ hx => s.placeEntry_wf z hx _) plan acc h

/-- A stream that lists no sample for a word gives it zero. -/
theorem State.entryWord_of_unlisted {e : Entry} {n : Nat}
    (h : n ∉ (s.service e.service).laneIndices (s.zone z).selection[e.service] (s.zone z).fadeFrom[e.service]) : s.entryWord z e n = 0 := by
  unfold State.entryWord Service.laneWord
  unfold Service.laneIndices at h
  rw [List.mem_append, not_or] at h
  obtain ⟨hsel, hfade⟩ := h
  split
  · rfl
  · next new hnew =>
    rw [hnew] at hsel
    split
    · exact sampleAt_of_unlisted hsel
    · next old hold =>
      rw [hold] at hfade
      rw [sampleAt_of_unlisted hsel, sampleAt_of_unlisted hfade]
      have h0 : crossfade (n / e.width) 0 0 = 0 := by simp [crossfade]
      show packSample (crossfade (n / e.width) (sampleI 0) (sampleI 0)) (crossfade (n / e.width) (sampleQ 0) (sampleQ 0)) = 0
      rw [show sampleI 0 = 0 from rfl, show sampleQ 0 = 0 from rfl, h0]
      rfl

/-- An entry leaves a lane outside its own. -/
theorem State.placeEntry_other {e : Entry} (hwidth : 1 ≤ e.width) (hfits : e.first + e.width ≤ 32) {acc : Samples}
    (h : samplesWf acc = true) {lane : Nat} (hlane : lane < 32) (hout : lane < e.first ∨ e.first + e.width ≤ lane) (j : Nat) :
    sampleAt (s.placeEntry z acc e) (32 * j + lane) = sampleAt acc (32 * j + lane) :=
  sampleAt_foldl_elsewhere _ _ _ h fun n _ heq => by
    have hmod := Nat.mod_lt n hwidth
    obtain ⟨-, hrem⟩ := (Entry.laneIndex_iff hwidth hfits n j lane hlane).mp heq
    omega

/-- An entry gives its own lanes its samples, where they held zeros. -/
theorem State.placeEntry_own {e : Entry} (hwidth : 1 ≤ e.width) (hfits : e.first + e.width ≤ 32) {acc : Samples}
    (h : samplesWf acc = true) {j i : Nat} (hi : i < e.width) (hzero : sampleAt acc (32 * j + e.first + i) = 0) :
    sampleAt (s.placeEntry z acc e) (32 * j + e.first + i) = s.entryWord z e (j * e.width + i) := by
  rw [← Entry.laneIndex_of_word hwidth hi] at hzero ⊢
  rw [State.placeEntry, sampleAt_foldl_placed _ _ (Entry.laneIndex_injective hwidth hfits) _ h, hzero]
  split
  · rfl
  · next hn => exact (s.entryWord_of_unlisted z hn).symm

theorem State.foldl_placeEntry_other {plan : List Entry} (hwidth : ∀ e, e ∈ plan → 1 ≤ e.width) {first : Nat} (hfits : planFits first plan)
    {acc : Samples} (h : samplesWf acc = true) {lane : Nat} (hlane : lane < 32)
    (hout : ∀ e, e ∈ plan → lane < e.first ∨ e.first + e.width ≤ lane) (j : Nat) :
    sampleAt (plan.foldl (s.placeEntry z) acc) (32 * j + lane) = sampleAt acc (32 * j + lane) := by
  induction plan generalizing acc first with
  | nil => rfl
  | cons e rest ih =>
    have he : e ∈ e :: rest := List.mem_cons_self
    rw [List.foldl_cons, ih (fun e' he' => hwidth e' (List.mem_cons_of_mem _ he')) hfits.2 (s.placeEntry_wf z h e)
      fun e' he' => hout e' (List.mem_cons_of_mem _ he')]
    exact s.placeEntry_other z (hwidth e he) (planFits_entry hfits he).2 h hlane (hout e he) j

theorem State.foldl_placeEntry_own {plan : List Entry} (hwidth : ∀ e, e ∈ plan → 1 ≤ e.width) {first : Nat} (hfits : planFits first plan)
    {acc : Samples} (h : samplesWf acc = true) (hzero : ∀ j lane, first ≤ lane → lane < 32 → sampleAt acc (32 * j + lane) = 0)
    {e : Entry} (he : e ∈ plan) {j i : Nat} (hi : i < e.width) :
    sampleAt (plan.foldl (s.placeEntry z) acc) (32 * j + e.first + i) = s.entryWord z e (j * e.width + i) := by
  induction plan generalizing acc first with
  | nil => cases he
  | cons e' rest ih =>
    have he' : e' ∈ e' :: rest := List.mem_cons_self
    have hw' := hwidth e' he'
    obtain ⟨hlow', hfits'⟩ := planFits_entry hfits he'
    have hrest (e'' : Entry) (h'' : e'' ∈ rest) := hwidth e'' (List.mem_cons_of_mem _ h'')
    rw [List.foldl_cons]
    obtain rfl | he := List.mem_cons.mp he
    · rw [Nat.add_assoc, s.foldl_placeEntry_other z hrest hfits.2 (s.placeEntry_wf z h e) (by omega) fun e'' he'' => Or.inl ?_,
        ← Nat.add_assoc]
      · exact s.placeEntry_own z hw' hfits' h hi (by rw [Nat.add_assoc]; exact hzero _ _ (by omega) (by omega))
      · have hlow := (planFits_entry hfits.2 he'').1
        omega
    · refine ih hrest hfits.2 (s.placeEntry_wf z h e') (fun j lane hle hlt => ?_) he
      rw [s.placeEntry_other z hw' hfits' h hlt (Or.inr hle)]
      exact hzero j lane (by omega) hlt

/-- R81, R82, R133: the lanes of a zone are those its plan in force gives. -/
theorem State.zoneLanes_builds {plan : List Entry} (hplan : s.putsInForce z plan) : s.buildsLanes z plan (s.zoneLanes z) := by
  obtain rfl := (s.putsInForce_iff z plan).mp hplan
  intro hfits hwidth
  have hnone : ∀ j lane, 0 ≤ lane → lane < 32 → sampleAt [] (32 * j + lane) = 0 := fun _ _ _ _ => rfl
  refine ⟨?_, fun lane j hlane _ hout => s.foldl_placeEntry_other z hwidth hfits rfl hlane hout j⟩
  intro e j i he hj hi out word
  have hout : out = s.entryWord z e (j * e.width + i) := s.foldl_placeEntry_own z hwidth hfits rfl hnone he hi
  have hword (n : StreamName) : word n = sampleAt ((s.service e.service).launchedWords n) (j * e.width + i) := s.launchedWord_eq ..
  have hdiv : (j * e.width + i) / e.width = j := by
    rw [Nat.add_comm, Nat.add_mul_div_right _ _ (hwidth e he), Nat.div_eq_of_lt hi, Nat.zero_add]
  unfold State.entryWord Service.laneWord at hout
  refine ⟨fun hsel => ?_, fun new hsel hfade => ?_, fun old new hsel hfade => ?_⟩
  · rw [hout, hsel]
  · rw [hout, hsel, hfade, hword]
  · rw [hout, hsel, hfade, hword, hword]
    dsimp only
    rw [hdiv]
    exact component_onComponents fun a b => crossfade_range hj

end

end Sys2Proof.Machine
end

section
/-! Entries to ACTIVE and departures from it, link by link: what each leaves alone, the gate records it makes (R143), and the frames of
the boundary brought to the links' new states (R3, R9; log 20). -/

namespace Sys2Proof.Machine

open Sys2Proof

/-! ## A notice among those generated (R173) -/

/-- R173: a notice generated on the way is among those that found room. -/
theorem State.Notified.includes {s a t : State} {n : Notice} (h : s.Notified a) (h' : (a.plusNotice n).Notified t) : s.noticesInclude t n := by
  intro hroom
  obtain ⟨ns, hns⟩ := h
  obtain ⟨ms, hms⟩ := h'
  obtain ⟨before, hbefore⟩ := NoticeUnit.foldl_generate_queue ns s.notices
  obtain ⟨after, hafter⟩ := NoticeUnit.foldl_generate_queue ms (a.plusNotice n).notices
  rw [← hns] at hbefore
  rw [← hms] at hafter
  have hgen : (a.plusNotice n).notices = a.notices.generate n := rfl
  obtain ⟨-, h⟩ | ⟨hfull, h⟩ := a.notices.generate_cases n
  · rw [hafter, hgen, h, hbefore]
    simp
  · rw [hafter, hgen, h] at hroom
    simp only [List.length_append] at hroom
    omega

/-! ## Links that turn, with the groups of some re-evaluated -/

/-- t is s with the links of p turned and the groups of q re-evaluated: every other link keeps all but its alignment, its K among what it
keeps, and a link out of ACTIVE or of no such group keeps that too; nothing changes but links, groups and notices. -/
structure State.LinksTurn (s t : State) (p : LinkIx → Prop) (q : GroupIx → Prop) : Prop where
  frame : t = { s with links := t.links, groups := t.groups, notices := t.notices }
  settings (l : LinkIx) : (t.link l).settings = (s.link l).settings
  other (l : LinkIx) : ¬ p l → t.link l = { s.link l with align := { (t.link l).align with k := (s.link l).align.k } }
  group (g : GroupIx) : ¬ q g → t.group g = s.group g
  same (l : LinkIx) : ¬ p l → ((s.link l).mgr.state ≠ .active ∨ ¬ q (s.link l).settings.group) → t.link l = s.link l
  notified : s.Notified t

section
variable {s t u : State} {p p' : LinkIx → Prop} {q q' : GroupIx → Prop}

theorem State.LinksTurn.refl (s : State) (p : LinkIx → Prop) (q : GroupIx → Prop) : s.LinksTurn s p q :=
  ⟨rfl, fun _ => rfl, fun _ _ => rfl, fun _ _ => rfl, fun _ _ _ => rfl, .of_eq rfl⟩

theorem State.LinksTurn.trans (h : s.LinksTurn t p q) (h' : t.LinksTurn u p q) : s.LinksTurn u p q where
  frame := by rw [h'.frame, h.frame]
  settings l := (h'.settings l).trans (h.settings l)
  other l hl := by rw [h'.other l hl, h.other l hl]
  group g hg := (h'.group g hg).trans (h.group g hg)
  same l hl hg := (h'.same l hl (by rw [h.same l hl hg]; exact hg)).trans (h.same l hl hg)
  notified := h.notified.trans h'.notified

theorem State.LinksTurn.mono (h : s.LinksTurn t p q) (hp : ∀ l, p l → p' l) (hq : ∀ g, q g → q' g) : s.LinksTurn t p' q' where
  frame := h.frame
  settings := h.settings
  other l hl := h.other l fun k => hl (hp l k)
  group g hg := h.group g fun k => hg (hq g k)
  same l hl hg := h.same l (fun k => hl (hp l k)) (hg.imp_right fun k k' => k (hq _ k'))
  notified := h.notified

theorem State.plusNotices_linksTurn (ns : List Notice) : s.LinksTurn (s.plusNotices ns) p q :=
  ⟨rfl, fun _ => rfl, fun _ _ => rfl, fun _ _ => rfl, fun _ _ _ => rfl, s.notified_plusNotices ns⟩

theorem State.modLink_linksTurn {l : LinkIx} {f : Link → Link} (hl : p l) (hf : (f (s.link l)).settings = (s.link l).settings) :
    s.LinksTurn (s.modLink l f) p q where
  frame := rfl
  settings l' := by
    rw [State.modLink_link_eq]
    split
    · next h => exact h ▸ hf
    · rfl
  other l' hl' := by rw [State.modLink_link_other _ _ _ _ fun (e : l = l') => hl' (e ▸ hl)]
  group _ _ := rfl
  same l' hl' _ := State.modLink_link_other _ _ _ _ fun (e : l = l') => hl' (e ▸ hl)
  notified := .of_eq rfl

theorem State.reEvaluate_notified (g : GroupIx) (cause : AlignCause) (cleared : List (LinkIx × Bool)) :
    s.Notified (s.reEvaluate g cause cleared) := by
  have h : (s.realigned g).notices = s.notices := by rw [State.realigned_eq]
  rw [State.reEvaluate_eq]
  split
  · exact ⟨[_], congrArg (fun u : NoticeUnit => u.generate _) h⟩
  · exact .of_eq h

theorem State.reEvaluate_linksTurn {g : GroupIx} (hg : q g) (cause : AlignCause) (cleared : List (LinkIx × Bool)) :
    s.LinksTurn (s.reEvaluate g cause cleared) p q where
  frame := s.reEvaluate_frame g cause cleared
  settings l := by rw [State.reEvaluate_link_frame]
  other l _ := by
    rw [State.reEvaluate_link_frame, ← State.reEvaluate_align_k g cause cleared l]
  group g' hg' := by
    rw [State.reEvaluate_group, State.realigned_group, if_neg fun (e : g = g') => hg' (e ▸ hg)]
  same l _ hout := by
    rw [State.reEvaluate_link, State.realigned_link_of_not_mem]
    intro hin
    obtain ⟨hactive, hgroup⟩ := (s.mem_members g l).mp hin
    exact hout.elim (fun k => k hactive) fun k => k (hgroup ▸ hg)
  notified := s.reEvaluate_notified g cause cleared

end

/-! ## Gate records (R143) -/

/-- R143: link record x with the gate records of the ring services of a plan: those that exist are kept, the others created. -/
def State.withGates (s : State) (plan : List Entry) (x : Link) : Link := { x with
  gates := Vector.ofFn (fun v : Fin 24 => if v ∈ carriedOf plan ∧ (s.service v).ring.isSome = true then
    some ((x.gates[v]).getD { energy := 0, floor := 4294967295, isOpen := false, closeCount := 0 }) else x.gates[v]) }

section
variable (s : State) (plan : List Entry) (x : Link)

theorem State.withGates_gates (v : ServiceIx) : (s.withGates plan x).gates[v] =
    if v ∈ carriedOf plan ∧ (s.service v).ring.isSome = true then
      some ((x.gates[v]).getD { energy := 0, floor := 4294967295, isOpen := false, closeCount := 0 }) else x.gates[v] := by
  simp [State.withGates]

theorem Link.gates_ext {x y : Link} (h : y = { x with gates := y.gates }) (hg : ∀ v : ServiceIx, y.gates[v] = x.gates[v]) : y = x := by
  have hgates : y.gates = x.gates := by
    ext1 i hi
    exact hg ⟨i, hi⟩
  rw [h, hgates]

theorem State.modLink_of_fixed {s : State} {l : LinkIx} {f : Link → Link} (h : f (s.link l) = s.link l) : s.modLink l f = s := by
  refine (State.modLink_congr (f' := fun x => x) h).trans ?_
  simp [State.modLink]

theorem State.createGates_eq (l : LinkIx) : s.createGates l plan = s.modLink l (s.withGates plan) := by
  have h (vs : List ServiceIx) (s : State) : vs.foldl (fun s v =>
      if (s.service v).ring.isSome then
        s.modLink l (fun x => { x with gates := x.gates.set v (some ((x.gates[v]).getD Gate.fresh)) })
      else s) s = s.modLink l (fun x => { x with
        gates := Vector.ofFn (fun v : Fin 24 => if v ∈ vs ∧ (s.service v).ring.isSome = true then some ((x.gates[v]).getD Gate.fresh)
          else x.gates[v]) }) := by
    induction vs generalizing s with
    | nil => exact (State.modLink_of_fixed (Link.gates_ext rfl fun v => by simp)).symm
    | cons v rest ih =>
      rw [List.foldl_cons, ih]
      split
      · next hring =>
        rw [State.modLink_modLink]
        refine State.modLink_congr (Link.gates_ext rfl fun v' => ?_)
        simp only [State.modLink_service, Vector.getElem_ofFn, Fin.eta, Fin.getElem_fin, List.mem_cons]
        rw [Vector.getElem_set]
        by_cases hv : v.val = v'.val
        · obtain rfl : v = v' := Fin.ext hv
          simp [hring]
        · have hne : v' ≠ v := fun e => hv (congrArg Fin.val e.symm)
          simp [hv, hne]
      · next hring =>
        refine State.modLink_congr (Link.gates_ext rfl fun v' => ?_)
        simp only [Vector.getElem_ofFn, Fin.eta, Fin.getElem_fin, List.mem_cons]
        by_cases hv : v' = v
        · subst hv
          simp [hring]
        · simp [hv]
  exact h _ s

end

/-! ## Entry to ACTIVE (R9) -/

theorem State.plusNotice_link (s : State) (n : Notice) (l : LinkIx) : (s.plusNotice n).link l = s.link l := rfl

section
variable {s : State} {l : LinkIx}

/-- R9, R41: state s with link l in ACTIVE and its LINK_STATE, its group still to be re-evaluated. -/
def State.entered (s : State) (l : LinkIx) : State :=
  (s.modLink l (fun x => { x with
    mgr := { x.mgr with state := .active }
    rng := { x.rng with trackCount := 0, outliers := 0, marker := none, failures := 0, skipCount := s.time.superframeOwed }
    exchange := none })).plusNotice (.linkState l (s.link l).mgr.state .active .planAccepted (Vector.replicate 4 false) none)

theorem State.entered_link_same : (s.entered l).link l = { s.link l with
    mgr := { (s.link l).mgr with state := .active }
    rng := { (s.link l).rng with trackCount := 0, outliers := 0, marker := none, failures := 0, skipCount := s.time.superframeOwed }
    exchange := none } := by
  rw [State.entered, State.plusNotice_link, State.modLink_link_same]

theorem State.openUplink_eq {entries : List Entry} (hplan : s.planInForce (s.link l).settings.zone = entries) :
    s.openUplink l = s.modLink l (fun y => s.withGates entries { y with
      rx := some (.entered s.time.blockOwed), gates := Vector.replicate 24 none }) := by
  rw [State.openUplink, hplan, State.createGates_eq, State.modLink_modLink]
  rfl

/-- R9, R41, R47, R54, R60, R137, R143: an entry as one change of the link's record, the re-evaluation of its group, and another. -/
theorem State.enterActive_eq {entries : List Entry} (hplan : s.planInForce (s.link l).settings.zone = entries) :
    s.enterActive l = ((s.entered l).reEvaluate (s.link l).settings.group (.joined l) []).modLink l (fun y =>
      s.withGates entries { y with
        align := { y.align with k := y.align.kStar, slewing := false }
        rx := some (.entered s.time.blockOwed), gates := Vector.replicate 24 none }) := by
  have hgroup : ((s.entered l).link l).settings.group = (s.link l).settings.group := by rw [State.entered_link_same]
  have hjoined : (s.entered l).joinGroup l = ((s.entered l).reEvaluate (s.link l).settings.group (.joined l) []).modLink l (fun y =>
      { y with align := { y.align with k := y.align.kStar, slewing := false } }) := by rw [State.joinGroup, hgroup]; rfl
  have hframe := (s.entered l).reEvaluate_frame (s.link l).settings.group (.joined l) []
  have hsettings : (((s.entered l).joinGroup l).link l).settings = (s.link l).settings := by
    rw [hjoined, State.modLink_link_same, State.reEvaluate_link_frame, State.entered_link_same]
  have hplan' : ((s.entered l).joinGroup l).planInForce (((s.entered l).joinGroup l).link l).settings.zone = entries := by
    rw [hsettings, ← hplan, hjoined, hframe]
    rfl
  have hwith (x : Link) : ((s.entered l).joinGroup l).withGates entries x = s.withGates entries x := by
    rw [hjoined, hframe]
    rfl
  have howed : ((s.entered l).joinGroup l).time.blockOwed = s.time.blockOwed := by
    rw [hjoined, hframe]
    rfl
  calc s.enterActive l = ((s.entered l).joinGroup l).openUplink l := rfl
    _ = _ := State.openUplink_eq hplan'
    _ = _ := by
      simp only [hwith, howed]
      rw [hjoined, State.modLink_modLink]

theorem RxHistory.entered_eq (owed : Bool) : RxHistory.entered owed =
    let before : RxBlock := { samples := [], taken := true, valid := false }
    { oldest := before, middle := before, newest := if owed then before else { samples := [], taken := false, valid := false } } := rfl

/-- R9: an entry is the one the statements spell out. -/
theorem State.enterActive_entersActive {entries : List Entry} (hplan : s.planInForce (s.link l).settings.zone = entries) :
    s.entersActive (s.enterActive l) l entries := by
  have hreev := (s.entered l).reEvaluate_reEvaluated (s.link l).settings.group (.joined l) []
  have heq := State.enterActive_eq hplan
  have hgates (v : ServiceIx) : ((s.enterActive l).link l).gates[v] = if v ∈ carriedOf entries ∧ (s.service v).ring.isSome = true then
      some { energy := 0, floor := 4294967295, isOpen := false, closeCount := 0 } else none := by
    rw [heq, State.modLink_link_same, State.withGates_gates]
    simp
  refine ⟨_, hreev, ?_, hgates⟩
  conv_lhs => rw [heq]
  rw [heq, State.modLink_link_same]
  rfl

/-- R49, R53, R54: what an entry makes of the link's alignment. -/
theorem State.enterActive_align {entries : List Entry} (hplan : s.planInForce (s.link l).settings.zone = entries) :
    ((s.enterActive l).link l).align.k = ((s.enterActive l).link l).align.kStar ∧ ((s.enterActive l).link l).align.slewing = false ∧
    ∃ t0, ((s.enterActive l).group (s.link l).settings.group).target = some t0 ∧
      ((s.enterActive l).link l).align.kStar = min 16383 (t0 - (s.link l).rng.path) := by
  have hin : l ∈ (s.entered l).members (s.link l).settings.group := by
    rw [State.mem_members, State.entered_link_same]
    exact ⟨rfl, rfl⟩
  have hgroup : ((s.entered l).reEvaluate (s.link l).settings.group (.joined l) []).group (s.link l).settings.group =
      (s.entered l).reEvaluatedGroup (s.link l).settings.group := by
    rw [State.reEvaluate_group, State.realigned_group, if_pos rfl]
  obtain ⟨hempty, -⟩ | ⟨m, -, hlong, -⟩ := (s.entered l).longestPath_cases ((s.entered l).members (s.link l).settings.group)
  · rw [hempty] at hin
    cases hin
  · obtain ⟨t0, ht0, -⟩ := Group.reEvaluated_some ((s.entered l).group (s.link l).settings.group) ((s.entered l).link m).rng.path
    rw [← hlong] at ht0
    have hlink : ((s.entered l).reEvaluate (s.link l).settings.group (.joined l) []).link l = ((s.entered l).link l).towards t0 := by
      rw [State.reEvaluate_link, State.realigned_link]
      simp only [State.reEvaluatedGroup, ht0, if_pos hin]
    rw [State.enterActive_eq hplan, State.modLink_link_same, State.modLink_group, hgroup, hlink, Link.towards_eq, State.entered_link_same]
    exact ⟨rfl, rfl, t0, ht0, rfl⟩

theorem State.enterActive_link {entries : List Entry} (hplan : s.planInForce (s.link l).settings.zone = entries) :
    let before : RxBlock := { samples := [], taken := true, valid := false }
    (s.enterActive l).link l = { s.link l with
      mgr := { (s.link l).mgr with state := .active }
      rng := { (s.link l).rng with trackCount := 0, outliers := 0, marker := none, failures := 0, skipCount := s.time.superframeOwed }
      exchange := none
      align := ((s.enterActive l).link l).align
      rx := some { oldest := before, middle := before
                   newest := if s.time.blockOwed then before else { samples := [], taken := false, valid := false } }
      gates := ((s.enterActive l).link l).gates } := by
  rw [State.enterActive_eq hplan, State.modLink_link_same, State.reEvaluate_link_frame, State.entered_link_same]
  rfl

section
variable {p : LinkIx → Prop} {q : GroupIx → Prop}

theorem State.enterActive_linksTurn (hl : p l) (hg : q (s.link l).settings.group) : s.LinksTurn (s.enterActive l) p q := by
  rw [State.enterActive_eq rfl]
  refine (State.LinksTurn.trans (t := s.entered l) ?_ (State.reEvaluate_linksTurn hg _ _)).trans (State.modLink_linksTurn hl rfl)
  exact (State.modLink_linksTurn hl rfl).trans (State.plusNotices_linksTurn [_])

/-! ## Departure (R9, R13) -/

theorem State.leaveActive_joining (cause : LinkCause) : s.leaveActive l .joining cause =
    ((s.departed l .joining).plusNotice (.linkState l (s.link l).mgr.state .joining cause (Vector.replicate 4 false) none)).reEvaluate
      (s.link l).settings.group (.left l) (s.clearedFlag l) := by
  rw [State.leaveActive_eq]
  rfl

theorem State.leaveActive_joining_linksTurn (hl : p l) (hg : q (s.link l).settings.group) (cause : LinkCause) :
    s.LinksTurn (s.leaveActive l .joining cause) p q := by
  rw [State.leaveActive_joining]
  refine State.LinksTurn.trans (t := (s.departed l .joining).plusNotice _) ?_ (State.reEvaluate_linksTurn hg _ _)
  exact (State.modLink_linksTurn hl rfl).trans (State.plusNotices_linksTurn [_])

theorem State.fault_linksTurn (hl : p l) (hinactive : (s.link l).mgr.state ≠ .active) (c : FaultCause) : s.LinksTurn (s.fault l c) p q := by
  rw [State.fault_of_inactive hinactive]
  exact (State.modLink_linksTurn hl rfl).trans (State.plusNotices_linksTurn _)

theorem State.issuePlan_linksTurn (hl : p l) (x : Exchange) (plan : List Entry) : s.LinksTurn (s.issuePlan l x plan) p q := by
  rw [State.issuePlan_eq]
  exact (State.modLink_linksTurn hl rfl).trans (State.plusNotices_linksTurn _)

end

end

/-! ## The frames of the boundary (R3, R9; log 20) -/

section
variable (s before : State)

/-- Log 20: the links of a list whose state changed, brought to it one after another. -/
theorem State.GovernedOn.foldl_regovern {t : State} {p q : LinkIx → Prop} [DecidablePred p] [DecidablePred q] (howed : s.time.blockOwed = false)
    {ls : List LinkIx} (hls : ls.Nodup) (h : s.GovernedOn t p) (hdisjoint : ∀ l ∈ ls, ¬ p l)
    (hq : ∀ l, q l ↔ p l ∨ (l ∈ ls ∧ (s.link l).mgr.state ≠ (before.link l).mgr.state)) :
    s.GovernedOn (ls.foldl (fun t l => if (t.link l).mgr.state = (before.link l).mgr.state then t else t.regovern l) t) q := by
  induction ls generalizing t p with
  | nil =>
    have hpq : p = q := funext fun l => propext (by rw [hq]; simp)
    subst hpq
    rw [List.foldl_nil]
    convert h
  | cons l rest ih =>
    obtain ⟨hl, hrest⟩ := List.nodup_cons.mp hls
    have hp : ¬ p l := hdisjoint l List.mem_cons_self
    have hlink : t.link l = s.link l := (h.link l).trans (if_neg hp)
    rw [List.foldl_cons, hlink]
    by_cases hstate : (s.link l).mgr.state = (before.link l).mgr.state
    · rw [if_pos hstate]
      refine ih hrest h (fun l' hl' => hdisjoint l' (List.mem_cons_of_mem _ hl')) fun l' => (hq l').trans ?_
      by_cases he : l' = l
      · subst he
        simp [hstate]
      · simp [he]
    · rw [if_neg hstate]
      refine ih hrest (h.regovern (q := fun l' => p l' ∨ l' = l) howed hp fun _ => Iff.rfl) (fun l' hl' => ?_) fun l' => (hq l').trans ?_
      · rintro (hp' | rfl)
        · exact hdisjoint l' (List.mem_cons_of_mem _ hl') hp'
        · exact hl hl'
      · by_cases he : l' = l
        · subst he
          simp [hstate]
        · simp [he]

/-- R3, R9 (log 20): the frames of the boundary brought to the links' new states are the ones the statements spell out. -/
theorem State.regovernChanged_governed : before.governed s (s.regovernChanged before) := by
  cases howed : s.time.blockOwed with
  | true =>
    have hsame : s.regovernChanged before = s := by
      refine State.forLinks_induct (fun t => t = s) _ (fun t l ht => ?_) s rfl
      subst ht
      split
      · rfl
      · exact if_pos howed
    rw [hsame]
    exact State.governed_of_owed howed
  | false =>
    have h : s.GovernedOn (s.regovernChanged before) (fun l => (s.link l).mgr.state ≠ (before.link l).mgr.state) :=
      State.GovernedOn.foldl_regovern s before howed allLinks_nodup (.refl (p := fun _ => False) fun _ => id) (fun _ _ => id)
        fun l => by simp [mem_allLinks]
    exact h.governed (fun l => by rw [howed]; simp) fun l _ _ plan hplan => s.zoneLanes_builds _ hplan

/-- What bringing frames to new states leaves of a link. -/
theorem State.governed.link {before s t : State} (h : before.governed s t) (l : LinkIx) :
    t.link l = { s.link l with mgr := { (s.link l).mgr with frame := (t.link l).mgr.frame }, line := (t.link l).line } ∧
    ((s.link l).mgr.state = (before.link l).mgr.state → t.link l = s.link l) := by
  obtain ⟨-, -, -, -, hlink⟩ := h
  obtain ⟨hsame, hchanged⟩ := hlink l
  by_cases hc : s.time.blockOwed = false ∧ (s.link l).mgr.state ≠ (before.link l).mgr.state
  · obtain ⟨heq, -⟩ := hchanged hc
    refine ⟨?_, fun e => absurd e hc.2⟩
    rw [heq]
  · have heq := hsame hc
    rw [heq]
    exact ⟨rfl, fun _ => rfl⟩

end

end Sys2Proof.Machine
end

section
/-! The superframe of JOIN exchanges on current plans (R102), link by link. -/

namespace Sys2Proof.Machine

open Sys2Proof

/-! ## A pass over the links, link by link -/

/-- The state a pass over the links has reached before link n is taken. -/
def State.passed (f : State → LinkIx → State) (s : State) (n : Nat) : State := (allLinks.take n).foldl f s

section
variable (f : State → LinkIx → State) (s : State)

theorem State.passed_zero : State.passed f s 0 = s := rfl

theorem State.passed_succ (l : LinkIx) : State.passed f s (l.val + 1) = f (State.passed f s l.val) l := by
  have htake : ∀ l : LinkIx, allLinks.take (l.val + 1) = allLinks.take l.val ++ [l] := by decide
  rw [State.passed, htake l, List.foldl_append]
  rfl

theorem State.passed_all : State.passed f s 16 = s.forLinks f := rfl

variable {f s} {turns : LinkIx → GroupIx → Prop}
  (hstep : ∀ u l, s.LinksTurn u (fun l' => l' < l) (fun _ => True) → u.LinksTurn (f u l) (fun l' => l' = l) (turns l))
include hstep

/-- Before link n is taken, it and those after it stand but for their alignment. -/
theorem State.passed_linksTurn (n : Nat) (hn : n ≤ 16) : s.LinksTurn (State.passed f s n) (fun l => l.val < n) (fun _ => True) := by
  induction n with
  | zero => exact .refl s _ _
  | succ n ih =>
    let l : LinkIx := ⟨n, hn⟩
    have hbefore : s.LinksTurn (State.passed f s l.val) (fun l' => l' < l) (fun _ => True) := ih (Nat.le_of_lt hn)
    rw [State.passed_succ f s l]
    refine (hbefore.mono (fun l' hl' => ?_) fun _ => id).trans ((hstep _ l hbefore).mono (fun l' hl' => ?_) fun _ _ => trivial)
    · exact Nat.lt_succ_of_lt (Fin.lt_def.mp hl')
    · rw [hl']
      exact Nat.lt_succ_self n

/-- Before link l is taken. -/
theorem State.passed_before (l : LinkIx) : s.LinksTurn (State.passed f s l.val) (fun l' => l' < l) (fun _ => True) :=
  State.passed_linksTurn hstep l.val (Nat.le_of_lt l.isLt)

/-- After link l has been taken the links after it alone turn, and the groups they turn. -/
theorem State.passed_after (l : LinkIx) (n : Nat) (hn : l.val + 1 + n ≤ 16) :
    (State.passed f s (l.val + 1)).LinksTurn (State.passed f s (l.val + 1 + n)) (fun l' => l < l') (fun g => ∃ l', l < l' ∧ turns l' g) := by
  induction n with
  | zero => exact .refl _ _ _
  | succ n ih =>
    let l2 : LinkIx := ⟨l.val + 1 + n, hn⟩
    have hlt : l < l2 := Fin.lt_def.mpr (by show l.val < l.val + 1 + n; omega)
    have hnext := hstep _ l2 (State.passed_before hstep l2)
    rw [← Nat.add_assoc, show l.val + 1 + n = l2.val from rfl, State.passed_succ f s l2]
    exact (ih (by omega)).trans (hnext.mono (fun l' e => e ▸ hlt) fun g h => ⟨l2, hlt, h⟩)

theorem State.passed_end (l : LinkIx) :
    (State.passed f s (l.val + 1)).LinksTurn (s.forLinks f) (fun l' => l < l') (fun g => ∃ l', l < l' ∧ turns l' g) := by
  have h := State.passed_after hstep l (15 - l.val) (by omega)
  rwa [show l.val + 1 + (15 - l.val) = 16 by omega, State.passed_all] at h

theorem State.forLinks_linksTurn : s.LinksTurn (s.forLinks f) (fun _ => True) (fun _ => True) :=
  (State.passed_linksTurn hstep 16 le_rfl).mono (fun _ _ => trivial) fun _ => id

end

/-! ## What is left of the step on one link -/

section
variable {s a b t : State} {l : LinkIx}

/-- R9: a link that entered ACTIVE on the way, and was left so. -/
theorem State.enteredActive_of {entries : List Entry} {last : Prop} (hplan : a.planInForce (a.link l).settings.zone = entries)
    (hb : b = a.enterActive l) (hstate : (a.link l).mgr.state = (s.link l).mgr.state) (hsettings : (a.link l).settings = (s.link l).settings)
    (hrng : (a.link l).rng = (s.link l).rng) (htime : a.time = s.time) (hservices : a.services = s.services)
    (hbefore : s.Notified a) (hafter : b.Notified t) (hstate' : (t.link l).mgr.state = (b.link l).mgr.state)
    (hrng' : (t.link l).rng = (b.link l).rng) (hrx : (t.link l).rx = (b.link l).rx) (hgates : (t.link l).gates = (b.link l).gates)
    (hlast : last → (t.link l).align = (b.link l).align ∧ t.group (s.link l).settings.group = b.group (s.link l).settings.group) :
    s.enteredActive t l entries last := by
  subst hb
  obtain ⟨-, -, -, hfresh⟩ := State.enterActive_entersActive hplan
  have hlink := State.enterActive_link hplan
  have hservice (v : ServiceIx) : a.service v = s.service v := congrArg (·[v]) hservices
  have hnotified : s.noticesInclude t (.linkState l (s.link l).mgr.state .active .planAccepted (Vector.replicate 4 false) none) := by
    rw [← hstate]
    refine State.Notified.includes hbefore (State.Notified.trans ?_ hafter)
    rw [State.enterActive_eq hplan]
    exact ((a.entered l).reEvaluate_notified _ _ _ : State.Notified ..)
  refine ⟨?_, ?_, ?_, ?_, ?_, ?_, fun v => ?_, hnotified, fun h => ?_⟩
  · rw [hstate', hlink]
  · rw [hrng', hlink]
  · rw [hrng', hlink]
  · rw [hrng', hlink]
  · rw [hrng', hlink]
  · rw [hrx, hlink, htime]
  · rw [hgates, hfresh, hservice]
  · obtain ⟨halign, hgroup⟩ := hlast h
    rw [halign, hgroup, ← hsettings, ← hrng]
    exact State.enterActive_align hplan

/-- R92, R96, R102: a link whose JOIN exchange was renewed on the way, and was left so. -/
theorem State.joinRenewed_of {target : BitVec 8} {m : Seq16} {attempts : Nat} {entries : List Entry}
    (hb : b = a.issuePlan l (exchangeFor .join target m attempts) entries) (hstate : (a.link l).mgr.state = .joining)
    (hheld : (a.link l).mgr.outstanding = (s.link l).mgr.outstanding) (hserial : (a.link l).planSerial = (s.link l).planSerial)
    (hservices : a.services = s.services) (hstate' : (t.link l).mgr.state = (b.link l).mgr.state)
    (hheld' : (t.link l).mgr.outstanding = (b.link l).mgr.outstanding) (hexchange : (t.link l).exchange = (b.link l).exchange) :
    s.joinRenewed t l target m entries attempts := by
  subst hb
  have hlink : (a.issuePlan l (exchangeFor .join target m attempts) entries).link l =
      (a.link l).withPlan (exchangeFor .join target m attempts) (a.planItems entries) := by
    rw [State.issuePlan_eq, State.plusNotices_link, State.modLink_link_same]
  have hitems : a.planItems entries = s.planItems entries := by
    simp only [State.planItems, State.service, hservices]
  rw [hlink] at hstate' hheld' hexchange
  refine ⟨?_, ?_, fun g hg hlow => ?_⟩
  · exact hstate'.trans ((Manager.issued_state _ _).trans hstate)
  · rw [hexchange, ← hserial]
    rfl
  · rw [← hheld] at hg
    have hfree := Manager.freeTag_of_free hg fun g' hlt => by rw [hheld]; exact hlow g' hlt
    rw [hheld', Link.withPlan_of_free _ _ hfree, ← hserial, ← hitems]
    exact (set_held ..).trans (if_pos rfl)

/-- R13, R16: a link that entered FAULT from outside ACTIVE on the way, and was left so. -/
theorem State.faulted_of {c : FaultCause} (hb : b = a.fault l c) (hinactive : (a.link l).mgr.state ≠ .active) (hmgr : (a.link l).mgr = (s.link l).mgr)
    (hbefore : s.Notified a) (hafter : b.Notified t) (hstate' : (t.link l).mgr.state = (b.link l).mgr.state)
    (hexchange : (t.link l).exchange = (b.link l).exchange) :
    (t.link l).mgr.state = .fault ∧ (t.link l).exchange = none ∧
      s.noticesInclude t (.linkState l (s.link l).mgr.state .fault (.fault c) (s.link l).mgr.wires none) := by
  subst hb
  have hlink : (a.fault l c).link l = (a.torn l .fault).link l := by rw [State.fault_of_inactive hinactive, State.plusNotices_link]
  rw [State.torn, State.modLink_link_same] at hlink
  refine ⟨by rw [hstate', hlink], by rw [hexchange, hlink], ?_⟩
  rw [← hmgr]
  refine State.Notified.includes hbefore (State.Notified.trans ?_ hafter)
  rw [State.fault_of_inactive hinactive]
  exact ⟨_, rfl⟩

theorem State.sentBefore_iff (x : Exchange) : s.sentBefore l x = true ↔ s.planWasSent l x := by
  unfold State.sentBefore State.planWasSent
  rw [List.any_eq_true]
  refine exists_congr fun g => ?_
  rw [and_iff_right (mem_allTags g)]
  constructor
  · intro h
    split at h
    · next n m items b hg =>
      rw [Bool.and_eq_true, beq_iff_eq, bne_iff_ne] at h
      exact ⟨n, m, items, b, hg, h⟩
    · cases h
  · rintro ⟨n, m, items, b, hg, hx, hb⟩
    rw [hg]
    simp [hx, hb]

theorem State.joinDue_iff (s : State) (l : LinkIx) : s.joinDue l = true ↔ (s.link l).mgr.state = .joining ∧
    (s.zone (s.link l).settings.zone).staged = none ∧
    ∃ x, (s.link l).exchange = some x ∧ x.purpose = .join ∧ x.m = s.time.superframe := by
  unfold State.joinDue
  cases (s.link l).exchange <;> simp [and_assoc]

theorem State.planInForce_of_unstaged {z : ZoneIx} (h : (s.zone z).staged = none) : s.planInForce z = (s.zone z).entries := by
  unfold State.planInForce
  rw [h]

end

/-! ## One link at its JOIN superframe (R102) -/

/-- R102: link l taken where its JOIN exchange falls due. -/
def State.joinStep (s : State) (l : LinkIx) : State := if s.joinDue l then s.joinSwitch l else s

/-- R102: link l's JOIN exchange falls due and stands accepted. -/
def State.joinsAccepted (s : State) (l : LinkIx) : Prop := s.joinDue l = true ∧ ∃ x, (s.link l).exchange = some x ∧ x.standing = .accepted

section
variable {s u : State} {l : LinkIx}

/-- A link none of the links before it turned stands but for its alignment. -/
theorem State.LinksTurn.at_turn {q : GroupIx → Prop} (h : s.LinksTurn u (fun l' => l' < l) q) :
    u.link l = { s.link l with align := { (u.link l).align with k := (s.link l).align.k } } := h.other l (lt_irrefl l)

theorem State.LinksTurn.joinDue (h : s.LinksTurn u (fun l' => l' < l) fun _ => True) : u.joinDue l = s.joinDue l := by
  have hframe : u.zones = s.zones ∧ u.time = s.time := by rw [h.frame]; exact ⟨rfl, rfl⟩
  unfold State.joinDue State.zone
  rw [h.at_turn, hframe.1, hframe.2]

theorem State.LinksTurn.sentBefore (h : s.LinksTurn u (fun l' => l' < l) fun _ => True) (x : Exchange) :
    u.sentBefore l x = true ↔ s.planWasSent l x := by
  have htime : u.time = s.time := by rw [h.frame]
  rw [State.sentBefore_iff]
  unfold State.planWasSent
  rw [h.at_turn, htime]

theorem State.LinksTurn.planInForce (h : s.LinksTurn u (fun l' => l' < l) fun _ => True) (z : ZoneIx) : u.planInForce z = s.planInForce z := by
  rw [h.frame]
  rfl

variable (h : s.LinksTurn u (fun l' => l' < l) fun _ => True)
include h

theorem State.joinStep_of_not_due (hdue : s.joinDue l = false) : u.joinStep l = u := by
  rw [State.joinStep, h.joinDue, hdue]
  rfl

theorem State.issueJoin_of_unstaged (hstaged : (s.zone (s.link l).settings.zone).staged = none) (attempts : Nat) :
    u.issueJoin l attempts = u.issuePlan l
      (exchangeFor .join (s.zone (s.link l).settings.zone).planId (s.time.superframe + 3) attempts)
      (s.zone (s.link l).settings.zone).entries := by
  have hzone : u.zone (u.link l).settings.zone = s.zone (s.link l).settings.zone := by
    rw [h.settings, h.frame]
    rfl
  have htime : u.time = s.time := by rw [h.frame]
  exact State.issueJoin_of_offers attempts (Or.inr ⟨by rw [hzone, hstaged], by rw [hzone], by rw [htime], by rw [hzone]⟩)

variable {x : Exchange} (hdue : s.joinDue l = true) (hx : (s.link l).exchange = some x)
include hdue hx

theorem State.joinStep_of_due : u.joinStep l = if x.standing = .accepted then u.enterActive l
    else if s.sentBefore l x then
      if 3 ≤ x.attempts + 1 then u.fault l .planFail else u.issueJoin l (x.attempts + 1)
    else u.issueJoin l x.attempts := by
  have hsent : u.sentBefore l x = s.sentBefore l x := by
    rw [Bool.eq_iff_iff, h.sentBefore, State.sentBefore_iff]
  rw [State.joinStep, h.joinDue, hdue, if_pos rfl, State.joinSwitch, h.at_turn, ← hsent]
  dsimp only
  rw [hx]

theorem State.joinStep_of_accepted (hacc : x.standing = .accepted) : u.joinStep l = u.enterActive l :=
  (State.joinStep_of_due h hdue hx).trans (if_pos hacc)

theorem State.joinStep_of_third (hacc : x.standing ≠ .accepted) (hsent : s.planWasSent l x) (hthird : 2 ≤ x.attempts) :
    u.joinStep l = u.fault l .planFail := by
  rw [State.joinStep_of_due h hdue hx, if_neg hacc, if_pos (State.sentBefore_iff x |>.mpr hsent), if_pos (by omega)]

theorem State.joinStep_of_retry (hacc : x.standing ≠ .accepted) (hsent : s.planWasSent l x) (hfew : x.attempts < 2) :
    u.joinStep l = u.issuePlan l
      (exchangeFor .join (s.zone (s.link l).settings.zone).planId (s.time.superframe + 3) (x.attempts + 1))
      (s.zone (s.link l).settings.zone).entries := by
  obtain ⟨-, hstaged, -⟩ := (s.joinDue_iff l).mp hdue
  rw [State.joinStep_of_due h hdue hx, if_neg hacc, if_pos (State.sentBefore_iff x |>.mpr hsent), if_neg (by omega),
    State.issueJoin_of_unstaged h hstaged]

theorem State.joinStep_of_unsent (hacc : x.standing ≠ .accepted) (hsent : ¬ s.planWasSent l x) :
    u.joinStep l = u.issuePlan l
      (exchangeFor .join (s.zone (s.link l).settings.zone).planId (s.time.superframe + 3) x.attempts)
      (s.zone (s.link l).settings.zone).entries := by
  obtain ⟨-, hstaged, -⟩ := (s.joinDue_iff l).mp hdue
  rw [State.joinStep_of_due h hdue hx, if_neg hacc, if_neg fun k => hsent (State.sentBefore_iff x |>.mp k),
    State.issueJoin_of_unstaged h hstaged]

end

/-- R102: a link at its JOIN superframe turns alone, and the group it joins. -/
theorem State.joinStep_linksTurn {s u : State} {l : LinkIx} (h : s.LinksTurn u (fun l' => l' < l) fun _ => True) :
    u.LinksTurn (u.joinStep l) (fun l' => l' = l) (fun g => s.joinsAccepted l ∧ (s.link l).settings.group = g) := by
  cases hdue : s.joinDue l with
  | false =>
    rw [State.joinStep_of_not_due h hdue]
    exact .refl _ _ _
  | true =>
    obtain ⟨hjoining, -, x, hx, -⟩ := (s.joinDue_iff l).mp hdue
    have hinactive : (u.link l).mgr.state ≠ .active := by
      rw [h.at_turn, hjoining]
      decide
    by_cases hacc : x.standing = .accepted
    · rw [State.joinStep_of_accepted h hdue hx hacc]
      exact State.enterActive_linksTurn rfl ⟨⟨hdue, x, hx, hacc⟩, by rw [h.settings]⟩
    · by_cases hsent : s.planWasSent l x
      · by_cases hthird : 2 ≤ x.attempts
        · rw [State.joinStep_of_third h hdue hx hacc hsent hthird]
          exact State.fault_linksTurn (p := fun l' => l' = l) rfl hinactive _
        · rw [State.joinStep_of_retry h hdue hx hacc hsent (by omega)]
          exact State.issuePlan_linksTurn (p := fun l' => l' = l) rfl _ _
      · rw [State.joinStep_of_unsent h hdue hx hacc hsent]
        exact State.issuePlan_linksTurn (p := fun l' => l' = l) rfl _ _

/-! ## JOIN_SWITCH_SUPERFRAME -/

section
variable (s : State)

/-- The state before link l is taken at the JOIN superframe, and the state after. -/
theorem State.joinPass_before (l : LinkIx) : s.LinksTurn (State.passed State.joinStep s l.val) (fun l' => l' < l) fun _ => True :=
  State.passed_before (fun _ _ => State.joinStep_linksTurn) l

theorem State.joinPass_end (l : LinkIx) : ((State.passed State.joinStep s l.val).joinStep l).LinksTurn (s.forLinks State.joinStep)
    (fun l' => l < l') (fun g => ∃ l', l < l' ∧ s.joinsAccepted l' ∧ (s.link l').settings.group = g) := by
  rw [← State.passed_succ State.joinStep s l]
  exact State.passed_end (fun _ _ => State.joinStep_linksTurn) l

theorem State.joinSwitchAll_eq : s.joinSwitchAll = (s.forLinks State.joinStep).regovernChanged s := rfl

theorem State.joinSwitchAll_governed : s.governed (s.forLinks State.joinStep) s.joinSwitchAll := by
  rw [State.joinSwitchAll_eq]
  exact State.regovernChanged_governed _ s

theorem State.joinSwitchAll_joinsSettled : s.joinsSettled s.joinSwitchAll := by
  refine ⟨State.passed State.joinStep s, rfl, s.joinSwitchAll_governed, fun l => ?_⟩
  have h := s.joinPass_before l
  rw [State.passed_succ]
  refine ⟨State.joinStep_of_not_due h, fun x hdue hx => ?_⟩
  obtain ⟨-, hstaged, -⟩ := (s.joinDue_iff l).mp hdue
  refine ⟨fun hacc => ?_, fun hacc hsent hthird => ?_, fun hacc hsent hfew => ?_, fun hacc hsent => ?_⟩
  · rw [State.joinStep_of_accepted h hdue hx hacc]
    refine State.enterActive_entersActive ?_
    rw [h.planInForce, h.settings, State.planInForce_of_unstaged hstaged]
  · rw [State.joinStep_of_third h hdue hx hacc hsent hthird]
    exact State.takeDown_tornDown ..
  · rw [State.joinStep_of_retry h hdue hx hacc hsent hfew]
    exact State.issuePlan_plansIssued ..
  · rw [State.joinStep_of_unsent h hdue hx hacc hsent]
    exact State.issuePlan_plansIssued ..

theorem State.anyJoinDue_iff : s.anyJoinDue = true ↔ ∃ l, s.joinDue l = true := by
  rw [State.anyJoinDue, List.any_eq_true]
  exact exists_congr fun l => and_iff_right (mem_allLinks l)

/-- R102: what stands once every JOIN exchange that fell due has been settled. -/
theorem State.joinSwitchAll_frame : s.joinSwitchAll = { s with
    links := s.joinSwitchAll.links, groups := s.joinSwitchAll.groups, notices := s.joinSwitchAll.notices
    combiner := { s.combiner with now := s.joinSwitchAll.combiner.now } } := by
  obtain ⟨-, hframe, -⟩ := s.joinSwitchAll_governed
  have hpass := (State.forLinks_linksTurn (s := s) (fun _ _ => State.joinStep_linksTurn)).frame
  rw [hframe]
  dsimp only
  rw [hpass]

theorem State.joinSwitchAll_rest : s.joinSwitchAll.groups = (s.forLinks State.joinStep).groups ∧
    s.joinSwitchAll.notices = (s.forLinks State.joinStep).notices := by
  have h := s.joinSwitchAll_governed
  generalize s.forLinks State.joinStep = w at h ⊢
  generalize s.joinSwitchAll = t at h ⊢
  obtain ⟨-, hframe, -⟩ := h
  exact ⟨(congrArg State.groups hframe :), (congrArg State.notices hframe :)⟩

/-- A link not due keeps all but its alignment. -/
theorem State.joinSwitchAll_link_of_not_due {l : LinkIx} (hdue : s.joinDue l = false) : s.joinSwitchAll.link l = { s.link l with
    align := { (s.joinSwitchAll.link l).align with k := (s.link l).align.k } } := by
  have hbefore := s.joinPass_before l
  have hafter := s.joinPass_end l
  rw [State.joinStep_of_not_due hbefore hdue] at hafter
  have hlink := hafter.other l (lt_irrefl l)
  rw [hbefore.at_turn] at hlink
  have hstate : ((s.forLinks State.joinStep).link l).mgr.state = (s.link l).mgr.state := by rw [hlink]
  rw [(s.joinSwitchAll_governed.link l).2 hstate, hlink]

end

/-- Settles O37. -/
theorem joinSwitchSettlesExchanges : Obligations.JoinSwitchSettlesExchanges := by
  refine ⟨fun s hreset hdue => ⟨s.joinSwitchAll, ?_, s.joinSwitchAll_joinsSettled, ?_, s.joinDue_iff, fun l hl => ?_, ?_⟩,
    fun s hreset hno => ?_⟩
  · exact event_of_due (event := exec .joinSwitchSuperframe) (fun _ => rfl) hreset (s.anyJoinDue_iff.mpr hdue)
  · intro l x hjoining hstaged hx hpurpose hm z joins renewed
    have hdue : s.joinDue l = true := (s.joinDue_iff l).mpr ⟨hjoining, hstaged, x, hx, hpurpose, hm⟩
    have hbefore := s.joinPass_before l
    have hafter := s.joinPass_end l
    obtain ⟨hgroups, hnotices⟩ := s.joinSwitchAll_rest
    obtain ⟨hend, -⟩ := s.joinSwitchAll_governed.link l
    subst renewed
    generalize State.passed State.joinStep s l.val = a at hbefore hafter
    generalize s.forLinks State.joinStep = w at hafter hgroups hnotices hend
    generalize s.joinSwitchAll = t at hgroups hnotices hend ⊢
    have hat := hbefore.at_turn
    have htime : a.time = s.time := by rw [hbefore.frame]
    have hservices : a.services = s.services := by rw [hbefore.frame]
    have hnotified : (a.joinStep l).Notified t := hafter.notified.trans (.of_eq hnotices)
    have hlast (h : ∀ l', l < l' → (s.link l').settings.group = (s.link l).settings.group → ¬ joins l')
        (hsettings : ((a.joinStep l).link l).settings = (s.link l).settings) :
        (t.link l).align = ((a.joinStep l).link l).align ∧
        t.group (s.link l).settings.group = (a.joinStep l).group (s.link l).settings.group := by
      have hnone : ¬ ∃ l', l < l' ∧ s.joinsAccepted l' ∧ (s.link l').settings.group = (s.link l).settings.group :=
        fun ⟨l', hlt, hjoins, hgroup⟩ => h l' hlt hgroup hjoins
      have halign : (t.link l).align = (w.link l).align := by rw [hend]
      refine ⟨halign.trans (congrArg Link.align (hafter.same l (lt_irrefl l) (Or.inr (by rw [hsettings]; exact hnone)))), ?_⟩
      exact (congrArg (·[(s.link l).settings.group]) hgroups).trans (hafter.group _ hnone)
    rw [hafter.other l (lt_irrefl l)] at hend
    refine ⟨fun hacc => ?_, fun hacc hsent hthird => ?_, fun hacc hsent hfew => ?_, fun hacc hsent => ?_⟩
    · have hstep := State.joinStep_of_accepted hbefore hdue hx hacc
      have hplan : a.planInForce (a.link l).settings.zone = (s.zone z).entries := by
        rw [hbefore.planInForce, hbefore.settings, State.planInForce_of_unstaged hstaged]
      have hentered := State.enterActive_link hplan
      rw [← hstep] at hentered
      refine ⟨by rw [hend, hentered], State.enteredActive_of hplan hstep (by rw [hat]) (by rw [hat]) (by rw [hat]) htime hservices
        hbefore.notified hnotified (by rw [hend]) (by rw [hend]) (by rw [hend]) (by rw [hend]) fun h => hlast h ?_⟩
      rw [hentered, hat]
    · rw [← hjoining]
      exact State.faulted_of (State.joinStep_of_third hbefore hdue hx hacc hsent hthird) (by rw [hat, hjoining]; decide) (by rw [hat])
        hbefore.notified hnotified (by rw [hend]) (by rw [hend])
    · exact State.joinRenewed_of (State.joinStep_of_retry hbefore hdue hx hacc hsent hfew) (by rw [hat, hjoining]) (by rw [hat])
        (by rw [hat]) hservices (by rw [hend]) (by rw [hend]) (by rw [hend])
    · exact State.joinRenewed_of (State.joinStep_of_unsent hbefore hdue hx hacc hsent) (by rw [hat, hjoining]) (by rw [hat])
        (by rw [hat]) hservices (by rw [hend]) (by rw [hend]) (by rw [hend])
  · rw [s.joinSwitchAll_link_of_not_due hl]
    exact ⟨rfl, rfl, rfl, rfl, rfl⟩
  · rw [s.joinSwitchAll_frame]
    exact ⟨rfl, rfl, rfl, rfl, rfl, rfl, rfl, rfl, rfl⟩
  · have hnot (u : State) (h : ∀ l, u.joinDue l = false) : u.anyJoinDue = false := by
      rw [← Bool.not_eq_true, State.anyJoinDue_iff]
      exact fun ⟨l, hl⟩ => by rw [h l] at hl; cases hl
    obtain ⟨hlater, hnever⟩ := event_of_not_due (event := exec .joinSwitchSuperframe) (due := State.anyJoinDue)
      (act := State.joinSwitchAll) (fun _ => rfl) hreset (hnot s hno)
    exact ⟨fun hopen hdue => hlater hopen ((State.anyJoinDue_iff _).mpr hdue), fun h => hnever (h.imp_right (hnot _))⟩

end Sys2Proof.Machine
end

section
/-! The switch of a zone (R99 to R101): its links one by one, the gate records, the deferred replan and the renewed PLANs. -/

namespace Sys2Proof.Machine

open Sys2Proof

/-! ## PLANs offered to the links of a zone -/

/-- t is s with PLANs issued on JOINING and ACTIVE links of zone z: such a link keeps its state and all but its requests and its
exchange; every other link stands. -/
structure State.PlansOffered (s t : State) (z : ZoneIx) : Prop where
  frame : t = { s with links := t.links, notices := t.notices }
  link (l : LinkIx) : t.link l = { s.link l with
    mgr := (t.link l).mgr, planSerial := (t.link l).planSerial, exchange := (t.link l).exchange }
  state (l : LinkIx) : (t.link l).mgr.state = (s.link l).mgr.state
  other (l : LinkIx) : ((s.link l).settings.zone ≠ z ∨ ((s.link l).mgr.state ≠ .active ∧ (s.link l).mgr.state ≠ .joining)) →
    t.link l = s.link l
  notified : s.Notified t

section
variable {s t u : State} {z : ZoneIx}

theorem State.PlansOffered.refl (s : State) (z : ZoneIx) : s.PlansOffered s z :=
  ⟨rfl, fun _ => rfl, fun _ => rfl, fun _ _ => rfl, .of_eq rfl⟩

theorem State.PlansOffered.trans (h : s.PlansOffered t z) (h' : t.PlansOffered u z) : s.PlansOffered u z where
  frame := by rw [h'.frame, h.frame]
  link l := by rw [h'.link l, h.link l]
  state l := (h'.state l).trans (h.state l)
  other l hl := (h'.other l (by rw [h.other l hl]; exact hl)).trans (h.other l hl)
  notified := h.notified.trans h'.notified

theorem State.issuePlan_plansOffered {l : LinkIx} (hzone : (s.link l).settings.zone = z)
    (hstate : (s.link l).mgr.state = .active ∨ (s.link l).mgr.state = .joining) (x : Exchange) (plan : List Entry) :
    s.PlansOffered (s.issuePlan l x plan) z := by
  rw [State.issuePlan_eq]
  have hlink (l' : LinkIx) := (State.modLink_link_eq s l l' (fun y => y.withPlan x (s.planItems plan)))
  refine ⟨rfl, fun l' => ?_, fun l' => ?_, fun l' hl' => ?_, ⟨_, rfl⟩⟩
  all_goals rw [State.plusNotices_link, hlink]
  · split
    · next h => rw [← h]; rfl
    · rfl
  · split
    · next h => rw [← h]; exact Manager.issued_state _ _
    · rfl
  · rw [if_neg fun (e : l = l') => ?_]
    subst e
    exact hl'.elim (fun k => k hzone) fun k => hstate.elim k.1 k.2

theorem State.openExchanges_plansOffered (p : StagedPlan) : s.PlansOffered (s.openExchanges z p) z := by
  refine State.forLinks_induct (s.PlansOffered · z) _ (fun t l h => h.trans ?_) s (.refl s z)
  split
  · next hzone =>
    split
    · next hstate => exact State.issuePlan_plansOffered hzone (Or.inl hstate) _ _
    · next hstate => exact State.issuePlan_plansOffered hzone (Or.inr hstate) _ _
    · exact .refl _ _
  · exact .refl _ _

end

/-! ## One link of a switching zone (R99, R100) -/

/-- R99, R100: link l taken at the switch of zone z. -/
def State.switchStep (z : ZoneIx) (s : State) (l : LinkIx) : State :=
  if (s.link l).settings.zone = z then
    match (s.link l).mgr.state with
    | .active => s.switchActive l
    | .joining => s.switchJoining l
    | _ => s
  else s

/-- R99 step 2: the SWITCH exchange of link l stands accepted. -/
def State.switchAccepted (s : State) (l : LinkIx) : Prop :=
  ∃ e, (s.link l).exchange = some e ∧ e.purpose = .switch ∧ e.standing = .accepted

/-- R99 step 2: an ACTIVE link that goes back to JOINING. -/
def State.switchLeaves (s : State) (l : LinkIx) : Prop := (s.link l).mgr.state = .active ∧ ¬ s.switchAccepted l

/-- R99 step 3, R100: a JOINING link that enters ACTIVE. -/
def State.switchJoins (s : State) (l : LinkIx) : Prop :=
  (s.link l).mgr.state = .joining ∧ ∃ e, (s.link l).exchange = some e ∧ e.standing = .accepted

/-- R99 step 1: state s with zone z's plan p made current. -/
def State.switched (s : State) (z : ZoneIx) (p : StagedPlan) : State := s.modZone z (fun x => x.switched p)

section
variable {s u : State} {z : ZoneIx} {p : StagedPlan} {l : LinkIx}

theorem State.switchActive_of_accepted (h : u.switchAccepted l) : u.switchActive l = u.modLink l (fun y => { y with exchange := none }) := by
  obtain ⟨e, he, hpurpose, hstanding⟩ := h
  obtain ⟨purpose, target, m, current, standing, attempts⟩ := e
  dsimp only at hpurpose hstanding
  subst hpurpose hstanding
  unfold State.switchActive
  rw [he]
  rfl

theorem State.switchActive_of_not_accepted (h : ¬ u.switchAccepted l) : u.switchActive l =
    (u.leaveActive l .joining .planNotAccepted).modLink l (fun y => { y with exchange := some (exchangeFor .join
      (u.zone (u.link l).settings.zone).planId (u.time.superframe + 3) 0) }) := by
  unfold State.switchActive
  split
  · next target m current attempts he => exact absurd ⟨_, he, rfl, rfl⟩ h
  · rfl

theorem State.switched_zone : (s.switched z p).zone z = (s.zone z).switched p := State.modZone_zone_same ..

theorem State.switched_planInForce : (s.switched z p).planInForce z = p.entries := by
  rw [State.planInForce_of_unstaged]
  · rw [State.switched_zone]; rfl
  · rw [State.switched_zone]; rfl

variable (h : (s.switched z p).LinksTurn u (fun l' => l' < l) fun _ => True)
include h

theorem State.switchTurn_zone : u.zone z = (s.zone z).switched p := by
  rw [h.frame]
  exact State.switched_zone

theorem State.switchTurn_link : u.link l = { s.link l with align := { (u.link l).align with k := (s.link l).align.k } } := h.at_turn

theorem State.switchTurn_accepted : u.switchAccepted l ↔ s.switchAccepted l := by
  unfold State.switchAccepted
  rw [State.switchTurn_link h]

theorem State.switchStep_of_idle (hidle : (s.link l).settings.zone ≠ z ∨ ((s.link l).mgr.state ≠ .active ∧ (s.link l).mgr.state ≠ .joining) ∨
    ((s.link l).mgr.state = .joining ∧ (s.link l).exchange = none)) : u.switchStep z l = u := by
  unfold State.switchStep
  rw [State.switchTurn_link h]
  dsimp only
  split
  · next hzone =>
    obtain hne | ⟨hactive, hjoining⟩ | ⟨hjoining, hnone⟩ := hidle
    · exact absurd hzone hne
    · split
      · next hst => exact absurd hst hactive
      · next hst => exact absurd hst hjoining
      · rfl
    · rw [hjoining]
      dsimp only
      rw [State.switchJoining, State.switchTurn_link h]
      dsimp only
      rw [hnone]
  · rfl

variable (hzone : (s.link l).settings.zone = z)
include hzone

theorem State.switchStep_of_active (hactive : (s.link l).mgr.state = .active) : u.switchStep z l = u.switchActive l := by
  unfold State.switchStep
  rw [State.switchTurn_link h]
  dsimp only
  rw [if_pos hzone, hactive]

theorem State.switchStep_of_accepted (hactive : (s.link l).mgr.state = .active) (hacc : s.switchAccepted l) :
    u.switchStep z l = u.modLink l (fun y => { y with exchange := none }) := by
  rw [State.switchStep_of_active h hzone hactive, State.switchActive_of_accepted ((State.switchTurn_accepted h).mpr hacc)]

theorem State.switchStep_of_leaves (hleaves : s.switchLeaves l) : u.switchStep z l =
    (u.leaveActive l .joining .planNotAccepted).modLink l (fun y => { y with exchange := some (exchangeFor .join
      p.planId (s.time.superframe + 3) 0) }) := by
  have htime : u.time = s.time := by rw [h.frame]; rfl
  rw [State.switchStep_of_active h hzone hleaves.1, State.switchActive_of_not_accepted fun k => hleaves.2 ((State.switchTurn_accepted h).mp k),
    State.switchTurn_link h, htime]
  dsimp only
  rw [hzone, State.switchTurn_zone h]
  rfl

variable (hjoining : (s.link l).mgr.state = .joining) {e : Exchange} (he : (s.link l).exchange = some e)
include hjoining he

theorem State.switchStep_of_joining : u.switchStep z l = if e.standing = .accepted then u.enterActive l
    else if s.sentBefore l e then u.countAttempt l e else u := by
  have hsent : u.sentBefore l e = s.sentBefore l e := by
    rw [Bool.eq_iff_iff, h.sentBefore, State.sentBefore_iff]
    rfl
  unfold State.switchStep
  rw [State.switchTurn_link h]
  dsimp only
  rw [if_pos hzone, hjoining]
  dsimp only
  rw [State.switchJoining, State.switchTurn_link h, ← hsent]
  dsimp only
  rw [he]

theorem State.switchStep_of_joins (hacc : e.standing = .accepted) : u.switchStep z l = u.enterActive l :=
  (State.switchStep_of_joining h hzone hjoining he).trans (if_pos hacc)

theorem State.switchStep_of_third (hacc : e.standing ≠ .accepted) (hsent : s.planWasSent l e) (hthird : 2 ≤ e.attempts) :
    u.switchStep z l = u.fault l .planFail := by
  rw [State.switchStep_of_joining h hzone hjoining he, if_neg hacc, if_pos (State.sentBefore_iff e |>.mpr hsent), State.countAttempt,
    if_pos (by omega)]

theorem State.switchStep_of_miss (hacc : e.standing ≠ .accepted) (hsent : s.planWasSent l e) (hfew : e.attempts < 2) :
    u.switchStep z l = u.modLink l (fun y => { y with exchange := some { e with attempts := e.attempts + 1 } }) := by
  rw [State.switchStep_of_joining h hzone hjoining he, if_neg hacc, if_pos (State.sentBefore_iff e |>.mpr hsent), State.countAttempt,
    if_neg (by omega)]
  rfl

theorem State.switchStep_of_unsent (hacc : e.standing ≠ .accepted) (hsent : ¬ s.planWasSent l e) : u.switchStep z l = u := by
  rw [State.switchStep_of_joining h hzone hjoining he, if_neg hacc, if_neg fun k => hsent (State.sentBefore_iff e |>.mp k)]

end

section
variable {s u : State} {z : ZoneIx} {p : StagedPlan} {l : LinkIx}

/-- R99, R100: a link of a switching zone turns alone, and the group it joins or leaves. -/
theorem State.switchStep_linksTurn (h : (s.switched z p).LinksTurn u (fun l' => l' < l) fun _ => True) :
    u.LinksTurn (u.switchStep z l) (fun l' => l' = l)
      (fun g => ((s.link l).settings.zone = z ∧ (s.switchJoins l ∨ s.switchLeaves l)) ∧ (s.link l).settings.group = g) := by
  have hgroup : (u.link l).settings.group = (s.link l).settings.group := by rw [State.switchTurn_link h]
  by_cases hzone : (s.link l).settings.zone = z
  · by_cases hactive : (s.link l).mgr.state = .active
    · by_cases hacc : s.switchAccepted l
      · rw [State.switchStep_of_accepted h hzone hactive hacc]
        exact State.modLink_linksTurn (p := fun l' => l' = l) rfl rfl
      · rw [State.switchStep_of_leaves h hzone ⟨hactive, hacc⟩]
        exact (State.leaveActive_joining_linksTurn (p := fun l' => l' = l) rfl ⟨⟨hzone, Or.inr ⟨hactive, hacc⟩⟩, hgroup.symm⟩ _).trans
          (State.modLink_linksTurn (p := fun l' => l' = l) rfl rfl)
    · by_cases hjoining : (s.link l).mgr.state = .joining
      · cases he : (s.link l).exchange with
        | none =>
          rw [State.switchStep_of_idle h (Or.inr (Or.inr ⟨hjoining, he⟩))]
          exact .refl _ _ _
        | some e =>
          by_cases hacc : e.standing = .accepted
          · rw [State.switchStep_of_joins h hzone hjoining he hacc]
            exact State.enterActive_linksTurn (p := fun l' => l' = l) rfl ⟨⟨hzone, Or.inl ⟨hjoining, e, he, hacc⟩⟩, hgroup.symm⟩
          · by_cases hsent : s.planWasSent l e
            · by_cases hthird : 2 ≤ e.attempts
              · rw [State.switchStep_of_third h hzone hjoining he hacc hsent hthird]
                exact State.fault_linksTurn (p := fun l' => l' = l) rfl (by rw [State.switchTurn_link h, hjoining]; decide) _
              · rw [State.switchStep_of_miss h hzone hjoining he hacc hsent (by omega)]
                exact State.modLink_linksTurn (p := fun l' => l' = l) rfl rfl
            · rw [State.switchStep_of_unsent h hzone hjoining he hacc hsent]
              exact .refl _ _ _
      · rw [State.switchStep_of_idle h (Or.inr (Or.inl ⟨hactive, hjoining⟩))]
        exact .refl _ _ _
  · rw [State.switchStep_of_idle h (Or.inl hzone)]
    exact .refl _ _ _

theorem State.switchStep_linkSwitched (h : (s.switched z p).LinksTurn u (fun l' => l' < l) fun _ => True) :
    s.linkSwitched u (u.switchStep z l) z p l := by
  have hlink := State.switchTurn_link h
  refine ⟨State.switchStep_of_idle h, State.switchStep_of_accepted h, fun hzone hactive hno => ?_, fun hzone hjoining hacc => ?_,
    fun e hzone hjoining he hacc => ⟨fun hsent hthird => ?_, State.switchStep_of_miss h hzone hjoining he hacc,
      State.switchStep_of_unsent h hzone hjoining he hacc⟩⟩
  · refine ⟨u.leaveActive l .joining .planNotAccepted, ?_, State.switchStep_of_leaves h hzone ⟨hactive, hno⟩⟩
    have hstate : (u.link l).mgr.state = .active := by rw [hlink, hactive]
    have hgroup : (u.link l).settings.group = (s.link l).settings.group := by rw [hlink]
    rw [State.leaveActive_joining, hstate, hgroup]
    exact State.reEvaluate_reEvaluated ..
  · obtain ⟨e, he, hacc⟩ := hacc
    rw [State.switchStep_of_joins h hzone hjoining he hacc]
    refine State.enterActive_entersActive ?_
    rw [h.planInForce, h.settings, ← State.switched_planInForce]
    exact congrArg _ hzone
  · rw [State.switchStep_of_third h hzone hjoining he hacc hsent hthird]
    exact State.takeDown_tornDown ..

end

end Sys2Proof.Machine
end

section
/-! What the switch of a zone does once its links have been taken: gate records, PLAN_SWITCHED, the deferred replan, the renewed PLANs and
the frames of the boundary (R99 to R101, R143). -/

namespace Sys2Proof.Machine

open Sys2Proof

/-! ## Gate records of the services a switch adds (R143) -/

section
variable (s : State) (z : ZoneIx)

theorem State.withGates_congr {t : State} (h : t.services = s.services) (plan : List Entry) : t.withGates plan = s.withGates plan := by
  unfold State.withGates State.service
  rw [h]

theorem State.withGates_withGates (plan : List Entry) (x : Link) : s.withGates plan (s.withGates plan x) = s.withGates plan x := by
  refine Link.gates_ext rfl fun v => ?_
  rw [State.withGates_gates, State.withGates_gates]
  split <;> rfl

theorem State.mem_zoneLinks (st : LinkState) (l : LinkIx) : l ∈ s.zoneLinks z st ↔ (s.link l).mgr.state = st ∧ (s.link l).settings.zone = z := by
  simp [State.zoneLinks, mem_allLinks]

theorem State.switchGates_eq : s.switchGates z =
    (s.zoneLinks z .active).foldl (fun t l => t.modLink l (s.withGates (s.zone z).entries)) s := by
  have h (ls : List LinkIx) (t : State) (hservices : t.services = s.services) (hzones : t.zones = s.zones) :
      ls.foldl (fun t l => t.createGates l (t.zone z).entries) t = ls.foldl (fun t l => t.modLink l (s.withGates (s.zone z).entries)) t := by
    induction ls generalizing t with
    | nil => rfl
    | cons l rest ih =>
      have hzone : t.zone z = s.zone z := congrArg (·[z]) hzones
      rw [List.foldl_cons, List.foldl_cons, State.createGates_eq, hzone, s.withGates_congr hservices]
      exact ih _ hservices hzones
  exact h _ s rfl rfl

theorem State.switchGates_frame : s.switchGates z = { s with links := (s.switchGates z).links } := by
  conv_lhs => rw [State.switchGates_eq]
  rw [State.switchGates_eq]
  exact State.foldl_modLink_eq (fun _ => s.withGates (s.zone z).entries) _ s

theorem State.switchGates_link (l : LinkIx) : (s.switchGates z).link l =
    if (s.link l).mgr.state = .active ∧ (s.link l).settings.zone = z then s.withGates (s.zone z).entries (s.link l) else s.link l := by
  rw [State.switchGates_eq, State.foldl_modLink_link (fun _ => s.withGates (s.zone z).entries) (xs := s.zoneLinks z .active)
    (allLinks_nodup.filter _) s l]
  simp only [State.mem_zoneLinks]

end

/-! ## The deferred replan and the renewed PLANs (R101) -/

section
variable (s : State) (z : ZoneIx)

/-- R101 step 5: a switched zone with the deferral taken, and the plan that may have been staged. -/
def State.undeferred (staged : Option StagedPlan) : State := s.modZone z (fun x => { x with deferred := false, staged := staged })

theorem State.modZone_congr {f f' : Zone → Zone} (h : f (s.zone z) = f' (s.zone z)) : s.modZone z f = s.modZone z f' := by
  unfold State.modZone State.zone at *
  rw [h]

theorem State.modZone_of_fixed {f : Zone → Zone} (h : f (s.zone z) = s.zone z) : s.modZone z f = s :=
  (s.modZone_congr z (f' := id) h).trans (by simp [State.modZone])

theorem State.undeferred_of_none (hstaged : (s.zone z).staged = none) :
    s.undeferred z none = s.modZone z (fun x => { x with deferred := false }) :=
  s.modZone_congr z (by rw [← hstaged])

/-- R101 step 5: the deferred replan offers PLANs on the links of its zone. -/
theorem State.deferredReplan_plansOffered (hstaged : (s.zone z).staged = none) :
    ∃ staged, (s.undeferred z staged).PlansOffered (s.deferredReplan z) z ∧
      ((s.zone z).deferred = false → staged = none ∧ s.deferredReplan z = s) := by
  unfold State.deferredReplan
  split
  · next hdeferred =>
    have hnot (q : Prop) (h : (s.zone z).deferred = false) : q := by
      rw [hdeferred] at h
      cases h
    have hzone : (s.modZone z (fun x => { x with deferred := false })).zone z = { s.zone z with deferred := false } := State.modZone_zone_same ..
    obtain ⟨hsome, -⟩ | ⟨-, -, heq⟩ | ⟨-, -, heq⟩ := (s.modZone z (fun x => { x with deferred := false })).replan_cases z
    · rw [hzone, hstaged] at hsome
      cases hsome
    · refine ⟨none, ?_, fun h => hnot _ h⟩
      rw [heq, s.undeferred_of_none z hstaged]
      exact .refl _ z
    · refine ⟨some ((s.modZone z (fun x => { x with deferred := false })).newPlan z), ?_, fun h => hnot _ h⟩
      rw [heq, State.modZone_modZone]
      exact State.openExchanges_plansOffered _
  · next hdeferred =>
    refine ⟨none, ?_, fun _ => ⟨rfl, rfl⟩⟩
    rw [s.undeferred_of_none z hstaged, s.modZone_of_fixed z (by rw [← eq_false_of_ne_true hdeferred])]
    exact .refl _ z

/-- R101 step 6: what the links of a switched zone are offered. -/
def State.renewal (l : LinkIx) : Option (Exchange × List Entry) :=
  if (s.link l).settings.zone = z ∧ (s.link l).mgr.state = .joining then
    some (exchangeFor .join (s.zone z).planId (s.time.superframe + 3) (((s.link l).exchange.map (fun e => e.attempts)).getD 0),
      (s.zone z).entries)
  else none

theorem State.renewJoins_eq (hstaged : (s.zone z).staged = none) :
    s.renewJoins z = s.forLinks (fun u l => u.issueOffer l (s.renewal z l)) := by
  unfold State.renewJoins
  rw [hstaged]
  refine Eq.trans ?_ (foldl_eq_issueOffers (f := fun u l => if (s.link l).mgr.state == .joining && (s.link l).settings.zone == z then
    u.issueJoin l (match (u.link l).exchange with
      | some x => x.attempts
      | none => 0) else u) (s := s) ?_ allLinks_nodup (fun _ _ => rfl) rfl rfl)
  · exact List.foldl_filter
  · intro u l hlink hzones htime
    have hzone : u.zone z = s.zone z := congrArg (·[z]) hzones
    unfold State.renewal
    by_cases hin : (s.link l).settings.zone = z ∧ (s.link l).mgr.state = .joining
    · rw [if_pos hin, if_pos (by simp [hin.1, hin.2])]
      rw [State.issueJoin_of_offers (target := (s.zone z).planId) (m := s.time.superframe + 3) (entries := (s.zone z).entries) _
        (by rw [hlink, hin.1]; exact Or.inr ⟨by rw [hzone, hstaged], by rw [hzone], by rw [htime], by rw [hzone]⟩), hlink]
      cases (s.link l).exchange <;> rfl
    · rw [if_neg hin, if_neg fun k => hin (by simpa [and_comm] using k)]
      rfl

theorem State.renewJoins_plansIssued (hstaged : (s.zone z).staged = none) : s.plansIssued (s.renewJoins z) (s.renewal z) := by
  rw [s.renewJoins_eq z hstaged]
  exact State.forLinks_issueOffer _ s

theorem State.renewJoins_link (hstaged : (s.zone z).staged = none) (l : LinkIx) :
    (s.renewJoins z).link l = (s.link l).withOffer s (s.renewal z l) := by
  rw [s.renewJoins_eq z hstaged, State.forLinks, (State.foldl_issueOffer (s.renewal z) allLinks_nodup s).2, if_pos (mem_allLinks l)]

theorem State.renewJoins_of_staged (hstaged : (s.zone z).staged.isSome = true) : s.renewJoins z = s := if_pos hstaged

theorem State.renewJoins_plansOffered : s.PlansOffered (s.renewJoins z) z := by
  cases hstaged : (s.zone z).staged with
  | some p =>
    rw [s.renewJoins_of_staged z (by rw [hstaged]; rfl)]
    exact .refl s z
  | none =>
    rw [s.renewJoins_eq z hstaged]
    have h (ls : List LinkIx) (t : State) (ht : s.PlansOffered t z) :
        s.PlansOffered (ls.foldl (fun u l => u.issueOffer l (s.renewal z l)) t) z := by
      refine foldl_induct (fun t => s.PlansOffered t z) _ (fun t l ht => ?_) ls t ht
      unfold State.renewal
      split
      · next hin =>
        refine ht.trans (State.issuePlan_plansOffered ?_ (Or.inr ?_) _ _)
        · rw [ht.link]; exact hin.1
        · rw [ht.state]; exact hin.2
      · exact ht
    exact h _ s (.refl s z)

end

end Sys2Proof.Machine
end

section
/-! The switch of a zone as a whole (R99 to R101). -/

namespace Sys2Proof.Machine

open Sys2Proof

section
variable (s : State) (z : ZoneIx) (p : StagedPlan)

/-- R99 steps 1 to 3, R100: zone z's plan p made current, and the links of the zone taken. -/
@[irreducible] def State.linksSwitched : State := (s.switched z p).forLinks (State.switchStep z)

/-- R99 step 2: the links that PLAN_SWITCHED lists. -/
def State.switchedOut : List LinkIx :=
  (s.zoneLinks z .active).filter (fun l => (((s.linksSwitched z p).switchGates z).link l).mgr.state == .joining)

/-- R99: a switch as far as PLAN_SWITCHED. -/
@[irreducible] def State.switchReported : State :=
  ((s.linksSwitched z p).switchGates z).plusNotice (.planSwitched z p.planId p.entries p.shed (s.switchedOut z p))

/-- R101: a switch but for the frames of the boundary. -/
@[irreducible] def State.switchRenewed : State := ((s.switchReported z p).deferredReplan z).renewJoins z

theorem State.linksSwitched_eq : s.linksSwitched z p = (s.modZone z (fun x => x.switched p)).switchLinks z := by
  unfold State.linksSwitched
  rfl

theorem State.switchZone_eq : s.switchZone z p = (s.switchRenewed z p).regovernChanged s := by
  unfold State.switchZone State.switchRenewed State.switchReported State.switchedOut
  rw [s.linksSwitched_eq]
  rfl

theorem State.switchPass_before (l : LinkIx) :
    (s.switched z p).LinksTurn (State.passed (State.switchStep z) (s.switched z p) l.val) (fun l' => l' < l) fun _ => True :=
  State.passed_before (fun _ _ => State.switchStep_linksTurn) l

theorem State.switchPass_end (l : LinkIx) :
    ((State.passed (State.switchStep z) (s.switched z p) l.val).switchStep z l).LinksTurn (s.linksSwitched z p) (fun l' => l < l')
      (fun g => ∃ l', l < l' ∧ ((s.link l').settings.zone = z ∧ (s.switchJoins l' ∨ s.switchLeaves l')) ∧ (s.link l').settings.group = g) := by
  rw [← State.passed_succ (State.switchStep z) (s.switched z p) l]
  unfold State.linksSwitched
  exact State.passed_end (fun _ _ => State.switchStep_linksTurn) l

theorem State.linksSwitched_linksTurn : (s.switched z p).LinksTurn (s.linksSwitched z p) (fun _ => True) fun _ => True := by
  unfold State.linksSwitched
  exact State.forLinks_linksTurn fun _ _ => State.switchStep_linksTurn

theorem State.linksSwitched_zone (z' : ZoneIx) : (s.linksSwitched z p).zone z' = (s.switched z p).zone z' := by
  have h := (s.linksSwitched_linksTurn z p).frame
  generalize s.linksSwitched z p = e at h ⊢
  rw [h]
  rfl

theorem State.linksSwitched_settings (l : LinkIx) : ((s.linksSwitched z p).link l).settings = (s.link l).settings :=
  (s.linksSwitched_linksTurn z p).settings l

theorem State.linksSwitched_services : (s.linksSwitched z p).services = s.services := by
  have h := (s.linksSwitched_linksTurn z p).frame
  generalize s.linksSwitched z p = e at h ⊢
  rw [h]
  rfl

/-- R143: the link records of a switch, with the gate records of the services it adds. -/
theorem State.switchReported_link (l : LinkIx) : (s.switchReported z p).link l =
    if ((s.linksSwitched z p).link l).mgr.state = .active ∧ (s.link l).settings.zone = z then
      s.withGates p.entries ((s.linksSwitched z p).link l)
    else (s.linksSwitched z p).link l := by
  have hentries : ((s.linksSwitched z p).zone z).entries = p.entries := by
    rw [s.linksSwitched_zone, State.switched_zone]
    rfl
  rw [State.switchReported, State.plusNotice_link, State.switchGates_link, s.linksSwitched_settings, hentries,
    s.withGates_congr (s.linksSwitched_services z p)]

theorem State.switchReported_link_frame (l : LinkIx) : (s.switchReported z p).link l =
    { (s.linksSwitched z p).link l with gates := ((s.switchReported z p).link l).gates } := by
  rw [State.switchReported_link]
  generalize (s.linksSwitched z p).link l = x
  split <;> rfl

theorem State.switchReported_frame : s.switchReported z p =
    { (s.linksSwitched z p).plusNotice (.planSwitched z p.planId p.entries p.shed (s.switchedOut z p)) with
      links := (s.switchReported z p).links } := by
  have h := (s.linksSwitched z p).switchGates_frame z
  unfold State.switchReported
  generalize (s.linksSwitched z p).switchGates z = g at h ⊢
  generalize s.switchedOut z p = sent
  generalize s.linksSwitched z p = e at h ⊢
  rw [h]
  rfl

theorem State.switchReported_groups : (s.switchReported z p).groups = (s.linksSwitched z p).groups := by
  have h := s.switchReported_frame z p
  generalize s.switchReported z p = u at h ⊢
  generalize s.linksSwitched z p = e at h ⊢
  rw [h]
  rfl

theorem State.switchReported_zone (z' : ZoneIx) : (s.switchReported z p).zone z' = (s.switched z p).zone z' := by
  rw [← s.linksSwitched_zone]
  have h := s.switchReported_frame z p
  generalize s.switchReported z p = u at h ⊢
  rw [h]
  generalize s.linksSwitched z p = e
  rfl

theorem State.switchReported_zone_same : (s.switchReported z p).zone z = (s.zone z).switched p := by
  rw [s.switchReported_zone, State.switched_zone]

/-- R101: what the deferred replan and the renewed PLANs leave of a switch. -/
theorem State.switchRenewed_plansOffered : ∃ staged,
    ((s.switchReported z p).undeferred z staged).PlansOffered (s.switchRenewed z p) z ∧ ((s.zone z).deferred = false → staged = none) := by
  have hstaged : ((s.switchReported z p).zone z).staged = none := by rw [s.switchReported_zone_same]; rfl
  have hdeferred : ((s.switchReported z p).zone z).deferred = (s.zone z).deferred := by rw [s.switchReported_zone_same]; rfl
  obtain ⟨staged, hoffered, hnone⟩ := (s.switchReported z p).deferredReplan_plansOffered z hstaged
  unfold State.switchRenewed
  exact ⟨staged, hoffered.trans (State.renewJoins_plansOffered _ z), fun h => (hnone (hdeferred.trans h)).1⟩

/-- R101 step 6: without a deferred replan every JOINING link of the zone is offered the new plan. -/
theorem State.switchRenewed_of_undeferred (h : (s.zone z).deferred = false) :
    s.switchRenewed z p = (s.switchReported z p).renewJoins z ∧ ((s.switchReported z p).zone z).staged = none := by
  have hstaged : ((s.switchReported z p).zone z).staged = none := by rw [s.switchReported_zone_same]; rfl
  have hdeferred : ((s.switchReported z p).zone z).deferred = false := by rw [s.switchReported_zone_same]; exact h
  obtain ⟨_, -, hnone⟩ := (s.switchReported z p).deferredReplan_plansOffered z hstaged
  unfold State.switchRenewed
  exact ⟨congrArg (State.renewJoins · z) (hnone hdeferred).2, hstaged⟩

theorem State.switchZone_governed : s.governed (s.switchRenewed z p) (s.switchZone z p) := by
  rw [State.switchZone_eq]
  exact State.regovernChanged_governed _ s

/-! ## Links after the switch -/

/-- What of a link stands once it has been taken. -/
theorem State.switchZone_link (l : LinkIx) : (s.switchZone z p).link l = { (s.linksSwitched z p).link l with
      mgr := ((s.switchZone z p).link l).mgr, planSerial := ((s.switchZone z p).link l).planSerial
      exchange := ((s.switchZone z p).link l).exchange, line := ((s.switchZone z p).link l).line
      gates := ((s.switchReported z p).link l).gates } ∧
    ((s.switchZone z p).link l).mgr.state = ((s.linksSwitched z p).link l).mgr.state := by
  obtain ⟨staged, hoffered, -⟩ := s.switchRenewed_plansOffered z p
  obtain ⟨hlink, -⟩ := (s.switchZone_governed z p).link l
  have hrenewed := hoffered.link l
  have hstate := hoffered.state l
  rw [State.undeferred, State.modZone_link, s.switchReported_link_frame] at hrenewed hstate
  generalize (s.switchZone z p).link l = x at hlink ⊢
  rw [hrenewed] at hlink
  exact ⟨by rw [hlink], by rw [hlink, ← hstate]⟩

/-- A link out of the zone, or out of JOINING and ACTIVE, stands but for its frame; where its state stood, that too. -/
theorem State.switchZone_link_idle {l : LinkIx} (hidle : (s.link l).settings.zone ≠ z ∨
    (((s.linksSwitched z p).link l).mgr.state ≠ .active ∧ ((s.linksSwitched z p).link l).mgr.state ≠ .joining)) :
    (s.switchZone z p).link l = { (s.linksSwitched z p).link l with
      mgr := { ((s.linksSwitched z p).link l).mgr with frame := ((s.switchZone z p).link l).mgr.frame }
      line := ((s.switchZone z p).link l).line } ∧
    (((s.linksSwitched z p).link l).mgr.state = (s.link l).mgr.state → (s.switchZone z p).link l = (s.linksSwitched z p).link l) := by
  obtain ⟨staged, hoffered, -⟩ := s.switchRenewed_plansOffered z p
  have hgates : (s.switchReported z p).link l = (s.linksSwitched z p).link l := by
    rw [State.switchReported_link, if_neg fun k => hidle.elim (fun h => h k.2) fun h => h.1 k.1]
  have hother := hoffered.other l (by
    rw [State.undeferred, State.modZone_link, hgates, s.linksSwitched_settings]
    exact hidle)
  rw [State.undeferred, State.modZone_link, hgates] at hother
  have h := (s.switchZone_governed z p).link l
  rw [hother] at h
  exact h

/-- R101 step 6: a link of a switch without a deferred replan. -/
theorem State.switchZone_link_undeferred (h : (s.zone z).deferred = false) (l : LinkIx) :
    let x := ((s.switchReported z p).link l).withOffer (s.switchReported z p) ((s.switchReported z p).renewal z l)
    (s.switchZone z p).link l = { x with
      mgr := { x.mgr with frame := ((s.switchZone z p).link l).mgr.frame }, line := ((s.switchZone z p).link l).line } := by
  obtain ⟨heq, hstaged⟩ := s.switchRenewed_of_undeferred z p h
  obtain ⟨hlink, -⟩ := (s.switchZone_governed z p).link l
  rw [heq, State.renewJoins_link _ _ hstaged] at hlink
  exact hlink

/-! ## The rest of the state after the switch -/

theorem State.switchZone_frame : s.switchZone z p = { s with
    links := (s.switchZone z p).links, groups := (s.switchZone z p).groups, zones := (s.switchZone z p).zones
    notices := (s.switchZone z p).notices, combiner := { s.combiner with now := (s.switchZone z p).combiner.now } } := by
  obtain ⟨staged, hoffered, -⟩ := s.switchRenewed_plansOffered z p
  obtain ⟨-, hframe, -⟩ := s.switchZone_governed z p
  have hreported := s.switchReported_frame z p
  have hlinks := (s.linksSwitched_linksTurn z p).frame
  generalize s.switchZone z p = t at hframe ⊢
  rw [hframe]
  generalize s.switchRenewed z p = w at hoffered ⊢
  rw [hoffered.frame, State.undeferred]
  generalize s.switchReported z p = u at hreported ⊢
  rw [hreported]
  generalize s.switchedOut z p = sent
  generalize s.linksSwitched z p = e at hlinks ⊢
  rw [hlinks]
  rfl

theorem State.switchZone_rest : (s.switchZone z p).groups = (s.linksSwitched z p).groups ∧
    (s.switchReported z p).Notified (s.switchZone z p) ∧ (∀ z', z' ≠ z → (s.switchZone z p).zone z' = s.zone z') ∧
    ∃ staged, (s.switchZone z p).zone z = { (s.zone z).switched p with deferred := false, staged := staged } ∧
      ((s.zone z).deferred = false → staged = none) := by
  obtain ⟨staged, hoffered, hnone⟩ := s.switchRenewed_plansOffered z p
  have hgoverned := s.switchZone_governed z p
  generalize s.switchZone z p = t at hgoverned ⊢
  generalize s.switchRenewed z p = w at hgoverned hoffered
  obtain ⟨-, hframe, -⟩ := hgoverned
  have hgroups : t.groups = w.groups := (congrArg State.groups hframe :)
  have hnotices : t.notices = w.notices := (congrArg State.notices hframe :)
  have hzones : t.zones = w.zones := (congrArg State.zones hframe :)
  have hreportedGroups := s.switchReported_groups z p
  have hreportedZone := s.switchReported_zone z p
  generalize s.switchReported z p = u at hoffered hreportedGroups hreportedZone ⊢
  have hframe' := hoffered.frame
  have hzone (z' : ZoneIx) : t.zone z' = (u.undeferred z staged).zone z' := by
    unfold State.zone
    rw [hzones, hframe']
  refine ⟨?_, hoffered.notified.trans (.of_eq hnotices), fun z' hz' => ?_, staged, ?_, hnone⟩
  · rw [hgroups, hframe']
    exact hreportedGroups
  · rw [hzone, State.undeferred, State.modZone_zone_other _ _ _ _ (Ne.symm hz'), hreportedZone]
    exact State.modZone_zone_other _ _ _ _ (Ne.symm hz')
  · rw [hzone, State.undeferred, State.modZone_zone_same, hreportedZone, State.switched_zone]

end

end Sys2Proof.Machine
end

section
/-! The links of a zone after its switch (R99 to R101). -/

namespace Sys2Proof.Machine

open Sys2Proof

section
variable {s : State} {z : ZoneIx} {p : StagedPlan} {l : LinkIx}

/-- The state in which a switch takes link l. -/
@[irreducible] def State.switchTurn (s : State) (z : ZoneIx) (p : StagedPlan) (l : LinkIx) : State :=
  State.passed (State.switchStep z) (s.switched z p) l.val

theorem State.switchTurn_before : (s.switched z p).LinksTurn (s.switchTurn z p l) (fun l' => l' < l) fun _ => True := by
  unfold State.switchTurn
  exact s.switchPass_before z p l

theorem State.switchTurn_at : (s.switchTurn z p l).link l =
    { s.link l with align := { ((s.switchTurn z p l).link l).align with k := (s.link l).align.k } } :=
  State.switchTurn_link State.switchTurn_before

theorem State.switchTurn_rest : (s.switchTurn z p l).time = s.time ∧ (s.switchTurn z p l).services = s.services ∧
    s.Notified (s.switchTurn z p l) := by
  have h := State.switchTurn_before (s := s) (z := z) (p := p) (l := l)
  have hnotified : s.Notified (s.switched z p) := .of_eq rfl
  refine ⟨?_, ?_, hnotified.trans h.notified⟩
  all_goals
    rw [h.frame]
    rfl

theorem State.switchTurn_after : ((s.switchTurn z p l).switchStep z l).LinksTurn (s.linksSwitched z p) (fun l' => l < l')
    (fun g => ∃ l', l < l' ∧ ((s.link l').settings.zone = z ∧ (s.switchJoins l' ∨ s.switchLeaves l')) ∧ (s.link l').settings.group = g) := by
  unfold State.switchTurn
  exact s.switchPass_end z p l

theorem State.linksSwitched_link : (s.linksSwitched z p).link l = { ((s.switchTurn z p l).switchStep z l).link l with
    align := { ((s.linksSwitched z p).link l).align with k := (((s.switchTurn z p l).switchStep z l).link l).align.k } } :=
  State.switchTurn_after.other l (lt_irrefl l)

theorem State.switchStep_notified : ((s.switchTurn z p l).switchStep z l).Notified (s.switchZone z p) := by
  obtain ⟨-, hnotified, -⟩ := s.switchZone_rest z p
  refine State.switchTurn_after.notified.trans (State.Notified.trans ?_ hnotified)
  have hframe := s.switchReported_frame z p
  generalize s.switchReported z p = u at hframe ⊢
  exact ⟨[_], (congrArg State.notices hframe :)⟩

/-! ## Links of other zones -/

theorem State.switchZone_link_elsewhere (hzone : (s.link l).settings.zone ≠ z) : (s.switchZone z p).link l = { s.link l with
    align := { ((s.switchZone z p).link l).align with k := (s.link l).align.k } } := by
  have hlink := State.linksSwitched_link (s := s) (z := z) (p := p) (l := l)
  rw [State.switchStep_of_idle State.switchTurn_before (Or.inl hzone), State.switchTurn_at] at hlink
  obtain ⟨-, hsame⟩ := s.switchZone_link_idle z p (Or.inl hzone)
  rw [hsame (by rw [hlink]), hlink]

/-! ## ACTIVE links -/

variable (hzone : (s.link l).settings.zone = z)
include hzone

theorem State.linksSwitched_link_accepted (hactive : (s.link l).mgr.state = .active) (hacc : s.switchAccepted l) :
    (s.linksSwitched z p).link l = { s.link l with
      align := { ((s.linksSwitched z p).link l).align with k := (s.link l).align.k }, exchange := none } := by
  have hlink := State.linksSwitched_link (s := s) (z := z) (p := p) (l := l)
  rw [State.switchStep_of_accepted State.switchTurn_before hzone hactive hacc, State.modLink_link_same, State.switchTurn_at] at hlink
  exact hlink

omit hzone in
/-- R99 step 2, R101 step 6: an ACTIVE link after a switch without a deferred replan has the exchange its turn left. -/
theorem State.switchZone_exchange_of_active (hdeferred : (s.zone z).deferred = false)
    (hactive : ((s.linksSwitched z p).link l).mgr.state = .active) :
    ((s.switchZone z p).link l).exchange = ((s.linksSwitched z p).link l).exchange := by
  have hrenewal : (s.switchReported z p).renewal z l = none :=
    if_neg fun k => by
      have h := k.2
      rw [s.switchReported_link_frame, hactive] at h
      cases h
  rw [s.switchZone_link_undeferred z p hdeferred, hrenewal]
  show ((s.switchReported z p).link l).exchange = _
  rw [s.switchReported_link_frame]

/-- R143: the gate records of an ACTIVE link after a switch. -/
theorem State.switchZone_gates_of_active (hactive : ((s.linksSwitched z p).link l).mgr.state = .active) (v : ServiceIx) :
    ((s.switchZone z p).link l).gates[v] = if v ∈ carriedOf p.entries ∧ (s.service v).ring.isSome = true then
      some ((((s.linksSwitched z p).link l).gates[v]).getD { energy := 0, floor := 4294967295, isOpen := false, closeCount := 0 })
      else ((s.linksSwitched z p).link l).gates[v] := by
  rw [(s.switchZone_link z p l).1, ← State.withGates_gates]
  dsimp only
  rw [s.switchReported_link, if_pos ⟨hactive, hzone⟩]

omit hzone in
theorem State.switchZone_gates_of_inactive (hinactive : ((s.linksSwitched z p).link l).mgr.state ≠ .active) :
    ((s.switchZone z p).link l).gates = ((s.linksSwitched z p).link l).gates := by
  rw [(s.switchZone_link z p l).1]
  dsimp only
  rw [s.switchReported_link, if_neg fun k => hinactive k.1]

/-- R9, R41, R47, R48, R98, R137: a link that returns to JOINING. -/
theorem State.linksSwitched_link_leaves (hleaves : s.switchLeaves l) : (s.linksSwitched z p).link l = { s.link l with
    mgr := { (s.link l).mgr with state := .joining }
    rng := { (s.link l).rng with trackCount := 0, outliers := 0, marker := none, skipCount := false }
    align := { k := (s.link l).align.k, kStar := (s.link l).align.k, slewing := false, outOfReach := false }
    exchange := some (exchangeFor .join p.planId (s.time.superframe + 3) 0), rx := none, gates := Vector.replicate 24 none } := by
  have hat := State.switchTurn_at (s := s) (z := z) (p := p) (l := l)
  have hgone (a : State) (n : Notice) : ((a.departed l .joining).plusNotice n).link l = { a.link l with
      mgr := { (a.link l).mgr with state := .joining }
      rng := { (a.link l).rng with trackCount := 0, outliers := 0, marker := none, skipCount := false }
      align := { k := (a.link l).align.k, kStar := (a.link l).align.k, slewing := false, outOfReach := false }
      exchange := none, rx := none, gates := Vector.replicate 24 none } :=
    (State.plusNotice_link ..).trans (State.modLink_link_same ..)
  have hstep : ((s.switchTurn z p l).switchStep z l).link l = { s.link l with
      mgr := { (s.link l).mgr with state := .joining }
      rng := { (s.link l).rng with trackCount := 0, outliers := 0, marker := none, skipCount := false }
      align := { k := (s.link l).align.k, kStar := (s.link l).align.k, slewing := false, outOfReach := false }
      exchange := some (exchangeFor .join p.planId (s.time.superframe + 3) 0), rx := none, gates := Vector.replicate 24 none } := by
    rw [State.switchStep_of_leaves State.switchTurn_before hzone hleaves, State.modLink_link_same, State.leaveActive_joining,
      State.reEvaluate_link_of_inactive (by rw [hgone]; exact fun k => nomatch k), hgone, hat]
  rw [State.switchTurn_after.same l (lt_irrefl l) (Or.inl (by rw [hstep]; exact fun k => nomatch k)), hstep]

/-- R101 step 6: a JOINING link after a switch without a deferred replan. -/
theorem State.switchZone_renewed (hdeferred : (s.zone z).deferred = false) {e : Exchange}
    (hjoining : ((s.linksSwitched z p).link l).mgr.state = .joining)
    (hheld : ((s.linksSwitched z p).link l).mgr.outstanding = (s.link l).mgr.outstanding)
    (hserial : ((s.linksSwitched z p).link l).planSerial = (s.link l).planSerial)
    (he : ((s.linksSwitched z p).link l).exchange = some e) :
    s.joinRenewed (s.switchZone z p) l p.planId (s.time.superframe + 3) p.entries e.attempts := by
  have hreported : (s.switchReported z p).link l = (s.linksSwitched z p).link l := by
    rw [s.switchReported_link, hjoining]
    rfl
  have hsettings := s.linksSwitched_settings z p l
  have hzoneRec := s.switchReported_zone_same z p
  have hundeferred := s.switchZone_link_undeferred z p hdeferred l
  have htime : (s.switchReported z p).time = s.time ∧ (s.switchReported z p).services = s.services := by
    have h := s.switchReported_frame z p
    have h' := (s.linksSwitched_linksTurn z p).frame
    generalize s.switchReported z p = u at h ⊢
    rw [h]
    generalize s.switchedOut z p = sent
    generalize s.linksSwitched z p = w at h' ⊢
    rw [h']
    exact ⟨rfl, rfl⟩
  generalize s.switchReported z p = u at hreported hzoneRec hundeferred htime
  generalize s.linksSwitched z p = w at *
  have hrenewal : u.renewal z l = some (exchangeFor .join p.planId (s.time.superframe + 3) e.attempts, p.entries) := by
    have hin : (u.link l).settings.zone = z ∧ (u.link l).mgr.state = .joining := by
      rw [hreported, hsettings]
      exact ⟨hzone, hjoining⟩
    unfold State.renewal
    rw [if_pos hin, hzoneRec, hreported, he, htime.1]
    rfl
  have hlink : ((u.issuePlan l (exchangeFor .join p.planId (s.time.superframe + 3) e.attempts) p.entries).link l) =
      (u.link l).withOffer u (u.renewal z l) := by
    rw [State.issuePlan_eq, State.plusNotices_link, State.modLink_link_same, hrenewal]
    rfl
  generalize (u.link l).withOffer u (u.renewal z l) = x at hundeferred hlink
  exact State.joinRenewed_of rfl (by rw [hreported, hjoining]) (by rw [hreported, hheld]) (by rw [hreported, hserial]) htime.2
    (by rw [hundeferred, hlink]) (by rw [hundeferred, hlink]) (by rw [hundeferred, hlink])

theorem State.switchZone_leaves (hleaves : s.switchLeaves l) :
    ((s.switchZone z p).link l).mgr.state = .joining ∧ ((s.switchZone z p).link l).rx = none ∧
    ((s.switchZone z p).link l).align.kStar = (s.link l).align.k ∧ ((s.switchZone z p).link l).align.k = (s.link l).align.k ∧
    ((s.switchZone z p).link l).align.slewing = false ∧ ((s.switchZone z p).link l).align.outOfReach = false ∧
    (∀ v : ServiceIx, ((s.switchZone z p).link l).gates[v] = none) ∧
    s.noticesInclude (s.switchZone z p) (.linkState l .active .joining .planNotAccepted (Vector.replicate 4 false) none) ∧
    ((s.zone z).deferred = false →
      s.joinRenewed (s.switchZone z p) l p.planId (s.time.superframe + 3) p.entries 0) := by
  have hlink := State.linksSwitched_link_leaves (p := p) hzone hleaves
  obtain ⟨hend, hstate⟩ := s.switchZone_link z p l
  have hgates := State.switchZone_gates_of_inactive (s := s) (z := z) (p := p) (l := l) (by rw [hlink]; exact fun k => nomatch k)
  have hrenewed (h : (s.zone z).deferred = false) := State.switchZone_renewed (p := p) hzone h (e := exchangeFor .join p.planId
    (s.time.superframe + 3) 0) (by rw [hlink]) (by rw [hlink]) (by rw [hlink]) (by rw [hlink])
  have hnotified := State.switchStep_notified (s := s) (z := z) (p := p) (l := l)
  obtain ⟨-, -, hbefore⟩ := State.switchTurn_rest (s := s) (z := z) (p := p) (l := l)
  have hactive : ((s.switchTurn z p l).link l).mgr.state = .active := by rw [State.switchTurn_at, hleaves.1]
  rw [State.switchStep_of_leaves State.switchTurn_before hzone hleaves, State.leaveActive_joining, hactive] at hnotified
  generalize s.switchTurn z p l = a at hnotified hbefore
  generalize s.switchZone z p = t at *
  generalize s.linksSwitched z p = w at *
  rw [hlink] at hend hstate hgates
  refine ⟨hstate, by rw [hend], by rw [hend], by rw [hend], by rw [hend], by rw [hend], fun v => ?_, ?_, hrenewed⟩
  · rw [hgates]
    exact Vector.getElem_replicate ..
  · exact State.Notified.includes hbefore (State.Notified.trans
      (t := ((a.departed l .joining).plusNotice (.linkState l .active .joining .planNotAccepted (Vector.replicate 4 false) none)).reEvaluate
        (a.link l).settings.group (.left l) (a.clearedFlag l)) (State.reEvaluate_notified _ _ _ : State.Notified ..) hnotified)

/-! ## JOINING links -/

theorem State.switchZone_joins (hjoins : s.switchJoins l) {last : Prop}
    (hlast : last → ∀ l', l < l' → (s.link l').settings.zone = z → (s.link l').settings.group = (s.link l).settings.group →
      ¬ s.switchJoins l' ∧ ¬ s.switchLeaves l') :
    ((s.zone z).deferred = false → ((s.switchZone z p).link l).exchange = none) ∧
    s.enteredActive (s.switchZone z p) l p.entries last := by
  obtain ⟨hjoining, e, he, hacc⟩ := hjoins
  have hbefore := State.switchTurn_before (s := s) (z := z) (p := p) (l := l)
  have hafter := State.switchTurn_after (s := s) (z := z) (p := p) (l := l)
  have hat := State.switchTurn_at (s := s) (z := z) (p := p) (l := l)
  have hlink := State.linksSwitched_link (s := s) (z := z) (p := p) (l := l)
  have hstep := State.switchStep_of_joins hbefore hzone hjoining he hacc
  obtain ⟨htime, hservices, hnotified⟩ := State.switchTurn_rest (s := s) (z := z) (p := p) (l := l)
  have hplan : (s.switchTurn z p l).planInForce ((s.switchTurn z p l).link l).settings.zone = p.entries := by
    rw [hbefore.planInForce, hbefore.settings, ← State.switched_planInForce]
    exact congrArg _ hzone
  have hentered := State.enterActive_link hplan
  rw [← hstep] at hentered
  obtain ⟨-, -, -, hfresh⟩ := State.enterActive_entersActive hplan
  rw [← hstep] at hfresh
  have hactive : ((s.linksSwitched z p).link l).mgr.state = .active := by rw [hlink, hentered]
  have hexchange : ((s.linksSwitched z p).link l).exchange = none := by rw [hlink, hentered]
  have hgates : ((s.switchZone z p).link l).gates = (((s.switchTurn z p l).switchStep z l).link l).gates := by
    have hfree : ((s.linksSwitched z p).link l).gates = (((s.switchTurn z p l).switchStep z l).link l).gates := by rw [hlink]
    ext1 i hi
    refine (State.switchZone_gates_of_active hzone hactive ⟨i, hi⟩).trans ?_
    rw [hfree]
    refine Eq.trans ?_ (hfresh ⟨i, hi⟩).symm
    have hservice (v : ServiceIx) : (s.switchTurn z p l).service v = s.service v := congrArg (·[v]) hservices
    rw [hfresh, hservice]
    split <;> rfl
  obtain ⟨hend, hstate⟩ := s.switchZone_link z p l
  obtain ⟨hgroups, -⟩ := s.switchZone_rest z p
  have hend' := State.switchStep_notified (s := s) (z := z) (p := p) (l := l)
  refine ⟨fun h => (State.switchZone_exchange_of_active h hactive).trans hexchange, ?_⟩
  generalize s.switchTurn z p l = a at *
  generalize s.switchZone z p = t at *
  generalize s.linksSwitched z p = w at *
  refine State.enteredActive_of hplan hstep (by rw [hat]) (by rw [hat]) (by rw [hat]) htime hservices hnotified hend'
    (by rw [hstate, hlink]) (by rw [hend, hlink]) (by rw [hend, hlink]) hgates fun h => ?_
  have hsettings : ((a.switchStep z l).link l).settings = (s.link l).settings := by rw [hentered, hat]
  have hnone : ¬ ∃ l', l < l' ∧ ((s.link l').settings.zone = z ∧ (s.switchJoins l' ∨ s.switchLeaves l')) ∧
      (s.link l').settings.group = (s.link l).settings.group := by
    rintro ⟨l', hlt, ⟨hz, hturns⟩, hgroup⟩
    obtain ⟨hjoins, hleaves⟩ := hlast h l' hlt hz hgroup
    exact hturns.elim hjoins hleaves
  have halign : (t.link l).align = (w.link l).align := by rw [hend]
  refine ⟨halign.trans (congrArg Link.align (hafter.same l (lt_irrefl l) (Or.inr (by rw [hsettings]; exact hnone)))), ?_⟩
  exact (congrArg (·[(s.link l).settings.group]) hgroups).trans (hafter.group _ hnone)

section
variable (hjoining : (s.link l).mgr.state = .joining) {e : Exchange} (he : (s.link l).exchange = some e) (hacc : e.standing ≠ .accepted)
include hjoining he hacc

theorem State.switchZone_third (hsent : s.planWasSent l e) (hthird : 2 ≤ e.attempts) :
    ((s.switchZone z p).link l).mgr.state = .fault ∧ ((s.switchZone z p).link l).exchange = none ∧
      s.noticesInclude (s.switchZone z p) (.linkState l .joining .fault (.fault .planFail) (s.link l).mgr.wires none) := by
  have hbefore := State.switchTurn_before (s := s) (z := z) (p := p) (l := l)
  have hat := State.switchTurn_at (s := s) (z := z) (p := p) (l := l)
  have hlink := State.linksSwitched_link (s := s) (z := z) (p := p) (l := l)
  have hstep := State.switchStep_of_third hbefore hzone hjoining he hacc hsent hthird
  obtain ⟨-, -, hnotified⟩ := State.switchTurn_rest (s := s) (z := z) (p := p) (l := l)
  have hstate : ((s.linksSwitched z p).link l).mgr.state = .fault := by
    rw [hlink, hstep]
    exact State.fault_link_closed .planFail
  obtain ⟨hend, -⟩ := s.switchZone_link_idle z p (l := l) (Or.inr (by rw [hstate]; exact ⟨(fun k => nomatch k), fun k => nomatch k⟩))
  have hend' := State.switchStep_notified (s := s) (z := z) (p := p) (l := l)
  generalize s.switchTurn z p l = a at *
  generalize s.switchZone z p = t at *
  generalize s.linksSwitched z p = w at *
  rw [← hjoining]
  exact State.faulted_of hstep (by rw [hat, hjoining]; decide) (by rw [hat]) hnotified hend' (by rw [hend, hlink]) (by rw [hend, hlink])

theorem State.switchZone_miss (hsent : s.planWasSent l e) (hfew : e.attempts < 2) (hdeferred : (s.zone z).deferred = false) :
    s.joinRenewed (s.switchZone z p) l p.planId (s.time.superframe + 3) p.entries (e.attempts + 1) := by
  have hlink := State.linksSwitched_link (s := s) (z := z) (p := p) (l := l)
  rw [State.switchStep_of_miss State.switchTurn_before hzone hjoining he hacc hsent hfew, State.modLink_link_same, State.switchTurn_at] at hlink
  exact State.switchZone_renewed hzone hdeferred (e := { e with attempts := e.attempts + 1 }) (by rw [hlink, hjoining]) (by rw [hlink])
    (by rw [hlink]) (by rw [hlink])

theorem State.switchZone_unsent (hsent : ¬ s.planWasSent l e) (hdeferred : (s.zone z).deferred = false) :
    s.joinRenewed (s.switchZone z p) l p.planId (s.time.superframe + 3) p.entries e.attempts := by
  have hlink := State.linksSwitched_link (s := s) (z := z) (p := p) (l := l)
  rw [State.switchStep_of_unsent State.switchTurn_before hzone hjoining he hacc hsent, State.switchTurn_at] at hlink
  exact State.switchZone_renewed hzone hdeferred (by rw [hlink, hjoining]) (by rw [hlink]) (by rw [hlink]) (by rw [hlink, he])

end

end

end Sys2Proof.Machine
end

section
/-! PLAN_SWITCH (R99). -/

namespace Sys2Proof.Machine

open Sys2Proof

section
variable {s : State} {z : ZoneIx} {p : StagedPlan}

/-- R99 step 2: whether an ACTIVE link of the zone is in ACTIVE still once the links have been taken. -/
theorem State.linksSwitched_state_of_active {l : LinkIx} (hzone : (s.link l).settings.zone = z) (hactive : (s.link l).mgr.state = .active) :
    ((s.linksSwitched z p).link l).mgr.state = .joining ↔ ¬ s.switchAccepted l := by
  by_cases hacc : s.switchAccepted l
  · rw [State.linksSwitched_link_accepted hzone hactive hacc, hactive]
    exact ⟨(fun h => nomatch h), fun h => absurd hacc h⟩
  · rw [State.linksSwitched_link_leaves hzone ⟨hactive, hacc⟩]
    exact ⟨fun _ => hacc, fun _ => rfl⟩

theorem State.switchedOut_sorted : (s.switchedOut z p).Pairwise (· < ·) :=
  (((show allLinks.Pairwise (· < ·) by decide).filter _ : (s.zoneLinks z .active).Pairwise (· < ·))).filter _

theorem State.mem_switchedOut (l : LinkIx) : l ∈ s.switchedOut z p ↔
    ((s.link l).settings.zone = z ∧ (s.link l).mgr.state = .active ∧ ¬ s.switchAccepted l) := by
  have hstate : (((s.linksSwitched z p).switchGates z).link l).mgr.state = ((s.linksSwitched z p).link l).mgr.state := by
    rw [State.switchGates_link]
    generalize s.linksSwitched z p = w
    split <;> rfl
  rw [State.switchedOut, List.mem_filter, State.mem_zoneLinks, hstate, beq_iff_eq, and_comm (a := (s.link l).mgr.state = .active), and_assoc]
  refine and_congr_right fun hzone => and_congr_right fun hactive => State.linksSwitched_state_of_active hzone hactive

/-- R99 to R101: the switch of a zone is the one the statements spell out. -/
theorem State.switchZone_zoneSwitched : s.zoneSwitched (s.switchZone z p) z p := by
  have hgoverned := s.switchZone_governed z p
  have hframe := s.switchReported_frame z p
  have hlinkFrame := s.switchReported_link_frame z p
  have hlink := s.switchReported_link z p
  have hzone := s.switchReported_zone_same z p
  have hstaged : ((s.switchReported z p).zone z).staged = none := by rw [hzone]; rfl
  have hdeferred : ((s.switchReported z p).zone z).deferred = (s.zone z).deferred := by rw [hzone]; rfl
  have hend : State.passed (State.switchStep z) (s.switched z p) 16 = s.linksSwitched z p := by
    unfold State.linksSwitched
    rfl
  have htime : (s.switchReported z p).time = s.time := by
    have h := (s.linksSwitched_linksTurn z p).frame
    generalize s.switchReported z p = u at hframe ⊢
    rw [hframe]
    generalize s.switchedOut z p = sent
    generalize s.linksSwitched z p = w at h ⊢
    rw [h]
    rfl
  refine ⟨State.passed (State.switchStep z) (s.switched z p), s.switchReported z p, (s.switchReported z p).deferredReplan z,
    s.switchRenewed z p, s.switchedOut z p, rfl, fun l => ?_, ⟨State.switchedOut_sorted, State.mem_switchedOut⟩, ?_, fun l => ?_, fun h => ?_,
    fun h => ?_, fun h => ?_, fun h => ?_, hgoverned⟩
  · rw [State.passed_succ (State.switchStep z) (s.switched z p) l]
    exact State.switchStep_linkSwitched (s.switchPass_before z p l)
  · rw [hend]
    exact hframe
  · rw [hend]
    refine ⟨hlinkFrame l, fun v => ?_⟩
    rw [hlink]
    generalize s.linksSwitched z p = w
    by_cases hin : (w.link l).mgr.state = .active ∧ (s.link l).settings.zone = z
    · rw [if_pos hin, State.withGates_gates]
      simp only [hin.1, hin.2, true_and]
    · rw [if_neg hin, if_neg fun k => hin ⟨k.1, k.2.1⟩]
  · obtain ⟨_, -, hsame⟩ := (s.switchReported z p).deferredReplan_plansOffered z hstaged
    exact (hsame (hdeferred.trans h)).2
  · have hreplan : (s.switchReported z p).deferredReplan z =
        ((s.switchReported z p).modZone z (fun x => { x with deferred := false })).replan z := if_pos (hdeferred.trans h)
    rw [hreplan]
    exact State.replan_replanned _ z
  · unfold State.switchRenewed
    exact State.renewJoins_of_staged _ z h
  · obtain ⟨staged, hoffered, -⟩ := (s.switchReported z p).deferredReplan_plansOffered z hstaged
    have hissued := ((s.switchReported z p).deferredReplan z).renewJoins_plansIssued z h
    have hplan : (((s.switchReported z p).deferredReplan z).zone z).planId = p.planId ∧
        (((s.switchReported z p).deferredReplan z).zone z).entries = p.entries ∧
        ((s.switchReported z p).deferredReplan z).time = s.time := by
      generalize (s.switchReported z p).deferredReplan z = r at hoffered ⊢
      have h := hoffered.frame
      generalize s.switchReported z p = u at h hzone htime
      have hundeferred : (u.undeferred z staged).zone z = { u.zone z with deferred := false, staged := staged } := State.modZone_zone_same ..
      rw [h]
      show ((u.undeferred z staged).zone z).planId = p.planId ∧ ((u.undeferred z staged).zone z).entries = p.entries ∧ u.time = s.time
      rw [hundeferred, hzone, htime]
      exact ⟨rfl, rfl, rfl⟩
    unfold State.switchRenewed
    generalize (s.switchReported z p).deferredReplan z = r at hissued hplan ⊢
    unfold State.renewal at hissued
    rw [hplan.1, hplan.2.1, hplan.2.2] at hissued
    exact hissued

end

/-- Settles O36. -/
theorem planSwitchMakesStagedPlanCurrent : Obligations.PlanSwitchMakesStagedPlanCurrent := by
  refine ⟨fun s z p hreset hstaged hn => ?_, fun s z hreset => ?_⟩
  · intro accepted joins leaves renewed
    have hexec : exec (.planSwitch z) s = .next (s.switchZone z p) := by
      refine (event_of_due (event := exec (.planSwitch z)) (due := fun t => t.switchDue z) (act := fun t => t.planSwitchIfDue z) (fun _ => rfl)
        hreset ?_).trans (congrArg _ ?_)
      · simp [State.switchDue, hstaged, hn]
      · simp [State.planSwitchIfDue, hstaged, hn]
    obtain ⟨-, hnotified, hzones, staged, hzone, hnone⟩ := s.switchZone_rest z p
    have hframe := s.switchZone_frame z p
    refine ⟨s.switchZone z p, hexec, State.switchZone_zoneSwitched, by rw [hzone]; rfl, by rw [hzone]; rfl, by rw [hzone]; rfl,
      by rw [hzone], fun h => by rw [hzone]; exact hnone h, by rw [hzone]; rfl, by rw [hzone]; rfl, by rw [hzone]; rfl, by rw [hzone]; rfl,
      by rw [hzone]; rfl, fun l hl => ⟨fun hactive hacc => ?_, State.switchZone_leaves hl, fun hjoins => ?_, fun e hjoining he hacc => ?_⟩,
      ⟨s.switchedOut z p, State.switchedOut_sorted, State.mem_switchedOut, ?_⟩, fun l hl => ?_, hzones, ?_⟩
    · have hlink := State.linksSwitched_link_accepted (p := p) hl hactive hacc
      have hstays : ((s.linksSwitched z p).link l).mgr.state = .active := by rw [hlink, hactive]
      refine ⟨(s.switchZone_link z p l).2.trans hstays, fun h => ?_, fun v => ?_⟩
      · rw [State.switchZone_exchange_of_active h hstays, hlink]
      · rw [State.switchZone_gates_of_active hl hstays, hlink]
    · exact State.switchZone_joins hl hjoins fun h l' hlt hz hgroup => h l' hlt hz hgroup
    · exact ⟨State.switchZone_third hl hjoining he hacc, State.switchZone_miss hl hjoining he hacc,
        State.switchZone_unsent hl hjoining he hacc⟩
    · have h := (s.linksSwitched_linksTurn z p).notified
      have hgates := (s.linksSwitched z p).switchGates_frame z
      unfold State.switchReported at hnotified
      generalize (s.linksSwitched z p).switchGates z = g at hnotified hgates
      generalize s.linksSwitched z p = w at h hgates
      have hbefore : s.Notified g := ((State.Notified.of_eq rfl : s.Notified (s.switched z p)).trans h).trans
        (.of_eq (congrArg State.notices hgates :))
      exact hbefore.includes hnotified
    · rw [State.switchZone_link_elsewhere hl]
      exact ⟨rfl, rfl, rfl, rfl, rfl⟩
    · rw [hframe]
      exact ⟨rfl, rfl, rfl, rfl, rfl, rfl, rfl, rfl⟩
  · intro due hno
    have hiff (u : State) : u.switchDue z = true ↔ due u := by
      unfold State.switchDue
      cases hst : (u.zone z).staged <;> simp [due, hst]
    have hnot (u : State) (h : ¬ due u) : u.switchDue z = false := by
      rw [← Bool.not_eq_true, hiff]
      exact h
    obtain ⟨hlater, hnever⟩ := event_of_not_due (event := exec (.planSwitch z)) (due := fun t => t.switchDue z)
      (act := fun t => t.planSwitchIfDue z) (fun _ => rfl) hreset (hnot s hno)
    exact ⟨fun hopen hdue => hlater hopen ((hiff _).mpr hdue), fun h => hnever (h.imp_right (hnot _))⟩

end Sys2Proof.Machine
end

section
/-! Passes over a table that change each record by itself. -/

namespace Sys2Proof.Machine

open Sys2Proof

/-- Each record of a table changed by itself, one after another: `get` reads a record and `mod` changes it, under a property of the state
that every such change keeps. -/
theorem foldl_records {ι R : Type} [DecidableEq ι] {get : State → ι → R} {mod : State → ι → (R → R) → State} {P : State → Prop}
    (hget : ∀ s i j f, get (mod s i f) j = if i = j then f (get s i) else get s j) (hkeep : ∀ s i f, P s → P (mod s i f))
    {f : State → ι → State} {F : ι → R → R} {s : State} (hf : ∀ u i, P u → get u i = get s i → f u i = mod u i (F i)) {is : List ι}
    (his : is.Nodup) {t : State} (ht : P t) (hsame : ∀ i ∈ is, get t i = get s i) :
    P (is.foldl f t) ∧ ∀ i, get (is.foldl f t) i = if i ∈ is then F i (get s i) else get t i := by
  induction is generalizing t with
  | nil => exact ⟨ht, fun i => (if_neg List.not_mem_nil).symm⟩
  | cons i rest ih =>
    obtain ⟨hi, hrest⟩ := List.nodup_cons.mp his
    have hnow := hsame i List.mem_cons_self
    rw [List.foldl_cons, hf t i ht hnow]
    have hother (j : ι) (hj : i ≠ j) : get (mod t i (F i)) j = get t j := (hget ..).trans (if_neg hj)
    obtain ⟨hkept, hrecords⟩ := ih hrest (hkeep t i (F i) ht) fun j hj =>
      (hother j fun e => hi (e ▸ hj)).trans (hsame j (List.mem_cons_of_mem _ hj))
    refine ⟨hkept, fun j => (hrecords j).trans ?_⟩
    by_cases hj : i = j
    · subst hj
      rw [if_neg hi, if_pos List.mem_cons_self, hget, if_pos rfl, hnow]
    · rw [hother j hj]
      simp only [List.mem_cons, Ne.symm hj, false_or]

section
variable {s : State}

theorem State.forLinks_records {f : State → LinkIx → State} {F : LinkIx → Link → Link}
    (hf : ∀ u l, u = { s with links := u.links } → u.link l = s.link l → f u l = u.modLink l (F l)) :
    s.forLinks f = { s with links := (s.forLinks f).links } ∧ ∀ l, (s.forLinks f).link l = F l (s.link l) := by
  obtain ⟨hkept, hrecords⟩ := foldl_records (get := State.link) (mod := State.modLink) (P := fun u => u = { s with links := u.links })
    State.modLink_link_eq (fun u l g hu => by rw [hu]; rfl) hf allLinks_nodup (t := s) rfl fun _ _ => rfl
  exact ⟨hkept, fun l => (hrecords l).trans (if_pos (mem_allLinks l))⟩

theorem State.forServices_records {f : State → ServiceIx → State} {F : ServiceIx → Service → Service}
    (hf : ∀ u v, u = { s with services := u.services } → u.service v = s.service v → f u v = u.modService v (F v)) :
    s.forServices f = { s with services := (s.forServices f).services } ∧ ∀ v, (s.forServices f).service v = F v (s.service v) := by
  obtain ⟨hkept, hrecords⟩ := foldl_records (get := State.service) (mod := State.modService)
    (P := fun u => u = { s with services := u.services })
    State.modService_service_eq (fun u v g hu => by rw [hu]; rfl) hf allServices_nodup (t := s) rfl fun _ _ => rfl
  exact ⟨hkept, fun v => (hrecords v).trans (if_pos (mem_allServices v))⟩

theorem State.forZones_records {f : State → ZoneIx → State} {F : ZoneIx → Zone → Zone}
    (hf : ∀ u z, u = { s with zones := u.zones } → u.zone z = s.zone z → f u z = u.modZone z (F z)) :
    s.forZones f = { s with zones := (s.forZones f).zones } ∧ ∀ z, (s.forZones f).zone z = F z (s.zone z) := by
  obtain ⟨hkept, hrecords⟩ := foldl_records (get := State.zone) (mod := State.modZone) (P := fun u => u = { s with zones := u.zones })
    State.modZone_zone_eq (fun u z g hu => by rw [hu]; rfl) hf (show allZones.Nodup by decide) (t := s) rfl fun _ _ => rfl
  exact ⟨hkept, fun z => (hrecords z).trans (if_pos (mem_allZones z))⟩

theorem State.forInputs_records {f : State → InputIx → State} {F : InputIx → ContactInput → ContactInput}
    (hf : ∀ u i, u = { s with inputs := u.inputs } → u.input i = s.input i → f u i = u.modInput i (F i)) :
    s.forInputs f = { s with inputs := (s.forInputs f).inputs } ∧ ∀ i, (s.forInputs f).input i = F i (s.input i) := by
  obtain ⟨hkept, hrecords⟩ := foldl_records (get := State.input) (mod := State.modInput) (P := fun u => u = { s with inputs := u.inputs })
    State.modInput_input_eq (fun u i g hu => by rw [hu]; rfl) hf (show allInputs.Nodup by decide) (t := s) rfl fun _ _ => rfl
  exact ⟨hkept, fun i => (hrecords i).trans (if_pos (mem_allInputs i))⟩

theorem State.forGroups_records {f : State → GroupIx → State} {F : GroupIx → Group → Group}
    (hf : ∀ u g, u = { s with groups := u.groups } → u.group g = s.group g → f u g = u.modGroup g (F g)) :
    s.forGroups f = { s with groups := (s.forGroups f).groups } ∧ ∀ g, (s.forGroups f).group g = F g (s.group g) := by
  have hmem : ∀ g : GroupIx, g ∈ allGroups := by decide
  obtain ⟨hkept, hrecords⟩ := foldl_records (get := State.group) (mod := State.modGroup) (P := fun u => u = { s with groups := u.groups })
    State.modGroup_group_eq (fun u g k hu => by rw [hu]; rfl) hf (show allGroups.Nodup by decide) (t := s) rfl fun _ _ => rfl
  exact ⟨hkept, fun g => (hrecords g).trans (if_pos (hmem g))⟩

end

end Sys2Proof.Machine
end

section
/-! The stages of a block boundary's work (R3, R55, R77, R81, R112, R131, R140), one at a time. -/

namespace Sys2Proof.Machine

open Sys2Proof

/-! ## The combine point, as far as it leaves records (R140 to R149) -/

/-- What the combine point may change: gate records, the work list, and of a service its dropped-before, last appended and sums. -/
structure State.Combined (s t : State) : Prop where
  frame : t = { s with links := t.links, services := t.services, combiner := { s.combiner with workList := t.combiner.workList } }
  link (l : LinkIx) : t.link l = { s.link l with gates := (t.link l).gates }
  service (v : ServiceIx) : t.service v = { s.service v with
    droppedBefore := (t.service v).droppedBefore, lastAppended := (t.service v).lastAppended, sums := (t.service v).sums }

section
variable {s t u : State}

theorem State.Combined.refl (s : State) : s.Combined s := ⟨rfl, fun _ => rfl, fun _ => rfl⟩

theorem State.Combined.trans (h : s.Combined t) (h' : t.Combined u) : s.Combined u where
  frame := by rw [h'.frame, h.frame]
  link l := by rw [h'.link, h.link]
  service v := by rw [h'.service, h.service]

theorem State.combined_modLink {l : LinkIx} {f : Link → Link} (hf : f (s.link l) = { s.link l with gates := (f (s.link l)).gates }) :
    s.Combined (s.modLink l f) where
  frame := rfl
  link l' := by
    rw [State.modLink_link_eq]
    split
    · next h => exact h ▸ hf
    · rfl
  service _ := rfl

theorem State.combined_modService {v : ServiceIx} {f : Service → Service} (hf : f (s.service v) = { s.service v with
    droppedBefore := (f (s.service v)).droppedBefore, lastAppended := (f (s.service v)).lastAppended, sums := (f (s.service v)).sums }) :
    s.Combined (s.modService v f) where
  frame := rfl
  link _ := rfl
  service v' := by
    rw [State.modService_service_eq]
    split
    · next h => exact h ▸ hf
    · rfl

theorem State.combineService_combined (r : BlockRecord) (k : Seq16) (v : ServiceIx) : s.Combined (s.combineService r k v) := by
  unfold State.combineService
  split
  · have hgates (cs : List (LinkIx × Nat)) (e : State → LinkIx × Nat → Nat) (t : State) :
        t.Combined (cs.foldl (fun s c => s.updateGate v c.1 (e s c)) t) :=
      foldl_induct (fun u => t.Combined u) _ (fun u c hu => hu.trans (State.combined_modLink rfl)) cs t (.refl t)
    extract_lets expected present t
    have ht : s.Combined t := hgates present _ s
    split
    · exact ht.trans (State.combined_modService rfl)
    · have happend (x : WorkBlock) : t.Combined { t with combiner := { t.combiner with workList := t.combiner.workList ++ [x] } } :=
        ⟨rfl, fun _ => rfl, fun _ => rfl⟩
      unfold State.appendBlock
      exact ht.trans ((happend _).trans (State.combined_modService rfl))
  · exact .refl s

theorem State.pruneGates_combined (n : BlockRecord) : s.Combined (s.pruneGates n) :=
  State.forLinks_induct (fun u => s.Combined u) _ (fun _ _ hu => hu.trans (State.combined_modLink rfl)) s (.refl s)

theorem State.combinePoint_combined : s.Combined s.combinePoint := by
  unfold State.combinePoint
  extract_lets t
  have ht : s.Combined t := by
    unfold t
    split
    · exact State.forServices_induct (fun u => s.Combined u) _ (fun u v hu => hu.trans (State.combineService_combined _ _ v)) s (.refl s)
    · exact .refl s
  split
  · exact ht.trans (State.pruneGates_combined _)
  · exact ht

end

/-! ## Histories, launches, selections and samples -/

section
variable (s : State)

theorem State.advanceHistories_records : s.advanceHistories = { s with links := s.advanceHistories.links } ∧
    ∀ l, s.advanceHistories.link l = { s.link l with rx := (s.link l).rx.map RxHistory.advance } :=
  State.forLinks_records (F := fun _ x => { x with rx := x.rx.map RxHistory.advance }) fun _ _ _ _ => rfl

theorem State.launchStreams_records : s.launchStreams = { s with services := s.launchStreams.services } ∧
    ∀ v, s.launchStreams.service v = (s.service v).launchAll s.time.block :=
  State.forServices_records (F := fun _ x => x.launchAll s.time.block) fun u v hu _ => by
    have htime : u.time = s.time := by rw [hu]
    rw [htime]

/-- R131, R133: zone record x of zone z with the selection of the present boundary. -/
def State.withSelection (s : State) (z : ZoneIx) (x : Zone) : Zone := { x with
  selection := Vector.ofFn (fun v : Fin 24 => s.selects z (s.planInForce z) v)
  fadeFrom := Vector.ofFn (fun v : Fin 24 => (s.service v).fades x.crossfade x.selection[v] (s.selects z (s.planInForce z) v)) }

theorem State.selectAll_records : s.selectAll = { s with zones := s.selectAll.zones } ∧
    ∀ z, s.selectAll.zone z = s.withSelection z (s.zone z) :=
  State.forZones_records (F := s.withSelection) fun u z hu hzone => by
    have hservice (v : ServiceIx) : u.service v = s.service v := by rw [hu]; rfl
    have htime : u.time = s.time := by rw [hu]
    have harbiter : u.arbiter = s.arbiter := by rw [hu]
    have hplan : u.planInForce z = s.planInForce z := by
      unfold State.planInForce
      rw [hzone, htime]
    have hchannel : u.ownerChannel z = s.ownerChannel z := by
      unfold State.ownerChannel
      rw [hzone, harbiter]
    have hselects (v : ServiceIx) : u.selects z (s.planInForce z) v = s.selects z (s.planInForce z) v := by
      unfold State.selects
      rw [hservice, hchannel]
    unfold State.selectZone
    simp only [hplan, hselects, hservice]
    rfl

theorem State.sampleContacts_records (levels : BitVec 4) : s.sampleContacts levels = { s with inputs := (s.sampleContacts levels).inputs } ∧
    ∀ i, (s.sampleContacts levels).input i = (s.input i).sampleOnce (levels.getLsbD i.val) :=
  State.forInputs_records (F := fun i c => c.sampleOnce (levels.getLsbD i.val)) fun _ _ _ _ => rfl

/-- R55: link record x after the slew step of a boundary. -/
def State.slewed (s : State) (x : Link) : Link :=
  if x.mgr.state = .active then { x with align := x.align.slewStep (s.group x.settings.group).slew } else x

theorem State.slewAll_records : s.slewAll = { s with links := s.slewAll.links } ∧ ∀ l, s.slewAll.link l = s.slewed (s.link l) :=
  State.forLinks_records (F := fun _ => s.slewed) fun u l hu hlink => by
    have hgroup (g : GroupIx) : u.group g = s.group g := by rw [hu]; rfl
    unfold State.slewed
    by_cases hactive : (s.link l).mgr.state = .active
    · rw [hlink, if_pos hactive, hgroup]
      refine State.modLink_congr ?_
      rw [hlink, if_pos hactive]
    · rw [hlink, if_neg hactive]
      exact (State.modLink_of_fixed (by rw [hlink, if_neg hactive])).symm

end

/-! ## The frames -/

/-- R3, R18, R29, R59: link record x with its frame of block b started, its lanes entered. -/
def Link.started (x : Link) (b : Seq16) (lanes : Samples) : Link :=
  let m := x.mgr.countPhase.look
  let run := x.rng.run.bind (fun r => r.markAt b)
  { x with
    mgr := { (m.markSent b (if m.state.controlOpen then m.leaving else [])) with
      leaving := [], markNext := none
      frame := if m.state = .dark then none else some
        { messages := if m.state.controlOpen then run.toList ++ m.markNext.toList ++ m.leaving else []
          carriesLanes := m.state == .active, k := x.align.k } }
    rng := if run.isSome then { x.rng with run := x.rng.run.map (fun r => { r with marksSent := r.marksSent + 1 }) } else x.rng
    line := x.line.enter lanes }

section
variable (m : Manager)

theorem Manager.boundary_frame : m.countPhase.look = { m with
    phaseCount := m.countPhase.phaseCount
    attachDue := m.state == .listen && m.listenPhase == some .detect && m.lock
    quiesceDue := m.state == .quiescing && m.settled } := by
  unfold Manager.look
  rw [m.countPhase_frame]
  rfl

theorem Manager.markSent_frame (b : Seq16) (msgs : List DownMsg) :
    m.markSent b msgs = { m with outstanding := (m.markSent b msgs).outstanding } :=
  foldl_induct (fun m' : Manager => m' = { m with outstanding := m'.outstanding }) _ (fun m' x hm => by
    split
    · conv_lhs => rw [hm]
    · exact hm) msgs m rfl

end

section
variable (s : State)

theorem State.enteredLanes_congr {t : State} (hservices : t.services = s.services) (hzones : t.zones = s.zones) (htime : t.time = s.time)
    {l : LinkIx} (hstate : (t.link l).mgr.state = (s.link l).mgr.state) (hsettings : (t.link l).settings = (s.link l).settings) :
    t.enteredLanes l = s.enteredLanes l := by
  have hlanes (z : ZoneIx) : t.zoneLanes z = s.zoneLanes z := by
    unfold State.zoneLanes State.planInForce State.zone State.service
    rw [hservices, hzones, htime]
  unfold State.enteredLanes
  rw [hstate, hsettings, hlanes]

theorem State.linkBoundary_eq (l : LinkIx) :
    s.linkBoundary l = s.modLink l (fun x => x.started s.time.block (s.enteredLanes l)) := by
  have hlink := State.modLink_link_same s l (fun x => { x with mgr := x.mgr.countPhase.look })
  have hlanes : (s.modMgr l (fun m => m.countPhase.look)).enteredLanes l = s.enteredLanes l :=
    State.enteredLanes_congr (t := s.modMgr l (fun m => m.countPhase.look)) s rfl rfl rfl (by rw [State.modMgr, hlink, (s.link l).mgr.boundary_frame]) (by rw [State.modMgr, hlink])
  unfold State.linkBoundary State.startFrame
  rw [hlanes]
  dsimp only
  rw [State.modMgr, State.modLink_modLink, hlink]
  refine State.modLink_congr ?_
  unfold Link.started
  cases (s.link l).rng.run <;> rfl

theorem State.linkBoundaries_records : s.forLinks State.linkBoundary = { s with links := (s.forLinks State.linkBoundary).links } ∧
    ∀ l, (s.forLinks State.linkBoundary).link l = (s.link l).started s.time.block (s.enteredLanes l) :=
  State.forLinks_records (F := fun l x => x.started s.time.block (s.enteredLanes l)) fun u l hu hlink => by
    have hlanes : u.enteredLanes l = s.enteredLanes l := by
      refine State.enteredLanes_congr s ?_ ?_ ?_ (by rw [hlink]) (by rw [hlink])
      all_goals rw [hu]
    have htime : u.time = s.time := by rw [hu]
    rw [State.linkBoundary_eq, hlanes, htime]

end

end Sys2Proof.Machine
end

section
/-! The work of a block boundary as a whole: what it makes of every record. -/

namespace Sys2Proof.Machine

open Sys2Proof

section
variable (s : State) (levels : BitVec 4)

/-- R77, R140: state s once its block has been combined and the next launched. -/
@[irreducible] def State.launchedBoundary : State := s.combinePoint.advanceHistories.launchStreams

/-- R131: state s once the streams of the present block have been selected. -/
@[irreducible] def State.selectedBoundary : State := s.launchedBoundary.selectAll

/-- R55, R112: state s once the contacts have been sampled and the slew step taken. -/
@[irreducible] def State.slewedBoundary : State := (s.selectedBoundary.sampleContacts levels).slewAll

/-- R3: state s once the frames have started. -/
@[irreducible] def State.startedBoundary : State := (s.slewedBoundary levels).forLinks State.linkBoundary

theorem State.blockWork_eq : s.blockWork levels = ((s.startedBoundary levels).pushRecord).modTime (fun x => { x with blockOwed := false }) := by
  unfold State.startedBoundary State.slewedBoundary State.selectedBoundary State.launchedBoundary
  rfl

theorem State.launchedBoundary_records :
    s.launchedBoundary = { s with
      links := s.launchedBoundary.links, services := s.launchedBoundary.services
      combiner := { s.combiner with workList := s.launchedBoundary.combiner.workList } } ∧
    s.launchedBoundary.combiner.workList = s.combinePoint.combiner.workList ∧
    (∀ l, s.launchedBoundary.link l =
      { s.link l with rx := (s.link l).rx.map RxHistory.advance, gates := (s.combinePoint.link l).gates }) ∧
    ∀ v, s.launchedBoundary.service v = (s.combinePoint.service v).launchAll s.time.block := by
  have hcombined := State.combinePoint_combined (s := s)
  obtain ⟨hhistories, hlinks⟩ := s.combinePoint.advanceHistories_records
  obtain ⟨hlaunches, hservices⟩ := s.combinePoint.advanceHistories.launchStreams_records
  unfold State.launchedBoundary
  have hframe := hcombined.frame
  have hlink := hcombined.link
  generalize s.combinePoint = a at *
  generalize a.advanceHistories = h at *
  generalize h.launchStreams = c at *
  have hlinkc (l : LinkIx) : c.link l = h.link l := by rw [hlaunches]; rfl
  have hserviceh (v : ServiceIx) : h.service v = a.service v := by rw [hhistories]; rfl
  have htime : h.time = s.time := by rw [hhistories, hframe]
  refine ⟨by rw [hlaunches, hhistories, hframe], by rw [hlaunches, hhistories], fun l => ?_, fun v => ?_⟩
  · rw [hlinkc, hlinks, hlink]
  · rw [hservices, hserviceh, htime]

theorem State.selectedBoundary_records :
    s.selectedBoundary = { s.launchedBoundary with zones := s.selectedBoundary.zones } ∧
    ∀ z, s.selectedBoundary.zone z = s.launchedBoundary.withSelection z (s.zone z) := by
  obtain ⟨hframe, hzones⟩ := s.launchedBoundary.selectAll_records
  obtain ⟨hlaunched, -⟩ := s.launchedBoundary_records
  have hzone (z : ZoneIx) : s.launchedBoundary.zone z = s.zone z := by
    generalize s.launchedBoundary = c at hlaunched
    rw [hlaunched]
    rfl
  unfold State.selectedBoundary
  exact ⟨hframe, fun z => by rw [hzones, hzone]⟩

theorem State.slewedBoundary_records :
    s.slewedBoundary levels = { s.selectedBoundary with
      links := (s.slewedBoundary levels).links, inputs := (s.slewedBoundary levels).inputs } ∧
    (∀ l, (s.slewedBoundary levels).link l = s.slewed (s.launchedBoundary.link l)) ∧
    ∀ i, (s.slewedBoundary levels).input i = (s.input i).sampleOnce (levels.getLsbD i.val) := by
  obtain ⟨hlaunched, -⟩ := s.launchedBoundary_records
  obtain ⟨hselected, -⟩ := s.selectedBoundary_records
  obtain ⟨hsampled, hinputs⟩ := s.selectedBoundary.sampleContacts_records levels
  obtain ⟨hslewed, hlinks⟩ := (s.selectedBoundary.sampleContacts levels).slewAll_records
  unfold State.slewedBoundary
  generalize s.launchedBoundary = c at *
  generalize s.selectedBoundary = d at *
  generalize d.sampleContacts levels = e at *
  generalize e.slewAll = f at *
  have hinput (i : InputIx) : d.input i = s.input i := by rw [hselected, hlaunched]; rfl
  have hinputf (i : InputIx) : f.input i = e.input i := by rw [hslewed]; rfl
  have hlink (l : LinkIx) : e.link l = c.link l := by rw [hsampled, hselected]; rfl
  have hgroups : e.groups = s.groups := by rw [hsampled, hselected, hlaunched]
  refine ⟨by rw [hslewed, hsampled], fun l => ?_, fun i => by rw [hinputf, hinputs, hinput]⟩
  rw [hlinks, hlink]
  unfold State.slewed State.group
  rw [hgroups]

theorem State.startedBoundary_records :
    s.startedBoundary levels = { s.slewedBoundary levels with links := (s.startedBoundary levels).links } ∧
    ∀ l, (s.startedBoundary levels).link l =
      (s.slewed (s.launchedBoundary.link l)).started s.time.block ((s.slewedBoundary levels).enteredLanes l) := by
  obtain ⟨hlaunched, -⟩ := s.launchedBoundary_records
  obtain ⟨hselected, -⟩ := s.selectedBoundary_records
  obtain ⟨hslewed, hlinks, -⟩ := s.slewedBoundary_records levels
  obtain ⟨hstarted, hlink⟩ := (s.slewedBoundary levels).linkBoundaries_records
  unfold State.startedBoundary
  have htime : (s.slewedBoundary levels).time = s.time := by
    generalize s.launchedBoundary = c at *
    generalize s.selectedBoundary = d at *
    generalize s.slewedBoundary levels = e at *
    rw [hslewed, hselected, hlaunched]
  exact ⟨hstarted, fun l => by rw [hlink, hlinks, htime]⟩

/-! ## After the boundary -/

theorem State.blockWork_link (l : LinkIx) : (s.blockWork levels).link l =
    (s.slewed (s.launchedBoundary.link l)).started s.time.block ((s.slewedBoundary levels).enteredLanes l) := by
  rw [State.blockWork_eq, ← (s.startedBoundary_records levels).2]
  rfl

theorem State.blockWork_service (v : ServiceIx) : (s.blockWork levels).service v =
    (s.combinePoint.service v).launchAll s.time.block := by
  obtain ⟨-, -, -, hservice⟩ := s.launchedBoundary_records
  obtain ⟨hselected, -⟩ := s.selectedBoundary_records
  obtain ⟨hslewed, -⟩ := s.slewedBoundary_records levels
  obtain ⟨hstarted, -⟩ := s.startedBoundary_records levels
  rw [State.blockWork_eq, ← hservice]
  show (s.startedBoundary levels).service v = _
  generalize s.launchedBoundary = c at *
  generalize s.selectedBoundary = d at *
  generalize s.slewedBoundary levels = e at *
  generalize s.startedBoundary levels = f at *
  rw [hstarted, hslewed, hselected]
  rfl

theorem State.blockWork_zone (z : ZoneIx) : (s.blockWork levels).zone z = s.launchedBoundary.withSelection z (s.zone z) := by
  obtain ⟨hselected, hzone⟩ := s.selectedBoundary_records
  obtain ⟨hslewed, -⟩ := s.slewedBoundary_records levels
  obtain ⟨hstarted, -⟩ := s.startedBoundary_records levels
  rw [State.blockWork_eq, ← hzone]
  show (s.startedBoundary levels).zone z = _
  generalize s.selectedBoundary = d at *
  generalize s.slewedBoundary levels = e at *
  generalize s.startedBoundary levels = f at *
  rw [hstarted, hslewed]
  rfl

theorem State.blockWork_input (i : InputIx) : (s.blockWork levels).input i = (s.input i).sampleOnce (levels.getLsbD i.val) := by
  obtain ⟨hslewed, -, hinput⟩ := s.slewedBoundary_records levels
  obtain ⟨hstarted, -⟩ := s.startedBoundary_records levels
  rw [State.blockWork_eq, ← hinput]
  show (s.startedBoundary levels).input i = _
  generalize s.slewedBoundary levels = e at *
  generalize s.startedBoundary levels = f at *
  rw [hstarted]
  rfl

theorem State.blockWork_frame : s.blockWork levels = { s with
    links := (s.blockWork levels).links, services := (s.blockWork levels).services, zones := (s.blockWork levels).zones
    inputs := (s.blockWork levels).inputs, time := { s.time with blockOwed := false }
    combiner := { prev := s.combiner.now, now := some (s.startedBoundary levels).newRecord
                  workList := s.combinePoint.combiner.workList } } := by
  obtain ⟨hlaunched, hworkList, -⟩ := s.launchedBoundary_records
  obtain ⟨hselected, -⟩ := s.selectedBoundary_records
  obtain ⟨hslewed, -⟩ := s.slewedBoundary_records levels
  obtain ⟨hstarted, -⟩ := s.startedBoundary_records levels
  rw [State.blockWork_eq, ← hworkList]
  generalize s.launchedBoundary = c at *
  generalize s.selectedBoundary = d at *
  generalize s.slewedBoundary levels = e at *
  generalize s.startedBoundary levels = f at *
  have hframe : f = { s with
      links := f.links, services := f.services, zones := f.zones, inputs := f.inputs
      combiner := { s.combiner with workList := c.combiner.workList } } := by
    rw [hstarted, hslewed, hselected]
    conv_lhs => rw [hlaunched]
  unfold State.pushRecord State.modTime
  generalize f.newRecord = r
  rw [hframe]

theorem exec_blockBoundary (hreset : s.path.inReset = false) : exec (.blockBoundary levels) s = .next (s.atBoundary.blockWork levels) :=
  State.running_of_released _ _ hreset

end

end Sys2Proof.Machine
end

section
/-! The frames a block boundary starts (R3, R18, R29, R55, R58, R59), the contact samples and the block record (R112, R137). -/

namespace Sys2Proof.Machine

open Sys2Proof

/-! ## One link -/

theorem State.slewed_frame (s : State) (x : Link) : s.slewed x = { x with align := (s.slewed x).align } := by
  unfold State.slewed
  split <;> rfl

theorem Align.slewStep_eq (a : Align) (slew : Nat) :
    a.slewStep slew = { a with
      k := if a.k < a.kStar then min a.kStar (a.k + slew) else max a.kStar (a.k - slew)
      slewing := (if a.k < a.kStar then min a.kStar (a.k + slew) else max a.kStar (a.k - slew)) != a.kStar } := by
  have hk : (if a.k < a.kStar then (if a.kStar - a.k ≤ slew then a.kStar else a.k + slew)
      else (if a.k - a.kStar ≤ slew then a.kStar else a.k - slew)) =
      if a.k < a.kStar then min a.kStar (a.k + slew) else max a.kStar (a.k - slew) := by
    split <;> split <;> omega
  unfold Align.slewStep
  dsimp only
  rw [hk]

open Classical in
/-- R18, R19: the requests a frame carries are sent in its block, and the others stand. -/
theorem Manager.markSent_outstanding (m : Manager) (b : Seq16) (msgs : List DownMsg) (g : Tag) :
    (m.markSent b msgs).outstanding[g] =
      if ∃ q, .request g q ∈ msgs then (m.outstanding[g]).map (fun o => { o with sentIn := some b }) else m.outstanding[g] := by
  unfold Manager.markSent
  induction msgs generalizing m with
  | nil => simp
  | cons x rest ih =>
    rw [List.foldl_cons, ih]
    cases x with
    | request g' q' =>
      dsimp only
      rw [set_held]
      by_cases hg : g' = g
      · subst hg
        have hhere : ∃ q, DownMsg.request g' q ∈ DownMsg.request g' q' :: rest := ⟨q', List.mem_cons_self⟩
        rw [if_pos rfl, if_pos hhere, Option.map_map]
        exact ite_self _
      · have hiff : (∃ q, DownMsg.request g q ∈ DownMsg.request g' q' :: rest) ↔ ∃ q, DownMsg.request g q ∈ rest := by
          simp [Ne.symm hg]
        rw [if_neg hg]
        simp only [hiff]
    | mark => simp
    | setup => simp

theorem RangingRun.markAt_eq_some {r : RangingRun} {b : Seq16} {m : Fin 4} (h : r.marksSent = m.val)
    (hb : b = r.firstBlock + BitVec.ofNat 16 m.val) : r.markAt b = some (.mark r.runId (.run m)) := by
  have hlt : r.marksSent < 4 := h ▸ m.isLt
  have hm : (⟨r.marksSent, hlt⟩ : Fin 4) = m := Fin.ext h
  unfold RangingRun.markAt
  rw [dif_pos hlt, if_pos (by rw [h]; exact hb), hm]

theorem RangingRun.markAt_eq_none {r : RangingRun} {b : Seq16}
    (h : ∀ m : Fin 4, ¬ (r.marksSent = m.val ∧ b = r.firstBlock + BitVec.ofNat 16 m.val)) : r.markAt b = none := by
  unfold RangingRun.markAt
  split
  · next hlt => exact if_neg fun hb => h ⟨r.marksSent, hlt⟩ ⟨rfl, hb⟩
  · rfl

theorem sampleAt_filter (p : Nat → Bool) (x : Samples) (n : Nat) :
    sampleAt (x.filter (fun e => p e.1)) n = if p n = true then sampleAt x n else 0 := by
  induction x with
  | nil => exact (ite_self _).symm
  | cons e rest ih =>
    obtain ⟨k, w⟩ := e
    by_cases hk : p k = true
    · rw [List.filter_cons, if_pos hk, sampleAt, sampleAt, ih]
      by_cases hn : n = k
      · subst hn
        rw [if_pos rfl, if_pos hk, if_pos rfl]
      · rw [if_neg hn, if_neg hn]
    · rw [List.filter_cons, if_neg hk, ih, sampleAt]
      by_cases hn : n = k
      · subst hn
        rw [if_neg hk, if_neg hk]
      · rw [if_neg hn]

section
variable (x : Link) (b : Seq16) (lanes : Samples)

/-- R58: the samples of the block before that a delay line keeps. -/
theorem Link.started_before {lane j : Nat} (hlane : lane < 32) : sampleAt (x.started b lanes).line.before (32 * j + lane) =
    if 1395 ≤ j then sampleAt x.line.now (32 * j + lane) else 0 := by
  have h := sampleAt_filter (fun n => decide (1600 - 205 ≤ n / 32)) x.line.now (32 * j + lane)
  have hj : (32 * j + lane) / 32 = j := by omega
  rw [hj] at h
  exact h.trans (by simp)

/-- What a started frame leaves of the link manager. -/
theorem Link.started_mgr : (x.started b lanes).mgr = { x.mgr with
    phaseCount := x.mgr.countPhase.phaseCount
    outstanding := (x.mgr.markSent b (if x.mgr.state.controlOpen then x.mgr.leaving else [])).outstanding
    frame := (x.started b lanes).mgr.frame, leaving := [], markNext := none
    attachDue := x.mgr.state == .listen && x.mgr.listenPhase == some .detect && x.mgr.lock
    quiesceDue := x.mgr.state == .quiescing && x.mgr.settled } := by
  have hheld (m m' : Manager) (msgs : List DownMsg) (h : m.outstanding = m'.outstanding) :
      (m.markSent b msgs).outstanding = (m'.markSent b msgs).outstanding := by
    ext1 i hi
    have h1 := m.markSent_outstanding b msgs ⟨i, hi⟩
    have h2 := m'.markSent_outstanding b msgs ⟨i, hi⟩
    rw [h] at h1
    exact h1.trans h2.symm
  have hsent : (x.mgr.countPhase.look.markSent b (if x.mgr.countPhase.look.state.controlOpen then x.mgr.countPhase.look.leaving
      else [])).outstanding = (x.mgr.markSent b (if x.mgr.state.controlOpen then x.mgr.leaving else [])).outstanding := by
    rw [x.mgr.boundary_frame]
    exact hheld _ _ _ rfl
  unfold Link.started
  dsimp only
  rw [Manager.markSent_frame, hsent]
  generalize (x.mgr.markSent b (if x.mgr.state.controlOpen then x.mgr.leaving else [])).outstanding = held
  rw [x.mgr.boundary_frame]

theorem Link.started_frame : (x.started b lanes).mgr.frame = if x.mgr.state = .dark then none else some
    { messages := if x.mgr.state.controlOpen then
        (x.rng.run.bind (fun r => r.markAt b)).toList ++ x.mgr.markNext.toList ++ x.mgr.leaving else []
      carriesLanes := x.mgr.state == .active, k := x.align.k } := by
  unfold Link.started
  dsimp only
  rw [x.mgr.boundary_frame]

theorem Link.started_rng_of_none (h : x.rng.run.bind (fun r => r.markAt b) = none) : (x.started b lanes).rng = x.rng := by
  unfold Link.started
  dsimp only
  rw [h]
  rfl

theorem Link.started_rng_of_mark {r : RangingRun} {m : DownMsg} (hr : x.rng.run = some r) (hm : r.markAt b = some m) :
    (x.started b lanes).rng = { x.rng with run := some { r with marksSent := r.marksSent + 1 } } := by
  unfold Link.started
  dsimp only
  simp only [hr, Option.bind_some, hm, Option.isSome_some, if_true, Option.map_some]

theorem Link.started_rng : (x.started b lanes).rng = { x.rng with run := (x.started b lanes).rng.run } := by
  unfold Link.started
  dsimp only
  split <;> rfl

end

/-! ## Phase counts (R5 to R7) -/

theorem Manager.countPhase_of_counts {m : Manager} {n : Nat} (h : m.state = .listen ∧ m.listenPhase = some .settle ∧ n = 100 ∨
    m.state = .attach ∧ m.attachPhase = some .debounce ∧ n = 98 ∨ m.state = .attach ∧ m.attachPhase = some .helloWait ∧ n = 50) :
    m.countPhase.phaseCount = if m.phaseCount < n then m.phaseCount + 1 else m.phaseCount := by
  unfold Manager.countPhase
  obtain ⟨hstate, hphase, rfl⟩ | ⟨hstate, hphase, rfl⟩ | ⟨hstate, hphase, rfl⟩ := h
  all_goals rw [hstate, hphase]

theorem Manager.countPhase_of_not {m : Manager} (h : ∀ n, ¬ (m.state = .listen ∧ m.listenPhase = some .settle ∧ n = 100 ∨
    m.state = .attach ∧ m.attachPhase = some .debounce ∧ n = 98 ∨ m.state = .attach ∧ m.attachPhase = some .helloWait ∧ n = 50)) :
    m.countPhase.phaseCount = m.phaseCount := by
  unfold Manager.countPhase
  split
  · next hstate hphase => exact absurd (Or.inl ⟨hstate, hphase, rfl⟩) (h 100)
  · next hstate hphase => exact absurd (Or.inr (Or.inl ⟨hstate, hphase, rfl⟩)) (h 98)
  · next hstate hphase => exact absurd (Or.inr (Or.inr ⟨hstate, hphase, rfl⟩)) (h 50)
  · rfl

end Sys2Proof.Machine
end

section
/-! BLOCK_BOUNDARY: the frames, the samples and the block record (R3, R18, R29, R55, R58, R112, R137). -/

namespace Sys2Proof.Machine

open Sys2Proof

/-! ## The block record (R137) -/

theorem Service.launchAll_frame (v : Service) (b : Seq16) : v.launchAll b =
    { v with streams := (v.launchAll b).streams, totals := (v.launchAll b).totals } := by
  have hcount (w : Service) (n : StreamName) (h : w = { v with streams := w.streams, totals := w.totals }) :
      w.count n .underrun = { v with streams := (w.count n .underrun).streams, totals := (w.count n .underrun).totals } := by
    exact (w.count_frame n .underrun).trans (congrArg (fun x : Service => ({ x with
      totals := (w.count n .underrun).totals, streams := (w.count n .underrun).streams } : Service)) h :)
  unfold Service.launchAll
  split
  · refine foldl_induct (fun w : Service => w = { v with streams := w.streams, totals := w.totals }) _ (fun w n hw => ?_) _ v rfl
    have hset (r : Option StreamRec) : ({ w with streams := w.streams.set n r } : Service) =
        { v with streams := w.streams.set n r, totals := w.totals } := by
      conv_lhs => rw [hw]
    unfold Service.launchStream
    split
    · exact hw
    · dsimp only
      split
      · split
        · exact hset _
        · exact hcount _ n (hset _)
      · split
        · exact hset _
        · split
          · exact hset _
          · exact hcount _ n (hset _)
  · rfl

section
variable (s : State) (levels : BitVec 4)

theorem State.startedBoundary_link (l : LinkIx) : (s.startedBoundary levels).link l = (s.blockWork levels).link l := by
  rw [State.blockWork_link, ← (s.startedBoundary_records levels).2]

/-- A link record at a boundary but for its frame. -/
theorem State.slewedLink (l : LinkIx) : s.slewed (s.launchedBoundary.link l) =
    { s.link l with
      align := (s.slewed (s.link l)).align, rx := (s.link l).rx.map RxHistory.advance, gates := (s.combinePoint.link l).gates } := by
  obtain ⟨-, -, hlink, -⟩ := s.launchedBoundary_records
  rw [hlink]
  unfold State.slewed
  dsimp only
  split <;> rfl

theorem State.newRecord_fields : let r := (s.startedBoundary levels).newRecord
    (∀ z : ZoneIx, r.plans[z] = s.planInForce z ∧ r.incident[z] = (s.zone z).incident) ∧
    (∀ l : LinkIx, r.applied[l] = ((s.blockWork levels).link l).align.k ∧
      r.launched[l] = if (s.link l).mgr.state = .active then some (s.link l).settings.zone else none) ∧
    ∀ v : ServiceIx, r.enabled[v] = decide ((s.service v).state = .enabled) := by
  have hlink := s.startedBoundary_link levels
  have hstate (l : LinkIx) : ((s.blockWork levels).link l).mgr.state = (s.link l).mgr.state ∧
      ((s.blockWork levels).link l).settings = (s.link l).settings := by
    rw [State.blockWork_link, s.slewedLink, Link.started_mgr]
    exact ⟨rfl, rfl⟩
  have hrecords : (s.startedBoundary levels).time = s.time ∧ (∀ z, (s.startedBoundary levels).zone z = (s.blockWork levels).zone z) ∧
      ∀ v, (s.startedBoundary levels).service v = (s.blockWork levels).service v := by
    refine ⟨?_, fun z => by rw [State.blockWork_eq]; rfl, fun v => by rw [State.blockWork_eq]; rfl⟩
    obtain ⟨hlaunched, -⟩ := s.launchedBoundary_records
    obtain ⟨hselected, -⟩ := s.selectedBoundary_records
    obtain ⟨hslewed, -⟩ := s.slewedBoundary_records levels
    obtain ⟨hstarted, -⟩ := s.startedBoundary_records levels
    generalize s.launchedBoundary = c at *
    generalize s.selectedBoundary = d at *
    generalize s.slewedBoundary levels = e at *
    generalize s.startedBoundary levels = f at *
    rw [hstarted, hslewed, hselected, hlaunched]
  have hzone (z : ZoneIx) : ((s.blockWork levels).zone z).staged = (s.zone z).staged ∧ ((s.blockWork levels).zone z).entries = (s.zone z).entries ∧
      ((s.blockWork levels).zone z).incident = (s.zone z).incident := by
    rw [State.blockWork_zone]
    simp only [State.withSelection, and_self]
  have hservice (v : ServiceIx) : ((s.blockWork levels).service v).state = (s.service v).state := by
    have hcombined := (State.combinePoint_combined (s := s)).service v
    rw [State.blockWork_service]
    generalize s.combinePoint.service v = x at hcombined ⊢
    rw [Service.launchAll_frame, hcombined]
  generalize s.startedBoundary levels = f at *
  generalize s.blockWork levels = t at *
  obtain ⟨htime, hzones, hservices⟩ := hrecords
  refine ⟨fun z => ⟨?_, ?_⟩, fun l => ⟨?_, ?_⟩, fun v => ?_⟩
  · have hplan : f.planInForce z = s.planInForce z := by
      unfold State.planInForce
      rw [hzones, htime, (hzone z).1, (hzone z).2.1]
    rw [← hplan]
    simp [State.newRecord]
  · rw [← (hzone z).2.2, ← hzones]
    simp [State.newRecord]
  · rw [← hlink]
    simp [State.newRecord]
  · rw [← (hstate l).1, ← (hstate l).2, ← hlink]
    simp [State.newRecord]
  · rw [← hservice, ← hservices]
    simp only [State.newRecord, Fin.getElem_fin, Vector.getElem_ofFn, Fin.eta]
    rfl

theorem State.blockWork_rest : (s.blockWork levels).time = { s.time with blockOwed := false } ∧
    (s.blockWork levels).combiner = { prev := s.combiner.now, now := some (s.startedBoundary levels).newRecord
                                      workList := s.combinePoint.combiner.workList } ∧
    (s.blockWork levels).groups = s.groups ∧ (s.blockWork levels).arbiter = s.arbiter ∧ (s.blockWork levels).notices = s.notices ∧
    (s.blockWork levels).path = s.path ∧ (s.blockWork levels).orders = s.orders ∧ (s.blockWork levels).poster = s.poster ∧
    (s.blockWork levels).pending = s.pending := by
  have h := s.blockWork_frame levels
  generalize s.startedBoundary levels = f at *
  generalize s.combinePoint = c at *
  generalize s.blockWork levels = t at *
  rw [h]
  exact ⟨rfl, rfl, rfl, rfl, rfl, rfl, rfl, rfl, rfl⟩

end

/-! ## The frames -/

section
variable (s : State) (levels : BitVec 4) (l : LinkIx)

/-- What the work of a boundary makes of a link. -/
theorem State.blockWork_link_eq : (s.blockWork levels).link l = Link.started { s.link l with
    align := (s.slewed (s.link l)).align, rx := (s.link l).rx.map RxHistory.advance, gates := (s.combinePoint.link l).gates }
      s.time.block ((s.slewedBoundary levels).enteredLanes l) := by
  rw [State.blockWork_link, State.slewedLink]

theorem State.blockWork_align : ((s.blockWork levels).link l).align = (s.slewed (s.link l)).align := by
  rw [State.blockWork_link_eq]
  rfl

theorem State.blockWork_frame_of : ((s.blockWork levels).link l).mgr.frame = if (s.link l).mgr.state = .dark then none else some
    { messages := if (s.link l).mgr.state.controlOpen then
        ((s.link l).rng.run.bind (fun r => r.markAt s.time.block)).toList ++ (s.link l).mgr.markNext.toList ++ (s.link l).mgr.leaving else []
      carriesLanes := (s.link l).mgr.state == .active, k := ((s.blockWork levels).link l).align.k } := by
  rw [State.blockWork_align, State.blockWork_link_eq, Link.started_frame]

theorem State.blockWork_outstanding : ((s.blockWork levels).link l).mgr.outstanding = ((s.link l).mgr.markSent s.time.block
    (if (s.link l).mgr.state.controlOpen then (s.link l).mgr.leaving else [])).outstanding := by
  rw [State.blockWork_link_eq, Link.started_mgr]

theorem State.blockWork_mgr : ((s.blockWork levels).link l).mgr = { (s.link l).mgr with
    phaseCount := (s.link l).mgr.countPhase.phaseCount
    outstanding := ((s.blockWork levels).link l).mgr.outstanding
    frame := ((s.blockWork levels).link l).mgr.frame, leaving := [], markNext := none
    attachDue := (s.link l).mgr.state == .listen && (s.link l).mgr.listenPhase == some .detect && (s.link l).mgr.lock
    quiesceDue := (s.link l).mgr.state == .quiescing && (s.link l).mgr.settled } := by
  rw [State.blockWork_outstanding, State.blockWork_link_eq, Link.started_mgr]

end

/-! ## What a boundary's beginning leaves alone -/

/-- The part's other accounts, which the work of a superframe boundary and what is settled before a boundary leave as they are. -/
def State.sameAccounts (s t : State) : Prop :=
  t.orders = s.orders ∧ t.pending = s.pending ∧ t.path.queue = s.path.queue ∧ t.path.access = s.path.access ∧ t.path.port = s.path.port

theorem State.Edits.sameAccounts {s t : State} (h : s.Edits t) : s.sameAccounts t := by
  obtain ⟨-, hpath, horders, -, hpending⟩ := h.frame
  exact ⟨horders, hpending, by rw [hpath], by rw [hpath], by rw [hpath]⟩

theorem State.sameAccounts.trans {s t u : State} (h : s.sameAccounts t) (h' : t.sameAccounts u) : s.sameAccounts u := by
  obtain ⟨h1, h2, h3, h4, h5⟩ := h
  obtain ⟨h1', h2', h3', h4', h5'⟩ := h'
  exact ⟨h1'.trans h1, h2'.trans h2, h3'.trans h3, h4'.trans h4, h5'.trans h5⟩

theorem State.superframeWork_edits (s : State) : ∃ t4, s.Edits t4 ∧
    s.superframeWork = (t4.reportOwned.snapshot).modTime (fun x => { x with superframeOwed := false }) := by
  have hcount (s : State) (g : GroupIx) : s.Edits (s.modGroup g Group.countHold) :=
    (State.Edit.group g _ (s.group g).countHold_sameAim).edits
  unfold State.superframeWork
  extract_lets t1 t2 t3 t4
  have h1 : s.Edits t1 := .forGroups hcount s
  have h2 : t1.Edits t2 := .forLinks State.countTracking_edits t1
  have h3 : t2.Edits t3 := .forServices State.reportStreams_edits t2
  have h4 : t3.Edits t4 := .forServices State.reportUplink_edits t3
  exact ⟨t4, h1.trans (h2.trans (h3.trans h4)), rfl⟩

theorem State.superframeWork_rest (s : State) : s.sameAccounts s.superframeWork ∧
    s.superframeWork.time = { s.time with superframeOwed := false } := by
  obtain ⟨t4, hedits, heq⟩ := s.superframeWork_edits
  obtain ⟨htime, -⟩ := hedits.frame
  have howned : t4.sameAccounts t4.reportOwned ∧ t4.reportOwned.time = t4.time := by
    unfold State.reportOwned
    dsimp only
    split
    · exact ⟨⟨rfl, rfl, rfl, rfl, rfl⟩, rfl⟩
    · exact ⟨⟨rfl, rfl, rfl, rfl, rfl⟩, rfl⟩
  rw [heq]
  obtain ⟨hsame, hsameTime⟩ := howned
  generalize t4.reportOwned = u at hsame hsameTime ⊢
  refine ⟨hedits.sameAccounts.trans (hsame.trans ⟨rfl, rfl, rfl, rfl, rfl⟩), ?_⟩
  rw [State.modTime_time, ← htime, ← hsameTime]
  rfl

theorem State.settle_rest (s : State) : s.sameAccounts s.settle ∧
    s.settle.time = { s.time with superframeOwed := false } := by
  unfold State.settle
  extract_lets t1 t2 t3 t4
  have h1 : s.sameAccounts t1 ∧ t1.time = { s.time with superframeOwed := false } := by
    unfold t1
    split
    · exact s.superframeWork_rest
    · next howed => exact ⟨⟨rfl, rfl, rfl, rfl, rfl⟩, by rw [← eq_false_of_ne_true howed]⟩
  have h2 : t1.Edits t2 := .forLinks State.settleLink_edits t1
  have h3 : t2.Edits t3 := .forGroups State.holdExpiryIfDue_edits t2
  have h4 : t3.Edits t4 := .forInputs State.registeredChangeIfDue_edits t3
  have h : t1.Edits (t4.forZones State.planSwitchIfDue).joinSwitchAll :=
    h2.trans (h3.trans (h4.trans ((State.Edits.forZones State.planSwitchIfDue_edits t4).trans (State.joinSwitchAll_edits _))))
  generalize (t4.forZones State.planSwitchIfDue).joinSwitchAll = t5 at h ⊢
  obtain ⟨htime, -⟩ := h.frame
  exact ⟨h1.1.trans h.sameAccounts, htime.trans h1.2⟩

theorem State.beginBoundary_rest (s : State) : s.sameAccounts s.beginBoundary ∧ s.beginBoundary.time =
    { block := s.time.block + 1
      superframe := if s.time.index = 9 then s.time.superframe + 1 else s.time.superframe
      index := if s.time.index = 9 then 0 else s.time.index + 1
      blockOwed := true, superframeOwed := s.time.index == 9 } := by
  have hedits : (s.settle.modTime Timebase.next).Edits s.beginBoundary := State.Edits.forLinks State.departing_edits _
  have hnext (u : State) : u.sameAccounts (u.modTime Timebase.next) := ⟨rfl, rfl, rfl, rfl, rfl⟩
  refine ⟨s.settle_rest.1.trans ((hnext _).trans hedits.sameAccounts), ?_⟩
  rw [s.beginBoundary_time, s.settle_rest.2]
  rfl

theorem State.atBoundary_rest (s : State) : s.sameAccounts s.atBoundary := by
  unfold State.atBoundary
  split
  · exact ⟨rfl, rfl, rfl, rfl, rfl⟩
  · exact s.beginBoundary_rest.1

/-- Settles O39. -/
theorem blockBoundaryStartsFrames : Obligations.BlockBoundaryStartsFrames := by
  intro s levels hreset b
  have hexec : exec (.blockBoundary levels) s = .next (b.blockWork levels) := exec_blockBoundary s levels hreset
  have hpending : b.pending = s.pending := s.atBoundary_rest.2.1
  clear_value b
  obtain ⟨htime, hcombiner, hrest⟩ := b.blockWork_rest levels
  have hinput := b.blockWork_input levels
  have hrecord := b.newRecord_fields levels
  have hmgrs := b.blockWork_mgr levels
  have hframes := b.blockWork_frame_of levels
  have hhelds := b.blockWork_outstanding levels
  have haligns := b.blockWork_align levels
  have hlinks := b.blockWork_link_eq levels
  generalize b.blockWork levels = t at *
  generalize (b.startedBoundary levels).newRecord = record at *
  refine ⟨t, hexec, htime, fun l => ?_, fun i htaken => ?_, fun i htaken hle => ?_, by rw [hcombiner],
    ⟨record, by rw [hcombiner], hrecord⟩, ?_⟩
  · intro x y slew openStates counts carries markFalls
    have hopen : x.mgr.state.controlOpen = true ↔ x.mgr.state ∈ openStates := LinkState.controlOpen_iff _
    have hmgr : y.mgr = _ := hmgrs l
    have hyframe : y.mgr.frame = _ := hframes l
    have hheld : y.mgr.outstanding = _ := hhelds l
    have halign : y.align = (b.slewed x).align := haligns l
    have hlink : y = _ := hlinks l
    have hmessages (hstate : x.mgr.state ∈ openStates) : y.mgr.frame =
        some (carries ((x.rng.run.bind (fun r => r.markAt b.time.block)).toList ++ (x.mgr.markNext.toList ++ x.mgr.leaving))) := by
      have hlit : ¬ x.mgr.state = .dark := fun e => by
        rw [e] at hstate
        exact absurd hstate (by decide)
      rw [hyframe, if_neg hlit, if_pos (hopen.mpr hstate), List.append_assoc]
    have hsent (g : Tag) := Manager.markSent_outstanding x.mgr b.time.block (if x.mgr.state.controlOpen then x.mgr.leaving else []) g
    refine ⟨⟨?_, ?_, ?_, ?_, ?_⟩, ?_, ?_, fun g o q hstate hq ho => ?_, fun g hg => ?_, fun n hn => ?_, fun hn => ?_, fun hinactive => ?_,
      fun hactive => ?_, fun hdark => ?_, fun hclosed => ?_, fun hno => ⟨?_, fun hstate => ?_⟩, fun r m hr hm hstate => ⟨?_, ?_⟩,
      fun lane j hlane hj => ?_⟩
    · rw [hlink]; rfl
    · rw [hlink]; rfl
    · rw [hlink]; rfl
    · have h : y.rng = { x.rng with run := y.rng.run } := by
        rw [hlink]
        exact Link.started_rng _ _ _
      exact h
    · rw [hmgr]
    · rw [hmgr]
      simp only [Bool.and_eq_true, beq_iff_eq, and_assoc]
      exact Iff.rfl
    · rw [hmgr]
      simp only [Bool.and_eq_true, beq_iff_eq, Manager.settled_iff]
      exact Iff.rfl
    · rw [hheld, hsent, if_pos (hopen.mpr hstate), if_pos ⟨q, hq⟩, ho]
      rfl
    · have hin : (∃ q, DownMsg.request g q ∈ if x.mgr.state.controlOpen then x.mgr.leaving else []) → x.mgr.outstanding[g] = none := by
        rintro ⟨q, hq⟩
        by_cases hstate : x.mgr.state.controlOpen = true
        · rw [if_pos hstate] at hq
          exact hg.elim (fun k => absurd (hopen.mp hstate) k) fun k => k.elim (fun k => absurd hq (k q)) id
        · rw [if_neg hstate] at hq
          cases hq
      rw [hheld, hsent]
      by_cases h : ∃ q, DownMsg.request g q ∈ if x.mgr.state.controlOpen then x.mgr.leaving else []
      · rw [if_pos h, hin h]
        rfl
      · rw [if_neg h]
    · rw [hmgr]
      exact Manager.countPhase_of_counts hn
    · rw [hmgr]
      exact Manager.countPhase_of_not hn
    · rw [halign, State.slewed, if_neg hinactive]
    · rw [halign, State.slewed, if_pos hactive]
      dsimp only
      rw [Align.slewStep_eq]
      exact ⟨rfl, rfl, rfl, rfl⟩
    · rw [hyframe, if_pos hdark]
    · have hlit : ¬ x.mgr.state = .dark := fun e => by
        rw [e] at hclosed
        exact absurd hclosed (by decide)
      have hnot : ¬ x.mgr.state.controlOpen = true := fun k => by
        have := hopen.mp k
        revert hclosed this
        cases x.mgr.state <;> simp [openStates]
      rw [hyframe, if_neg hlit, if_neg hnot]
    · have hnone : x.rng.run.bind (fun r => r.markAt b.time.block) = none := by
        cases hr : x.rng.run with
        | none => rfl
        | some r => exact RangingRun.markAt_eq_none fun m hm => hno r m hr hm
      rw [hlink]
      exact Link.started_rng_of_none _ _ _ hnone
    · have hnone : x.rng.run.bind (fun r => r.markAt b.time.block) = none := by
        cases hr : x.rng.run with
        | none => rfl
        | some r => exact RangingRun.markAt_eq_none fun m hm => hno r m hr hm
      rw [hmessages hstate, hnone]
      rfl
    · have hmark := RangingRun.markAt_eq_some hm.1 hm.2
      have h : y.rng = _ := (congrArg Link.rng hlink).trans (Link.started_rng_of_mark _ _ _ hr hmark)
      rw [h, hm.1]
    · have hmark := RangingRun.markAt_eq_some hm.1 hm.2
      rw [hmessages hstate, hr, Option.bind_some, hmark]
      rfl
    · rw [hlink]
      exact Link.started_before _ _ _ hlane
  · rw [hinput, ContactInput.sampleOnce, if_pos htaken]
  · rw [hinput, ContactInput.sampleOnce, if_neg (ne_true_of_eq_false htaken), ContactInput.sample]
    generalize levels.getLsbD i.val = level
    generalize b.input i = c at hle ⊢
    by_cases hlevel : level = c.level
    · simp [hlevel]
    · by_cases hcount : c.stability = 7
      · have hmin : min 7 (c.stability + 1) = c.stability := by omega
        rw [if_neg hlevel, if_pos (by omega), if_neg hlevel, hmin]
        simp [hlevel, hcount]
      · have hmin : min 7 (c.stability + 1) = c.stability + 1 := by omega
        rw [if_neg hlevel, if_neg (by omega), if_neg hlevel, hmin]
        simp [hcount]
  · rw [← hpending]
    exact hrest

end Sys2Proof.Machine
end

section
/-! The launch of a block (R77, R78), the selection made from it (R131, R133), and the delay of a lane (R59). -/

namespace Sys2Proof.Machine

open Sys2Proof

/-! ## The launch of one stream -/

/-- R77, R78: what the launch of block b makes of stream n, whose record was r: its record r', its totals u that were u0. -/
structure StreamRec.Launched (r : StreamRec) (n : StreamName) (b : Seq16) (r' : StreamRec) (u0 u : Counters) : Prop where
  open1 : r'.open1 = r.open2
  open2 : r'.open2 = { seq := b + 2, committed := false, words := [] }
  of_committed : r.open1.committed = true → r'.launch = some r.open1 ∧ r'.increments = r.increments ∧ u = u0 ∧
    (n ≠ .normal → r'.starved = false ∧ r'.underrunRun = 0 ∧ r'.starvedCleared = (r.starvedCleared || r.starved))
  of_uncommitted : r.open1.committed = false → r'.launch = some { r.open1 with words := [] } ∧
    ((n = .normal ∨ r.starved = false) → u0.underrun < 65535 →
      r'.increments = { r.increments with underrun := bump16 r.increments.underrun } ∧ u = { u0 with underrun := u0.underrun + 1 }) ∧
    (((n ≠ .normal ∧ r.starved = true) ∨ 65535 ≤ u0.underrun) → r'.increments = r.increments ∧ u = u0) ∧
    (n ≠ .normal → r.starved = true → r'.starved = true) ∧
    (n ≠ .normal → r.starved = false → r.underrunRun < 2 → r'.starved = false ∧ r'.underrunRun = r.underrunRun + 1 ∧
      r'.starvedSet = r.starvedSet) ∧
    (n ≠ .normal → r.starved = false → r.underrunRun = 2 → r'.starved = true ∧ r'.underrunRun = 0 ∧ r'.starvedSet = true)

/-- R78: a stream's record and totals once an underrun has been counted. -/
theorem Service.count_underrun {w : Service} {n : StreamName} {x : StreamRec} (hx : w.streams.get n = some x) :
    (w.count n .underrun).streams.get n = some { x with increments := { x.increments with
      underrun := if (w.totals.get n).underrun < 65535 then bump16 x.increments.underrun else x.increments.underrun } } ∧
    (w.count n .underrun).totals.get n = { w.totals.get n with
      underrun := if (w.totals.get n).underrun < 65535 then (w.totals.get n).underrun + 1 else (w.totals.get n).underrun } := by
  by_cases h : (w.totals.get n).underrun < 65535
  · rw [Service.count_of_lt (c := .underrun) h, if_pos h, if_pos h, PerStream.get_set, PerStream.get_set, if_pos rfl, if_pos rfl, hx]
    refine ⟨rfl, ?_⟩
    rw [← bump16_of_lt h]
    rfl
  · rw [Service.count_of_held (c := .underrun) (Nat.le_of_not_lt h), if_neg h, if_neg h]
    exact ⟨hx, rfl⟩

section
variable (v : Service) (b : Seq16)

theorem Service.launchStream_of_none {n : StreamName} (h : v.streams.get n = none) : v.launchStream b n = v := by
  unfold Service.launchStream
  rw [h]

/-- The launch of one stream is not seen by another. -/
theorem Service.launchStream_other {n m : StreamName} (hm : m ≠ n) : (v.launchStream b n).streams.get m = v.streams.get m ∧
    (v.launchStream b n).totals.get m = v.totals.get m := by
  have hset (x : Option StreamRec) : (v.streams.set n x).get m = v.streams.get m := by rw [PerStream.get_set, if_neg hm]
  have hcount (w : Service) : (w.count n .underrun).streams.get m = w.streams.get m ∧
      (w.count n .underrun).totals.get m = w.totals.get m := by
    unfold Service.count
    split
    · exact ⟨by rw [PerStream.get_set, if_neg hm], by rw [PerStream.get_set, if_neg hm]⟩
    · exact ⟨rfl, rfl⟩
  unfold Service.launchStream
  split
  · exact ⟨rfl, rfl⟩
  · dsimp only
    split
    · split
      · exact ⟨hset _, rfl⟩
      · exact ⟨(hcount _).1.trans (hset _), (hcount _).2⟩
    · split
      · exact ⟨hset _, rfl⟩
      · split
        · exact ⟨hset _, rfl⟩
        · exact ⟨(hcount _).1.trans (hset _), (hcount _).2⟩

theorem Service.launchStream_launched {n : StreamName} {r : StreamRec} (hr : v.streams.get n = some r) :
    ∃ r', (v.launchStream b n).streams.get n = some r' ∧
      r.Launched n b r' (v.totals.get n) ((v.launchStream b n).totals.get n) := by
  have hset (x : StreamRec) : ({ v with streams := v.streams.set n (some x) } : Service).streams.get n = some x :=
    (PerStream.get_set ..).trans (if_pos rfl)
  unfold Service.launchStream
  rw [hr]
  dsimp only
  by_cases hcommitted : r.open1.committed = true
  · have habsurd (h : r.open1.committed = false) : False := ne_true_of_eq_false h hcommitted
    by_cases hn : n = .normal
    · rw [if_pos hn, if_pos hcommitted]
      exact ⟨_, hset _, rfl, rfl, fun _ => ⟨congrArg some (if_pos hcommitted), rfl, rfl, fun h => (h hn).elim⟩, fun h => (habsurd h).elim⟩
    · rw [if_neg hn, if_pos hcommitted]
      exact ⟨_, hset _, rfl, rfl, fun _ => ⟨congrArg some (if_pos hcommitted), rfl, rfl, fun _ => ⟨rfl, rfl, rfl⟩⟩, fun h => (habsurd h).elim⟩
  · have hlaunch : some (if r.open1.committed = true then r.open1 else { r.open1 with words := [] }) =
        some { r.open1 with words := [] } := congrArg some (if_neg hcommitted)
    by_cases hn : n = .normal
    · rw [if_pos hn, if_neg hcommitted]
      obtain ⟨hrec, htotals⟩ := Service.count_underrun (hset (r.advance b))
      refine ⟨_, hrec, rfl, rfl, fun h => (hcommitted h).elim, fun _ => ⟨hlaunch, fun _ hlt => ?_, fun h => ?_, fun h => (h hn).elim,
        fun h => (h hn).elim, fun h => (h hn).elim⟩⟩
      · rw [htotals, if_pos hlt, if_pos hlt]
        exact ⟨rfl, rfl⟩
      · have hge : ¬ (v.totals.get n).underrun < 65535 := Nat.not_lt.mpr (h.resolve_left fun h => h.1 hn)
        rw [htotals, if_neg hge, if_neg hge]
        exact ⟨rfl, rfl⟩
    · rw [if_neg hn, if_neg hcommitted]
      by_cases hstarved : r.starved = true
      · have hnot (h : r.starved = false) : False := ne_true_of_eq_false h hstarved
        rw [if_pos hstarved]
        exact ⟨_, hset _, rfl, rfl, fun h => (hcommitted h).elim, fun _ => ⟨hlaunch, fun h => (h.elim hn hnot).elim, fun _ => ⟨rfl, rfl⟩,
          fun _ _ => hstarved, fun _ h => (hnot h).elim, fun _ h => (hnot h).elim⟩⟩
      · rw [if_neg hstarved]
        obtain ⟨hrec, htotals⟩ := Service.count_underrun (hset { r.advance b with
          starved := decide (3 ≤ r.underrunRun + 1)
          underrunRun := if decide (3 ≤ r.underrunRun + 1) then 0 else r.underrunRun + 1
          starvedSet := (r.advance b).starvedSet || decide (3 ≤ r.underrunRun + 1) })
        refine ⟨_, hrec, rfl, rfl, fun h => (hcommitted h).elim, fun _ => ⟨hlaunch, fun _ hlt => ?_, fun h => ?_,
          fun _ h => (hstarved h).elim, fun _ _ hrun => ?_, fun _ _ hrun => ?_⟩⟩
        · rw [htotals, if_pos hlt, if_pos hlt]
          exact ⟨rfl, rfl⟩
        · have hge : ¬ (v.totals.get n).underrun < 65535 := Nat.not_lt.mpr (h.resolve_left fun h => hstarved h.2)
          rw [htotals, if_neg hge, if_neg hge]
          exact ⟨rfl, rfl⟩
        · have hfull : decide (3 ≤ r.underrunRun + 1) = false := decide_eq_false (by omega)
          dsimp only
          rw [hfull]
          exact ⟨rfl, rfl, Bool.or_false _⟩
        · have hfull : decide (3 ≤ r.underrunRun + 1) = true := decide_eq_true (by omega)
          dsimp only
          rw [hfull]
          exact ⟨rfl, rfl, Bool.or_true _⟩

/-! ## The launch of a service -/

theorem Service.launchAll_eq (h : v.state = .enabled) :
    v.launchAll b = ((v.launchStream b .normal).launchStream b .a).launchStream b .b := if_pos h

theorem Service.launchAll_of_not_enabled (h : v.state ≠ .enabled) : v.launchAll b = v := if_neg h

/-- What each stream's launch makes of it stands to the end. -/
theorem Service.launchAll_get (h : v.state = .enabled) (n : StreamName) : ∃ w : Service, w.streams.get n = v.streams.get n ∧
    w.totals.get n = v.totals.get n ∧ (v.launchAll b).streams.get n = (w.launchStream b n).streams.get n ∧
    (v.launchAll b).totals.get n = (w.launchStream b n).totals.get n := by
  rw [v.launchAll_eq b h]
  cases n with
  | normal =>
    obtain ⟨hb, hb'⟩ := Service.launchStream_other ((v.launchStream b .normal).launchStream b .a) b (n := .b) (m := .normal) (by decide)
    obtain ⟨ha, ha'⟩ := Service.launchStream_other (v.launchStream b .normal) b (n := .a) (m := .normal) (by decide)
    exact ⟨v, rfl, rfl, hb.trans ha, hb'.trans ha'⟩
  | a =>
    obtain ⟨hb, hb'⟩ := Service.launchStream_other ((v.launchStream b .normal).launchStream b .a) b (n := .b) (m := .a) (by decide)
    obtain ⟨hn, hn'⟩ := Service.launchStream_other v b (n := .normal) (m := .a) (by decide)
    exact ⟨v.launchStream b .normal, hn, hn', hb, hb'⟩
  | b =>
    obtain ⟨ha, ha'⟩ := Service.launchStream_other (v.launchStream b .normal) b (n := .a) (m := .b) (by decide)
    obtain ⟨hn, hn'⟩ := Service.launchStream_other v b (n := .normal) (m := .b) (by decide)
    exact ⟨(v.launchStream b .normal).launchStream b .a, ha.trans hn, ha'.trans hn', rfl, rfl⟩

theorem Service.launchAll_launched (h : v.state = .enabled) {n : StreamName} {r : StreamRec} (hr : v.streams.get n = some r) :
    ∃ r', (v.launchAll b).streams.get n = some r' ∧ r.Launched n b r' (v.totals.get n) ((v.launchAll b).totals.get n) := by
  obtain ⟨w, hstreams, htotals, hlaunched, hlaunchedTotals⟩ := v.launchAll_get b h n
  rw [hlaunched, hlaunchedTotals, ← htotals]
  exact w.launchStream_launched b (hstreams.trans hr)

end

/-! ## Selection and crossfade -/

theorem entryFor_isNone {plan : List Entry} {v : ServiceIx} : (entryFor plan v).isNone = true ↔ v ∉ carriedOf plan := by
  simp [entryFor, carriedOf]

/-- R79: a stream launched a committed block. -/
theorem Service.launchedCommitted_iff {v : Service} {n : StreamName} : v.launchedCommitted n = true ↔
    ∃ x, (∃ r, v.streams.get n = some r ∧ r.launch = some x) ∧ x.committed = true := by
  unfold Service.launchedCommitted
  cases v.streams.get n with
  | none => simp
  | some r => cases hx : r.launch <;> simp [hx]

theorem Service.fades_eq_some {v : Service} {on : Bool} {old new : Option StreamName} {m : StreamName} :
    v.fades on old new = some m ↔ old = some m ∧ ∃ n, new = some n ∧ m ≠ n ∧ on = true ∧
      v.launchedCommitted m = true ∧ v.launchedCommitted n = true := by
  unfold Service.fades
  cases old with
  | none => simp
  | some o =>
    cases new with
    | none => simp
    | some n =>
      by_cases ho : o = m
      · subst ho
        simp
      · simp [ho]

section
variable {s : State} {z : ZoneIx} {plan : List Entry} {v : ServiceIx}

theorem State.selects_of_out (h : v ∉ carriedOf plan ∨ (s.service v).state ≠ .enabled) : s.selects z plan v = none := by
  refine if_pos ?_
  rw [Bool.or_eq_true, entryFor_isNone, bne_iff_ne]
  exact h

theorem State.ownerChannel_eq_some {c : Channel} : s.ownerChannel z = some c ↔
    ∃ y q, (s.zone z).owner = some y ∧ s.arbiter.parts[y] = some q ∧ q.channel = c := by
  unfold State.ownerChannel
  cases (s.zone z).owner <;> simp

/-- R131: a break-in stream is selected where it is not STARVED, for a broadcast service in a zone whose owner breaks in on its channel. -/
theorem State.selects_of_carried (hin : v ∈ carriedOf plan) (henabled : (s.service v).state = .enabled) :
    (∀ c, (s.service v).kind = .broadcast → s.ownerChannel z = some c →
      (∃ r, (s.service v).streams.get c.stream = some r ∧ r.starved = false) → s.selects z plan v = some c.stream) ∧
    ((∀ c, (s.service v).kind = .broadcast → s.ownerChannel z = some c →
      ¬ ∃ r, (s.service v).streams.get c.stream = some r ∧ r.starved = false) → s.selects z plan v = some .normal) := by
  have hcarried : ¬ ((entryFor plan v).isNone || (s.service v).state != .enabled) = true := by
    rw [Bool.or_eq_true, entryFor_isNone, bne_iff_ne]
    exact fun h => h.elim (· hin) (· henabled)
  unfold State.selects
  dsimp only
  rw [if_neg hcarried]
  refine ⟨fun c hkind hchannel ⟨r, hr, hstarved⟩ => ?_, fun hnone => ?_⟩
  · rw [hchannel]
    dsimp only
    rw [hkind, hr]
    exact if_neg (ne_true_of_eq_false hstarved)
  · split
    · next c hchannel =>
      split
      · next r hkind hr =>
        refine if_pos (Bool.eq_true_of_not_eq_false fun hstarved => hnone c hkind hchannel ⟨r, hr, hstarved⟩)
      · rfl
    · rfl

end

/-! ## The delay of a lane (R59) -/

theorem laneSample_eq_laneBack (before now : Samples) (lane j back : Nat) :
    laneSample before now lane ((j : Int) - back) = laneBack before now lane j back := by
  unfold laneSample laneBack
  by_cases h : back ≤ j
  · have hpos : ((j : Int) - back).toNat = j - back := by omega
    rw [if_pos (by omega), if_pos h, hpos]
  · have hpos : ((j : Int) - back + 1600).toNat = 1600 + j - back := by omega
    rw [if_neg (by omega), if_neg h, hpos]

/-- R59, R139: each component of a delayed sample is the delay rule's. -/
theorem component_delayedSample (before now : Samples) (k lane j : Nat) :
    ∀ component, component ∈ ([sampleI, sampleQ] : List (Word → Int)) →
      component (delayedSample before now k lane j) = delayedComponent component before now k lane j := by
  have hr : k % 80 < 80 := Nat.mod_lt _ (by decide)
  have hback : (j : Int) - (k / 80 : Nat) - 1 = (j : Int) - (k / 80 + 1 : Nat) := by omega
  intro component hmem
  unfold delayedSample delayedComponent
  rw [hback, laneSample_eq_laneBack, laneSample_eq_laneBack]
  have h := component_onComponents (f := interpolate (k % 80)) (x := laneBack before now lane j (k / 80))
    (y := laneBack before now lane j (k / 80 + 1)) (fun a b ha hb => by
      have hrange := weighted_range (n := 80) (k := (k % 80 : Nat)) (c := 40) (by omega) (by omega) (by omega) (by omega) (by omega) ha hb
      unfold interpolate
      rw [mul_comm (80 - _) a, mul_comm _ b]
      exact hrange) component hmem
  exact h

end Sys2Proof.Machine
end

section
/-! BLOCK_BOUNDARY: the launch, the selection, the lanes and their delay (R58, R59, R71, R77, R78, R81, R82, R131 to R133). -/

namespace Sys2Proof.Machine

open Sys2Proof

/-! ## The services and the zones of a boundary -/

section
variable (s : State) (levels : BitVec 4)

theorem State.combinePoint_service (v : ServiceIx) : ∃ (d : Nat) (a : Option Seq16) (x : UplinkSums),
    s.combinePoint.service v = { s.service v with droppedBefore := d, lastAppended := a, sums := x } :=
  ⟨_, _, _, (State.combinePoint_combined (s := s)).service v⟩

theorem State.blockWork_service_frame (v : ServiceIx) : (s.blockWork levels).service v = { s.service v with
    streams := ((s.blockWork levels).service v).streams, totals := ((s.blockWork levels).service v).totals
    lastAppended := ((s.blockWork levels).service v).lastAppended
    droppedBefore := ((s.blockWork levels).service v).droppedBefore, sums := ((s.blockWork levels).service v).sums } := by
  obtain ⟨d, a, x, hcombined⟩ := s.combinePoint_service v
  rw [State.blockWork_service, hcombined]
  exact (Service.launchAll_frame ..).trans (by rw [Service.launchAll_frame])

theorem State.blockWork_launched {v : ServiceIx} (hv : (s.service v).state = .enabled) {n : StreamName} {r : StreamRec}
    (hr : (s.service v).streams.get n = some r) : ∃ r', ((s.blockWork levels).service v).streams.get n = some r' ∧
      r.Launched n s.time.block r' ((s.service v).totals.get n) (((s.blockWork levels).service v).totals.get n) := by
  obtain ⟨d, a, x, hcombined⟩ := s.combinePoint_service v
  rw [State.blockWork_service, hcombined]
  exact Service.launchAll_launched { s.service v with droppedBefore := d, lastAppended := a, sums := x } _ hv hr

theorem State.blockWork_streams_of_not_enabled {v : ServiceIx} (hv : (s.service v).state ≠ .enabled) :
    ((s.blockWork levels).service v).streams = (s.service v).streams ∧ ((s.blockWork levels).service v).totals = (s.service v).totals := by
  obtain ⟨d, a, x, hcombined⟩ := s.combinePoint_service v
  rw [State.blockWork_service, hcombined,
    Service.launchAll_of_not_enabled { s.service v with droppedBefore := d, lastAppended := a, sums := x } _ hv]
  exact ⟨rfl, rfl⟩

/-- What the selection of a boundary reads. -/
theorem State.launchedBoundary_reads : (∀ v, s.launchedBoundary.service v = (s.blockWork levels).service v) ∧
    (∀ z, s.launchedBoundary.ownerChannel z = s.ownerChannel z) ∧ ∀ z, s.launchedBoundary.planInForce z = s.planInForce z := by
  obtain ⟨hframe, -, -, hservice⟩ := s.launchedBoundary_records
  refine ⟨fun v => by rw [hservice, State.blockWork_service], fun z => ?_, fun z => ?_⟩
  · generalize s.launchedBoundary = c at hframe
    rw [hframe]
    rfl
  · generalize s.launchedBoundary = c at hframe
    rw [hframe]
    rfl

theorem State.blockWork_selection (z : ZoneIx) (v : ServiceIx) :
    ((s.blockWork levels).zone z).selection[v] = s.launchedBoundary.selects z (s.planInForce z) v ∧
    ((s.blockWork levels).zone z).fadeFrom[v] = ((s.blockWork levels).service v).fades (s.zone z).crossfade (s.zone z).selection[v]
      ((s.blockWork levels).zone z).selection[v] := by
  obtain ⟨hservice, -, hplan⟩ := s.launchedBoundary_reads levels
  have hzone := s.blockWork_zone levels z
  rw [← hservice]
  generalize s.blockWork levels = t at hzone ⊢
  generalize s.launchedBoundary = c at hplan hzone ⊢
  rw [hzone]
  simp only [State.withSelection, Fin.getElem_fin, Vector.getElem_ofFn, Fin.eta, hplan, and_self]

theorem State.blockWork_zone_frame (z : ZoneIx) : (s.blockWork levels).zone z = { s.zone z with
    selection := ((s.blockWork levels).zone z).selection, fadeFrom := ((s.blockWork levels).zone z).fadeFrom } := by
  have hzone := s.blockWork_zone levels z
  generalize s.blockWork levels = t at hzone ⊢
  rw [hzone]
  simp only [State.withSelection]

end

/-! ## The selection (R131, R133) -/

/-- R77: stream n of service v launched block x last. -/
def State.launched (t : State) (v : ServiceIx) (n : StreamName) (x : Slot) : Prop :=
  ∃ r', (t.service v).streams.get n = some r' ∧ r'.launch = some x

section
variable {t : State} {v : ServiceIx} {n : StreamName} {x y : Slot}

theorem State.launched_unique (hx : t.launched v n x) (hy : t.launched v n y) : x = y := by
  obtain ⟨r, hr, hx⟩ := hx
  obtain ⟨r', hr', hy⟩ := hy
  obtain rfl := Option.some.inj (hr.symm.trans hr')
  exact Option.some.inj (hx.symm.trans hy)

theorem State.launchedWord_of_launched (hx : t.launched v n x) (k : Nat) : t.launchedWord v n k = sampleAt x.words k := by
  obtain ⟨r, hr, hx⟩ := hx
  unfold State.launchedWord
  rw [hr, Option.bind_some, hx]
  rfl

end

section
variable (s : State) (levels : BitVec 4) {z : ZoneIx} {plan : List Entry}

theorem State.blockWork_selects (hplan : s.planInForce z = plan) (v : ServiceIx) : let t := s.blockWork levels
    let breakIn (c : Channel) : Prop := (s.service v).kind = .broadcast ∧
      (∃ y q, (s.zone z).owner = some y ∧ s.arbiter.parts[y] = some q ∧ q.channel = c) ∧
      ∃ r', (t.service v).streams.get (if c = .a then .a else .b) = some r' ∧ r'.starved = false
    ((v ∉ carriedOf plan ∨ (s.service v).state ≠ .enabled) → (t.zone z).selection[v] = none) ∧
    (v ∈ carriedOf plan → (s.service v).state = .enabled →
      (∀ c, breakIn c → (t.zone z).selection[v] = some (if c = .a then .a else .b)) ∧
      ((∀ c, ¬ breakIn c) → (t.zone z).selection[v] = some .normal)) := by
  intro t breakIn
  have hstream (c : Channel) : (if c = .a then .a else .b : StreamName) = c.stream := by cases c <;> rfl
  obtain ⟨hservice, howner, -⟩ := s.launchedBoundary_reads levels
  have hselection : (t.zone z).selection[v] = s.launchedBoundary.selects z plan v := by
    rw [← hplan]
    exact (s.blockWork_selection levels z v).1
  have hframe : (s.launchedBoundary.service v).state = (s.service v).state ∧ (s.launchedBoundary.service v).kind = (s.service v).kind := by
    rw [hservice, State.blockWork_service_frame]
    exact ⟨rfl, rfl⟩
  obtain ⟨hstate, hkind⟩ := hframe
  have hbreakIn (c : Channel) : breakIn c ↔ (s.launchedBoundary.service v).kind = .broadcast ∧
      s.launchedBoundary.ownerChannel z = some c ∧
      ∃ r, (s.launchedBoundary.service v).streams.get c.stream = some r ∧ r.starved = false := by
    rw [howner, State.ownerChannel_eq_some, hkind, hservice, ← hstream]
  rw [hselection, ← hstate]
  refine ⟨State.selects_of_out, fun hin henabled => ?_⟩
  obtain ⟨hbreak, hnormal⟩ := State.selects_of_carried (z := z) hin henabled
  refine ⟨fun c hc => ?_, fun hnone => hnormal fun c hbroadcast hchannel hr => hnone c ((hbreakIn c).mpr ⟨hbroadcast, hchannel, hr⟩)⟩
  obtain ⟨hbroadcast, hchannel, hr⟩ := (hbreakIn c).mp hc
  rw [hbreak c hbroadcast hchannel hr, hstream]

/-- R133: the stream a service's block is crossfaded from in zone z. -/
theorem State.blockWork_fadeFrom (z : ZoneIx) (v : ServiceIx) (old : StreamName) : let t := s.blockWork levels
    (t.zone z).fadeFrom[v] = some old ↔ ∃ new, (s.zone z).selection[v] = some old ∧ (t.zone z).selection[v] = some new ∧ old ≠ new ∧
      (s.zone z).crossfade = true ∧ (∃ x, t.launched v old x ∧ x.committed = true) ∧ ∃ x, t.launched v new x ∧ x.committed = true := by
  intro t
  have hfade : (t.zone z).fadeFrom[v] = _ := (s.blockWork_selection levels z v).2
  rw [hfade, Service.fades_eq_some]
  constructor
  · rintro ⟨hold, new, hnew, hne, hon, hcold, hcnew⟩
    exact ⟨new, hold, hnew, hne, hon, Service.launchedCommitted_iff.mp hcold, Service.launchedCommitted_iff.mp hcnew⟩
  · rintro ⟨new, hold, hnew, hne, hon, hcold, hcnew⟩
    exact ⟨hold, new, hnew, hne, hon, Service.launchedCommitted_iff.mpr hcold, Service.launchedCommitted_iff.mpr hcnew⟩

/-! ## The lanes (R58, R81, R82) -/

theorem State.zoneLanes_congr {s t : State} {z : ZoneIx} (hservice : ∀ v, t.service v = s.service v) (hzone : t.zone z = s.zone z)
    (hsuperframe : t.time.superframe = s.time.superframe) : t.zoneLanes z = s.zoneLanes z := by
  unfold State.zoneLanes State.planInForce
  rw [hzone, hsuperframe]
  simp only [hservice]

theorem State.blockWork_now (l : LinkIx) : ((s.blockWork levels).link l).line.now =
    if (s.link l).mgr.state = .active then (s.blockWork levels).zoneLanes (s.link l).settings.zone else [] := by
  obtain ⟨hslewed, hlinks, -⟩ := s.slewedBoundary_records levels
  have hlink := hlinks l
  rw [State.slewedLink] at hlink
  obtain ⟨hstarted, -⟩ := s.startedBoundary_records levels
  have hsame : (∀ v, (s.slewedBoundary levels).service v = (s.blockWork levels).service v) ∧
      (∀ z, (s.slewedBoundary levels).zone z = (s.blockWork levels).zone z) ∧
      (s.slewedBoundary levels).time.superframe = (s.blockWork levels).time.superframe := by
    rw [State.blockWork_eq]
    generalize s.slewedBoundary levels = e at *
    generalize s.startedBoundary levels = f at *
    rw [hstarted]
    exact ⟨fun _ => rfl, fun _ => rfl, rfl⟩
  obtain ⟨hservice, hzone, htime⟩ := hsame
  have hentered : ((s.blockWork levels).link l).line.now = (s.slewedBoundary levels).enteredLanes l := by
    rw [State.blockWork_link_eq]
    rfl
  rw [hentered, State.enteredLanes, hlink, State.zoneLanes_congr hservice (hzone _) htime]

theorem State.blockWork_putsInForce (hplan : s.putsInForce z plan) : (s.blockWork levels).putsInForce z plan := by
  have hzone := s.blockWork_zone_frame levels z
  have htime := (s.blockWork_rest levels).1
  generalize s.blockWork levels = t at *
  unfold State.putsInForce at hplan ⊢
  rw [hzone, htime]
  exact hplan

/-- R81, R82, R133: the lanes of an ACTIVE link of zone z. -/
theorem State.blockWork_buildsLanes (hplan : s.putsInForce z plan) {l : LinkIx} (hactive : (s.link l).mgr.state = .active)
    (hzone : (s.link l).settings.zone = z) : (s.blockWork levels).buildsLanes z plan ((s.blockWork levels).link l).line.now := by
  have hnow := s.blockWork_now levels l
  rw [if_pos hactive, hzone] at hnow
  rw [hnow]
  exact (s.blockWork levels).zoneLanes_builds z (s.blockWork_putsInForce levels hplan)

/-- R81, R133: a lane sample of an entry, by the streams selected for this block and the one before. -/
theorem State.blockWork_entrySample {e : Entry} {k j : Nat} {out : Word}
    (hnone : ((s.blockWork levels).zone z).selection[e.service] = none → out = 0)
    (hplain : ∀ new, ((s.blockWork levels).zone z).selection[e.service] = some new →
      ((s.blockWork levels).zone z).fadeFrom[e.service] = none → out = (s.blockWork levels).launchedWord e.service new k)
    (hfaded : ∀ old new, ((s.blockWork levels).zone z).selection[e.service] = some new →
      ((s.blockWork levels).zone z).fadeFrom[e.service] = some old →
        ∀ component, component ∈ ([sampleI, sampleQ] : List (Word → Int)) → component out =
          (component ((s.blockWork levels).launchedWord e.service old k) * (1600 - (j : Int)) +
            component ((s.blockWork levels).launchedWord e.service new k) * (j : Int) + 800) / 1600) : let t := s.blockWork levels
    ((t.zone z).selection[e.service] = none → out = 0) ∧
    (∀ (new : StreamName) (x : Slot), (t.zone z).selection[e.service] = some new → t.launched e.service new x →
      ((∀ (old : StreamName) (x' : Slot), (s.zone z).selection[e.service] = some old → t.launched e.service old x' →
          old = new ∨ (s.zone z).crossfade = false ∨ x'.committed = false ∨ x.committed = false) →
        ((s.zone z).selection[e.service] = none ∨
          ∃ old x', (s.zone z).selection[e.service] = some old ∧ t.launched e.service old x') →
        out = sampleAt x.words k) ∧
      (∀ (old : StreamName) (x' : Slot), (s.zone z).selection[e.service] = some old → t.launched e.service old x' → old ≠ new →
        (s.zone z).crossfade = true → x'.committed = true → x.committed = true →
        (∀ component, component ∈ ([sampleI, sampleQ] : List (Word → Int)) → component out =
          (component (sampleAt x'.words k) * (1600 - (j : Int)) + component (sampleAt x.words k) * (j : Int) + 800) / 1600))) := by
  have hfadeFrom := s.blockWork_fadeFrom levels z e.service
  generalize s.blockWork levels = t at *
  refine ⟨hnone, fun new x hnew hx => ⟨fun hplainly _ => ?_, fun old x' hold hx' hne hon hcold hcnew component hmem => ?_⟩⟩
  · have hfade : (t.zone z).fadeFrom[e.service] = none := by
      refine Option.eq_none_iff_forall_ne_some.mpr fun old hsome => ?_
      obtain ⟨new', hold, hnew', hne, hon, ⟨y, hy, hcy⟩, y', hy', hcy'⟩ := (hfadeFrom old).mp hsome
      obtain rfl := Option.some.inj (hnew.symm.trans hnew')
      obtain rfl := State.launched_unique hx hy'
      obtain h | h | h | h := hplainly old y hold hy
      · exact hne h
      · exact ne_true_of_eq_false h hon
      · exact ne_true_of_eq_false h hcy
      · exact ne_true_of_eq_false h hcy'
    rw [hplain new hnew hfade, State.launchedWord_of_launched hx]
  · have hfade := (hfadeFrom old).mpr ⟨new, hold, hnew, hne, hon, ⟨x', hx', hcold⟩, x, hx, hcnew⟩
    rw [hfaded old new hnew hfade component hmem, State.launchedWord_of_launched hx, State.launchedWord_of_launched hx']

/-- R3, R59: what a link in state x sends of its lanes. -/
theorem Link.downlinkSample_of_frame {y : Link} {x : LinkState} {messages : List DownMsg}
    (hframe : y.mgr.frame = if x = .dark then none else some { messages := messages, carriesLanes := x == .active, k := y.align.k })
    (lane j : Nat) :
    (x = .dark → y.downlinkSample lane j = none) ∧ (x ≠ .dark → x ≠ .active → y.downlinkSample lane j = some 0) ∧
    (x = .active → y.downlinkSample lane j = some (delayedSample y.line.before y.line.now y.align.k lane j)) := by
  unfold Link.downlinkSample
  rw [hframe]
  refine ⟨fun hdark => by rw [if_pos hdark]; rfl, fun hdark hactive => ?_, fun hactive => ?_⟩
  · rw [if_neg hdark]
    exact congrArg some (if_neg (by simpa using hactive))
  · rw [if_neg (by rw [hactive]; decide)]
    exact congrArg some (if_pos (by simpa using hactive))

end

/-- Settles O40: the launch (`blockWork_launched`), the selection (`blockWork_selects`, `blockWork_fadeFrom`), the lanes
(`blockWork_buildsLanes`) and their delay. -/
theorem blockBoundaryLaunchesStreams : Obligations.BlockBoundaryLaunchesStreams := by
  intro s levels hreset b
  refine ⟨b.blockWork levels, exec_blockBoundary s levels hreset, ?_, fun v hv => b.blockWork_streams_of_not_enabled levels hv,
    b.blockWork_service_frame levels, b.blockWork_zone_frame levels, ?_, ?_, ?_⟩
  · intro v n r hv hr
    obtain ⟨r', hr', hlaunched⟩ := b.blockWork_launched levels hv hr
    exact ⟨r', hr', hlaunched.open1, hlaunched.open2, hlaunched.of_committed, hlaunched.of_uncommitted⟩
  · intro z plan hplan launched breakIn
    have hforce := (b.putsInForce_iff z plan).mp hplan
    refine ⟨fun v => b.blockWork_selects levels hforce v, fun v => ?_, fun l => b.blockWork_buildsLanes levels hplan, ?_⟩
    · intro fades
      have hfadeFrom (old : StreamName) := b.blockWork_fadeFrom levels z v old
      exact ⟨fun old new h => (hfadeFrom old).mpr ⟨new, h⟩, fun hnone => Option.eq_none_iff_forall_ne_some.mpr fun old hsome =>
        (((hfadeFrom old).mp hsome).elim fun new => hnone old new)⟩
    · intro l hactive hzone hfits hwidth
      obtain ⟨hown, hother⟩ := b.blockWork_buildsLanes levels hplan hactive hzone hfits hwidth
      refine ⟨fun e j i he hj hi => ?_, hother⟩
      obtain ⟨hnone, hplain, hfaded⟩ := hown e j i he hj hi
      exact b.blockWork_entrySample levels hnone hplain hfaded
  · intro l hactive n
    rw [State.blockWork_now, if_neg hactive]
    rfl
  · intro l lane j _ _
    obtain ⟨hdark, hidle, hactive⟩ := Link.downlinkSample_of_frame (b.blockWork_frame_of levels l) lane j
    exact ⟨hdark, hidle, fun h => ⟨_, hactive h, component_delayedSample _ _ _ _ _⟩⟩

end Sys2Proof.Machine
end

section
/-! The status page: its masks, and where each part's words stand (10.5, R177). -/

namespace Sys2Proof.Machine

open Sys2Proof

/-! ## Masks -/

theorem testBit_maskOf (xs : List Nat) (i : Nat) : (maskOf xs).testBit i = true ↔ i ∈ xs := by
  have hfold (acc : Nat) : (xs.foldl (fun acc i => acc ||| 2 ^ i) acc).testBit i = true ↔ acc.testBit i = true ∨ i ∈ xs := by
    induction xs generalizing acc with
    | nil => simp
    | cons x rest ih =>
      rw [List.foldl_cons, ih, Nat.testBit_or, Nat.testBit_two_pow, Bool.or_eq_true, decide_eq_true_iff, List.mem_cons, or_assoc,
        eq_comm (a := x)]
  unfold maskOf
  simpa using hfold 0

theorem masks_maskOf {n : Nat} {xs : List (Fin n)} {p : Fin n → Prop} (h : ∀ x, x ∈ xs ↔ p x) :
    masks (maskOf (xs.map (fun i => i.val))) p := by
  intro i
  rw [testBit_maskOf, List.mem_map]
  exact exists_congr fun x => by rw [h, and_comm]

theorem masks_wireMask (wires : Vector Bool 4) : masks (wireMask wires) (fun w : Fin 4 => wires[w] = true) := by
  have heq : ([0, 1, 2, 3] : List (Fin 4)).filterMap (fun i => if wires[i] = true then some i.val else none) =
      (([0, 1, 2, 3] : List (Fin 4)).filter (fun i => wires[i])).map (fun i => i.val) := by
    simp only [List.filterMap_cons, List.filterMap_nil, List.filter_cons, List.filter_nil]
    cases wires[(0 : Fin 4)] <;> cases wires[(1 : Fin 4)] <;> cases wires[(2 : Fin 4)] <;> cases wires[(3 : Fin 4)] <;> rfl
  have hall : ∀ w : Fin 4, w ∈ ([0, 1, 2, 3] : List (Fin 4)) := by decide
  unfold wireMask
  rw [heq]
  exact masks_maskOf fun w => by rw [List.mem_filter, and_iff_right (hall w)]

theorem Page.holdsMask_of {p : Page} {n : Nat} {f : ServiceIx → Bool} {P : ServiceIx → Prop} (hword : p.words[n]? = some (servicesWord f))
    (h : ∀ v, f v = true ↔ P v) : p.holdsMask n P := by
  refine ⟨_, hword, fun i => ?_⟩
  rw [BitVec.toNat_ofNat, Nat.testBit_mod_two_pow, Bool.and_eq_true, decide_eq_true_iff, testBit_maskOf, List.mem_map]
  constructor
  · rintro ⟨-, v, hv, hi⟩
    exact ⟨v, hi, (h v).mp (List.mem_filter.mp hv).2⟩
  · rintro ⟨v, hi, hv⟩
    have hlt := v.isLt
    exact ⟨by omega, v, List.mem_filter.mpr ⟨mem_allServices v, (h v).mpr hv⟩, hi⟩

/-! ## Words of a list cut into parts -/

section
variable {α β : Type}

theorem getElem?_flatten_map {f : α → List β} {k : Nat} {xs : List α} (hf : ∀ x, (f x).length = k) {i j : Nat} {x : α}
    (hx : xs[i]? = some x) (hj : j < k) : (xs.map f).flatten[k * i + j]? = (f x)[j]? := by
  induction xs generalizing i with
  | nil => simp at hx
  | cons y rest ih =>
    rw [List.map_cons, List.flatten_cons]
    cases i with
    | zero =>
      obtain rfl : y = x := by simpa using hx
      rw [Nat.mul_zero, Nat.zero_add, List.getElem?_append_left (by rw [hf]; exact hj)]
    | succ i =>
      have hge : k * (i + 1) + j = k + (k * i + j) := by rw [Nat.mul_succ]; omega
      rw [hge, List.getElem?_append_right (by rw [hf]; omega), hf, Nat.add_sub_cancel_left]
      exact ih (by simpa using hx)

theorem length_flatten_map {f : α → List β} {k : Nat} (hf : ∀ x, (f x).length = k) (xs : List α) : (xs.map f).flatten.length = k * xs.length := by
  induction xs with
  | nil => rfl
  | cons x rest ih => rw [List.map_cons, List.flatten_cons, List.length_append, hf, ih, List.length_cons, Nat.mul_succ, Nat.add_comm]

theorem getElem?_append_at {xs ys : List β} {m : Nat} (h : xs.length = m) (n : Nat) : (xs ++ ys)[m + n]? = ys[n]? := by
  rw [List.getElem?_append_right (by omega), h, Nat.add_sub_cancel_left]

end

/-! ## The parts of the page -/

section
variable (s : State)

/-- R177, 10.5: the words of the page that name a value, up to the last of the break-in sources. -/
def State.pageBody : List PostWord :=
  s.pageHeader ++ (allLinks.map s.pageLink).flatten ++ (allGroups.map s.pageGroup).flatten ++ (allZones.map s.pageZone).flatten ++
    (allServices.map s.pageService).flatten ++ (allInputs.map s.pageInput).flatten ++ (allSources.map s.pageSource).flatten

theorem State.pageHeader_length : s.pageHeader.length = 16 := rfl

theorem State.pageLink_length (l : LinkIx) : (s.pageLink l).length = 16 := rfl

theorem State.pageGroup_length (g : GroupIx) : (s.pageGroup g).length = 4 := rfl

theorem State.pageZone_length (z : ZoneIx) : (s.pageZone z).length = 8 := rfl

theorem State.pageService_length (v : ServiceIx) : (s.pageService v).length = 4 := rfl

theorem State.pageInput_length (i : InputIx) : (s.pageInput i).length = 1 := rfl

theorem State.pageSource_length (x : SourceIx) : (s.pageSource x).length = 2 := by
  unfold State.pageSource
  split <;> rfl

theorem State.links_length : (allLinks.map s.pageLink).flatten.length = 256 := length_flatten_map s.pageLink_length _

theorem State.groups_length : (allGroups.map s.pageGroup).flatten.length = 16 := length_flatten_map s.pageGroup_length _

theorem State.zones_length : (allZones.map s.pageZone).flatten.length = 64 := length_flatten_map s.pageZone_length _

theorem State.services_length : (allServices.map s.pageService).flatten.length = 96 := length_flatten_map s.pageService_length _

theorem State.inputs_length : (allInputs.map s.pageInput).flatten.length = 4 := length_flatten_map s.pageInput_length _

theorem State.sources_length : (allSources.map s.pageSource).flatten.length = 16 := length_flatten_map s.pageSource_length _

theorem State.pageBody_length : s.pageBody.length = 468 := by
  simp only [State.pageBody, List.length_append, State.pageHeader_length, State.links_length, State.groups_length, State.zones_length,
    State.services_length, State.inputs_length, State.sources_length]

theorem State.pageWords_eq : s.pageWords = (s.pageBody ++ List.replicate 43 (.bits 0)) ++ [pageWord 7 0 [s.time.superframe.toNat]] := by
  have h : 511 - s.pageBody.length = 43 := by rw [State.pageBody_length]
  rw [← h]
  rfl

theorem State.pageWords_length : s.pageWords.length = 512 := by
  rw [State.pageWords_eq, List.length_append, List.length_append, State.pageBody_length, List.length_replicate]
  rfl

theorem State.pageWords_last : s.pageWords[511]? = some (pageWord 7 0 [s.time.superframe.toNat]) := by
  rw [State.pageWords_eq]
  exact getElem?_append_at (m := 511) (by rw [List.length_append, State.pageBody_length, List.length_replicate]) 0

theorem State.pageWords_unused {k : Nat} (hlow : 468 ≤ k) (hhigh : k < 511) : s.pageWords[k]? = some (.bits 0) := by
  obtain ⟨n, rfl⟩ := Nat.exists_eq_add_of_le hlow
  have hbody := s.pageBody_length
  rw [State.pageWords_eq, List.getElem?_append_left (by rw [List.length_append, hbody, List.length_replicate]; omega),
    getElem?_append_at hbody, List.getElem?_replicate, if_pos (by omega)]

theorem State.pageWords_body {k : Nat} (h : k < 468) : s.pageWords[k]? = s.pageBody[k]? := by
  have hbody := s.pageBody_length
  rw [State.pageWords_eq, List.append_assoc, List.getElem?_append_left (by omega)]

theorem State.pageWords_header {j : Nat} (hj : j < 16) : s.pageWords[j]? = s.pageHeader[j]? := by
  rw [State.pageWords_body s (by omega), State.pageBody]
  simp only [List.append_assoc]
  exact List.getElem?_append_left (by rw [State.pageHeader_length]; exact hj)

/-- Where each part begins. -/
theorem State.pageBody_parts :
    (∀ k, k < 256 → s.pageBody[16 + k]? = (allLinks.map s.pageLink).flatten[k]?) ∧
    (∀ k, k < 16 → s.pageBody[272 + k]? = (allGroups.map s.pageGroup).flatten[k]?) ∧
    (∀ k, k < 64 → s.pageBody[288 + k]? = (allZones.map s.pageZone).flatten[k]?) ∧
    (∀ k, k < 96 → s.pageBody[352 + k]? = (allServices.map s.pageService).flatten[k]?) ∧
    (∀ k, k < 4 → s.pageBody[448 + k]? = (allInputs.map s.pageInput).flatten[k]?) ∧
    (∀ k, k < 16 → s.pageBody[452 + k]? = (allSources.map s.pageSource).flatten[k]?) := by
  have h0 := s.pageHeader_length
  have h1 := s.links_length
  have h2 := s.groups_length
  have h3 := s.zones_length
  have h4 := s.services_length
  have h5 := s.inputs_length
  unfold State.pageBody
  generalize s.pageHeader = a at *
  generalize (allLinks.map s.pageLink).flatten = b at *
  generalize (allGroups.map s.pageGroup).flatten = c at *
  generalize (allZones.map s.pageZone).flatten = d at *
  generalize (allServices.map s.pageService).flatten = e at *
  generalize (allInputs.map s.pageInput).flatten = f at *
  have hb : (a ++ b).length = 272 := by rw [List.length_append, h0, h1]
  have hc : (a ++ b ++ c).length = 288 := by rw [List.length_append, hb, h2]
  have hd : (a ++ b ++ c ++ d).length = 352 := by rw [List.length_append, hc, h3]
  have he : (a ++ b ++ c ++ d ++ e).length = 448 := by rw [List.length_append, hd, h4]
  have hf : (a ++ b ++ c ++ d ++ e ++ f).length = 452 := by rw [List.length_append, he, h5]
  refine ⟨fun k hk => ?_, fun k hk => ?_, fun k hk => ?_, fun k hk => ?_, fun k hk => ?_, fun k hk => getElem?_append_at hf k⟩
  · rw [List.getElem?_append_left (by omega), List.getElem?_append_left (by omega), List.getElem?_append_left (by omega),
      List.getElem?_append_left (by omega), List.getElem?_append_left (by omega), getElem?_append_at h0]
  · rw [List.getElem?_append_left (by omega), List.getElem?_append_left (by omega), List.getElem?_append_left (by omega),
      List.getElem?_append_left (by omega), getElem?_append_at hb]
  · rw [List.getElem?_append_left (by omega), List.getElem?_append_left (by omega), List.getElem?_append_left (by omega),
      getElem?_append_at hc]
  · rw [List.getElem?_append_left (by omega), List.getElem?_append_left (by omega), getElem?_append_at hd]
  · rw [List.getElem?_append_left (by omega), getElem?_append_at he]

theorem State.pageWords_link (l : LinkIx) {j : Nat} (hj : j < 16) : s.pageWords[16 + 16 * l.val + j]? = (s.pageLink l)[j]? := by
  have hl := l.isLt
  have hat : allLinks[l.val]? = some l := by revert l; decide
  rw [s.pageWords_body (by omega), Nat.add_assoc, s.pageBody_parts.1 _ (by omega), getElem?_flatten_map s.pageLink_length hat hj]

theorem State.pageWords_group (g : GroupIx) {j : Nat} (hj : j < 4) : s.pageWords[272 + 4 * g.val + j]? = (s.pageGroup g)[j]? := by
  have hg := g.isLt
  have hat : allGroups[g.val]? = some g := by revert g; decide
  obtain ⟨-, hpart, -⟩ := s.pageBody_parts
  rw [s.pageWords_body (by omega), Nat.add_assoc, hpart _ (by omega), getElem?_flatten_map s.pageGroup_length hat hj]

theorem State.pageWords_zone (z : ZoneIx) {j : Nat} (hj : j < 8) : s.pageWords[288 + 8 * z.val + j]? = (s.pageZone z)[j]? := by
  have hz := z.isLt
  have hat : allZones[z.val]? = some z := by revert z; decide
  obtain ⟨-, -, hpart, -⟩ := s.pageBody_parts
  rw [s.pageWords_body (by omega), Nat.add_assoc, hpart _ (by omega), getElem?_flatten_map s.pageZone_length hat hj]

theorem State.pageWords_service (v : ServiceIx) {j : Nat} (hj : j < 4) : s.pageWords[352 + 4 * v.val + j]? = (s.pageService v)[j]? := by
  have hv := v.isLt
  have hat : allServices[v.val]? = some v := by revert v; decide
  obtain ⟨-, -, -, hpart, -⟩ := s.pageBody_parts
  rw [s.pageWords_body (by omega), Nat.add_assoc, hpart _ (by omega), getElem?_flatten_map s.pageService_length hat hj]

theorem State.pageWords_input (i : InputIx) : s.pageWords[448 + i.val]? = (s.pageInput i)[0]? := by
  have hi := i.isLt
  have hat : allInputs[i.val]? = some i := by revert i; decide
  obtain ⟨-, -, -, -, hpart, -⟩ := s.pageBody_parts
  have hword := getElem?_flatten_map (f := s.pageInput) s.pageInput_length hat (j := 0) Nat.one_pos
  rw [Nat.one_mul, Nat.add_zero] at hword
  rw [s.pageWords_body (by omega), hpart _ hi, hword]

theorem State.pageWords_source (x : SourceIx) {j : Nat} (hj : j < 2) : s.pageWords[452 + 2 * x.val + j]? = (s.pageSource x)[j]? := by
  have hx := x.isLt
  have hat : allSources[x.val]? = some x := by revert x; decide
  obtain ⟨-, -, -, -, -, hpart⟩ := s.pageBody_parts
  rw [s.pageWords_body (by omega), Nat.add_assoc, hpart _ (by omega), getElem?_flatten_map s.pageSource_length hat hj]

end

end Sys2Proof.Machine
end

section
/-! The page a snapshot takes shows the state (10.5, R26, R57, R69, R91, R103, R121, R136, R152, R167, R177). -/

namespace Sys2Proof.Machine

open Sys2Proof

/-! ## Codes -/

theorem LinkState.code_eq (x : LinkState) : (x.code : Int) = position [.dark, .listen, .attach, .standby, .joining, .active, .quiescing, .fault] x := by
  cases x <;> rfl

theorem Purpose.code_eq (x : Purpose) : (x.code : Int) = position [.switch, .join] x := by cases x <;> rfl

theorem Standing.code_eq (x : Standing) : (x.code : Int) = position [.waiting, .accepted, .failed] x := by cases x <;> rfl

theorem ServiceState.code_eq (x : ServiceState) : (x.code : Int) = position [.free, .defined, .enabled] x := by cases x <;> rfl

theorem Kind.code_eq (x : Kind) : (x.code : Int) = position [.broadcast, .mobile, .rescue] x := by cases x <;> rfl

theorem Channel.code_eq (x : Channel) : (x.code : Int) = position [.a, .b] x := by cases x <;> rfl

theorem HoldState.code_eq (x : HoldState) : (x.code : Int) = position [.normal, .hold] x := by cases x <;> rfl

theorem LineMode.code_eq (x : LineMode) : (x.code : Int) = position [.off, .edge, .level] x := by cases x <;> rfl

/-- A coded field that is absent is 0. -/
theorem orZero_code {α : Type} {code : α → Nat} {place : α → Int} (h : ∀ a, (code a : Int) = place a) (x : Option α) :
    orZero (x.map code) = (x.map place).getD 0 := by
  cases x with
  | none => rfl
  | some a => exact h a

/-! ## The parts -/

section
variable {s : State} {p : Page} (hp : p.words = s.pageWords)
include hp

theorem State.pageHoldsHeader_of : s.pageHoldsHeader s.path.largest p := by
  have hword {j : Nat} {w : PostWord} (hj : j < 16) (hw : s.pageHeader[j]? = some w) : p.words[j]? = some w := by
    rw [hp, s.pageWords_header hj, hw]
  unfold State.pageHoldsHeader Page.holdsFields
  dsimp only
  rw [← HoldState.code_eq]
  refine ⟨hword (j := 0) (by omega) rfl, hword (j := 1) (by omega) rfl, hword (j := 2) (by omega) rfl, hword (j := 3) (by omega) rfl,
    hword (j := 4) (by omega) rfl, hword (j := 5) (by omega) rfl, hword (j := 6) (by omega) rfl, hword (j := 7) (by omega) rfl, ?_⟩
  rw [hp, s.pageWords_last]
  rfl

theorem State.pageHoldsLink_of (l : LinkIx) : s.pageHoldsLink l p := by
  have hword {j : Nat} {w : PostWord} (hj : j < 16) (hw : (s.pageLink l)[j]? = some w) : p.words[16 + 16 * l.val + j]? = some w := by
    rw [hp, s.pageWords_link l hj, hw]
  have hheld : (allTags.filter (fun t => ((s.link l).mgr.outstanding[t]).isSome)).length =
      (if (s.link l).mgr.outstanding[(0 : Tag)].isSome then 1 else 0) + (if (s.link l).mgr.outstanding[(1 : Tag)].isSome then 1 else 0) +
      (if (s.link l).mgr.outstanding[(2 : Tag)].isSome then 1 else 0) + (if (s.link l).mgr.outstanding[(3 : Tag)].isSome then 1 else 0) := by
    unfold allTags
    simp only [List.filter_cons, List.filter_nil]
    cases (s.link l).mgr.outstanding[(0 : Tag)].isSome <;> cases (s.link l).mgr.outstanding[(1 : Tag)].isSome <;>
      cases (s.link l).mgr.outstanding[(2 : Tag)].isSome <;> cases (s.link l).mgr.outstanding[(3 : Tag)].isSome <;> rfl
  unfold State.pageHoldsLink Page.holdsFields
  dsimp only
  refine ⟨⟨wireMask (s.link l).mgr.wires, masks_wireMask _, ?_⟩, hword (j := 1) (by omega) rfl, hword (j := 2) (by omega) rfl,
    hword (j := 3) (by omega) rfl, hword (j := 4) (by omega) rfl, hword (j := 5) (by omega) rfl, hword (j := 6) (by omega) rfl,
    hword (j := 7) (by omega) rfl, hword (j := 8) (by omega) rfl, hword (j := 9) (by omega) rfl, ?_,
    hword (j := 11) (by omega) rfl, hword (j := 12) (by omega) rfl, hword (j := 13) (by omega) rfl⟩
  · rw [← LinkState.code_eq, ← hheld]
    exact hword (j := 0) (by omega) rfl
  · have hpurpose := orZero_code (fun e : Exchange => Purpose.code_eq e.purpose) (s.link l).exchange
    have hstanding := orZero_code (fun e : Exchange => Standing.code_eq e.standing) (s.link l).exchange
    rw [← hpurpose, ← hstanding]
    exact hword (j := 10) (by omega) rfl

theorem State.pageHoldsGroup_of (g : GroupIx) : s.pageHoldsGroup g p := by
  have hword {j : Nat} {w : PostWord} (hj : j < 4) (hw : (s.pageGroup g)[j]? = some w) : p.words[272 + 4 * g.val + j]? = some w := by
    rw [hp, s.pageWords_group g hj, hw]
  refine ⟨hword (j := 0) (by omega) rfl, hword (j := 1) (by omega) rfl, _, masks_maskOf (xs := allLinks.filter (s.isMember g)) fun l => ?_,
    hword (j := 2) (by omega) rfl⟩
  rw [List.mem_filter, and_iff_right (mem_allLinks l), State.isMember, Bool.and_eq_true, beq_iff_eq, beq_iff_eq]

theorem State.pageHoldsService_of (v : ServiceIx) : s.pageHoldsService v p := by
  have hword {j : Nat} {w : PostWord} (hj : j < 4) (hw : (s.pageService v)[j]? = some w) : p.words[352 + 4 * v.val + j]? = some w := by
    rw [hp, s.pageWords_service v hj, hw]
  have hstarved (n : StreamName) : (s.service v).starvedOf n =
      (((s.service v).streams.get n).map (fun q => q.starved)).getD false := by
    unfold Service.starvedOf
    cases (s.service v).streams.get n <;> rfl
  have hbusy : (s.combiner.workList.any (fun b => b.service == v)) = decide (v ∈ s.combiner.workList.map (fun b => b.service)) := by
    rw [Bool.eq_iff_iff, List.any_eq_true, decide_eq_true_iff, List.mem_map]
    exact exists_congr fun b => by rw [beq_iff_eq]
  have hsupplied : ((s.service v).state == .enabled && (s.service v).ring.isSome) = true ↔
      (s.service v).state = .enabled ∧ (s.service v).ring.isSome = true := by rw [Bool.and_eq_true, beq_iff_eq]
  unfold State.pageHoldsService Page.holdsFields
  dsimp only
  refine ⟨?_, fun h => ⟨hword (j := 1) (by omega) ?_, hword (j := 2) (by omega) ?_⟩,
    fun h => ⟨hword (j := 1) (by omega) ?_, hword (j := 2) (by omega) ?_⟩⟩
  · rw [← ServiceState.code_eq, ← Kind.code_eq]
    have ha := hstarved .a
    have hb := hstarved .b
    change _ = ((s.service v).streams.a.map _).getD false at ha
    change _ = ((s.service v).streams.b.map _).getD false at hb
    rw [← ha, ← hb]
    exact hword (j := 0) (by omega) rfl
  · rw [← hbusy]
    exact congrArg (fun w => some (pageWord 4 1 w)) (if_pos (hsupplied.mpr h))
  · exact congrArg (fun w => some (pageWord 4 2 [w])) (if_pos (hsupplied.mpr h))
  · exact congrArg (fun w => some (pageWord 4 1 w)) (if_neg (fun e => h (hsupplied.mp e)))
  · exact congrArg (fun w => some (pageWord 4 2 [w])) (if_neg (fun e => h (hsupplied.mp e)))

theorem State.pageHoldsSources_of : s.pageHoldsSources p := by
  refine ⟨fun i => ?_, fun x => ?_⟩
  · unfold Page.holdsFields
    dsimp only
    rw [hp, s.pageWords_input i, ← LineMode.code_eq, ← Channel.code_eq]
    rfl
  · have hword {j : Nat} {w : PostWord} (hj : j < 2) (hw : (s.pageSource x)[j]? = some w) : p.words[452 + 2 * x.val + j]? = some w := by
      rw [hp, s.pageWords_source x hj, hw]
    unfold State.pageSource at hword
    refine ⟨fun q hq => ?_, fun hq => ?_⟩
    · rw [hq] at hword
      dsimp only at hword
      refine ⟨?_, hword (j := 1) (by omega) rfl⟩
      rw [← Channel.code_eq]
      exact hword (j := 0) (by omega) rfl
    · rw [hq] at hword
      exact ⟨hword (j := 0) (by omega) rfl, hword (j := 1) (by omega) rfl⟩

/-! ## The zones -/

omit hp in
theorem breakInChannel_eq_some {n : Option StreamName} {c : Channel} : breakInChannel n = some c ↔ n = some (match c with
    | .a => StreamName.a
    | .b => StreamName.b) := by
  cases n with
  | none => cases c <;> simp [breakInChannel]
  | some m => cases m <;> cases c <;> simp [breakInChannel]

omit hp in
theorem State.mem_breakIns {z : ZoneIx} {v : ServiceIx} {c : Channel} : (v, c) ∈ s.breakIns z ↔ breakInChannel (s.zone z).selection[v] = some c := by
  unfold State.breakIns
  rw [List.mem_filterMap]
  constructor
  · rintro ⟨v', -, hv⟩
    obtain ⟨c', hc, heq⟩ := Option.map_eq_some_iff.mp hv
    obtain ⟨rfl, rfl⟩ := Prod.mk.inj heq
    exact hc
  · exact fun h => ⟨v, mem_allServices v, by rw [h]; rfl⟩

omit hp in
theorem State.breakIns_sorted (z : ZoneIx) : (s.breakIns z).Pairwise (fun y y' => y.1 < y'.1) := by
  unfold State.breakIns
  refine List.Pairwise.filterMap _ (fun v v' hlt y hy y' hy' => ?_) allServices_sorted
  obtain ⟨c, -, rfl⟩ := Option.map_eq_some_iff.mp hy
  obtain ⟨c', -, rfl⟩ := Option.map_eq_some_iff.mp hy'
  exact hlt

theorem State.pageHoldsZone_of (hbreak : p.breakIns = Vector.ofFn (fun z : Fin 8 => s.breakIns z)) (z : ZoneIx) : s.pageHoldsZone z p := by
  have hword {j : Nat} {w : PostWord} (hj : j < 8) (hw : (s.pageZone z)[j]? = some w) : p.words[288 + 8 * z.val + j]? = some w := by
    rw [hp, s.pageWords_zone z hj, hw]
  have hmask {j : Nat} {f : ServiceIx → Bool} {P : ServiceIx → Prop} (hj : j < 8) (hw : (s.pageZone z)[j]? = some (servicesWord f))
      (h : ∀ v, f v = true ↔ P v) : p.holdsMask (288 + 8 * z.val + j) P := Page.holdsMask_of (hword hj hw) h
  have howner : ((((s.zone z).owner.bind (fun y => s.arbiter.parts[y])).map (fun q => position [.a, .b] q.channel)).getD 0 : Int) =
      orZero ((s.ownerChannel z).map (fun c => c.code)) := by
    unfold State.ownerChannel
    cases (s.zone z).owner with
    | none => rfl
    | some y =>
      dsimp only [Option.bind_some]
      cases s.arbiter.parts[y] with
      | none => rfl
      | some q => exact (Channel.code_eq q.channel).symm
  refine ⟨?_, hword (j := 1) (by omega) rfl, hmask (j := 2) (by omega) rfl fun v => List.contains_iff_mem, hmask (j := 3) (by omega) rfl
    fun v => List.contains_iff_mem, hmask (j := 4) (by omega) rfl fun v => ?_, hmask (j := 5) (by omega) rfl fun v => ?_,
    hmask (j := 6) (by omega) rfl fun v => ?_, ?_⟩
  · rw [howner]
    exact hword (j := 0) (by omega) rfl
  · rw [List.contains_iff_mem]
    cases (s.zone z).staged <;> simp
  · rw [List.contains_iff_mem]
    cases (s.zone z).staged <;> simp
  · cases (s.zone z).selection[v] with
    | none => simp [breakInChannel]
    | some n => cases n <;> simp [breakInChannel]
  · have hz : p.breakIns[z] = s.breakIns z := by
      rw [hbreak]
      simp
    rw [hz]
    exact ⟨State.breakIns_sorted z, fun v c => State.mem_breakIns.trans breakInChannel_eq_some⟩

/-! ## The page -/

omit hp in
theorem State.pageWords_zero {k : Nat} (h : 8 ≤ k ∧ k < 16 ∨ 16 ≤ k ∧ k < 272 ∧ 14 ≤ k % 16 ∨ 272 ≤ k ∧ k < 288 ∧ k % 4 = 3 ∨
    288 ≤ k ∧ k < 352 ∧ k % 8 = 7 ∨ 352 ≤ k ∧ k < 448 ∧ k % 4 = 3 ∨ 468 ≤ k ∧ k < 511) : s.pageWords[k]? = some (.bits 0) := by
  obtain h | h | h | h | h | h := h
  · rw [s.pageWords_header h.2]
    obtain ⟨h8, h16⟩ := h
    interval_cases k <;> rfl
  · have hk : k = 16 + 16 * ((k - 16) / 16) + k % 16 := by omega
    have hj : k % 16 = 14 ∨ k % 16 = 15 := by omega
    rw [hk, s.pageWords_link ⟨(k - 16) / 16, by omega⟩ (by omega)]
    obtain hj | hj := hj
    · rw [hj]; rfl
    · rw [hj]; rfl
  · have hk : k = 272 + 4 * ((k - 272) / 4) + 3 := by omega
    rw [hk, s.pageWords_group ⟨(k - 272) / 4, by omega⟩ (by omega)]
    rfl
  · have hk : k = 288 + 8 * ((k - 288) / 8) + 7 := by omega
    rw [hk, s.pageWords_zone ⟨(k - 288) / 8, by omega⟩ (by omega)]
    rfl
  · have hk : k = 352 + 4 * ((k - 352) / 4) + 3 := by omega
    rw [hk, s.pageWords_service ⟨(k - 352) / 4, by omega⟩ (by omega)]
    rfl
  · exact s.pageWords_unused h.1 h.2

theorem State.pageShows_of (hbreak : p.breakIns = Vector.ofFn (fun z : Fin 8 => s.breakIns z)) : s.pageShows s.path.largest p :=
  ⟨by rw [hp, s.pageWords_length], State.pageHoldsHeader_of hp, State.pageHoldsLink_of hp, State.pageHoldsGroup_of hp,
    State.pageHoldsZone_of hp hbreak, State.pageHoldsService_of hp, State.pageHoldsSources_of hp,
    fun k hk => by rw [hp]; exact State.pageWords_zero hk⟩

end

end Sys2Proof.Machine
end

section
/-! The reports of a superframe boundary (R80, R151, R158): the notices each service gives, in turn, and what they clear. -/

namespace Sys2Proof.Machine

open Sys2Proof

/-- R173: the notice unit once these notices have been generated, in turn. -/
def NoticeUnit.generateAll (u : NoticeUnit) (ns : List Notice) : NoticeUnit := ns.foldl (fun u n => u.generate n) u

theorem NoticeUnit.generateAll_append (u : NoticeUnit) (ns ms : List Notice) :
    u.generateAll (ns ++ ms) = (u.generateAll ns).generateAll ms := List.foldl_append

/-- State t is s once service v has given these notices and become x. -/
structure State.Reported (s t : State) (v : ServiceIx) (ns : List Notice) (x : Service) : Prop where
  frame : t = { s with services := t.services, notices := s.notices.generateAll ns }
  service (v' : ServiceIx) : t.service v' = if v = v' then x else s.service v'

theorem State.Reported.refl (s : State) (v : ServiceIx) : s.Reported s v [] (s.service v) where
  frame := rfl
  service v' := by
    split
    · next h => rw [h]
    · rfl

theorem State.Reported.same {s t : State} {v : ServiceIx} {ns : List Notice} {x : Service} (h : s.Reported t v ns x) : t.service v = x :=
  (h.service v).trans (if_pos rfl)

theorem State.Reported.modService {s t : State} {v : ServiceIx} {ns : List Notice} {x : Service} (h : s.Reported t v ns x)
    (f : Service → Service) : s.Reported (t.modService v f) v ns (f x) where
  frame := by
    have hframe : t.modService v f = { t with services := (t.modService v f).services } := rfl
    generalize (t.modService v f).services = services at hframe ⊢
    exact hframe.trans (congrArg (fun y : State => ({ y with services := services } : State)) h.frame :)
  service v' := by
    rw [State.modService_service_eq, h.same]
    split
    · rfl
    · next hv => rw [h.service, if_neg hv]

theorem State.Reported.notify {s t : State} {v : ServiceIx} {ns : List Notice} {x : Service} (h : s.Reported t v ns x)
    (n : Notice) : s.Reported (t.notify n) v (ns ++ [n]) x where
  frame := by
    have hframe : t.notify n = { t with notices := t.notices.generateAll [n] } := rfl
    have hnotices : t.notices = s.notices.generateAll ns := by rw [h.frame]
    rw [hframe, NoticeUnit.generateAll_append, hnotices]
    conv_lhs => rw [h.frame]
  service v' := h.service v'

/-- A pass in which each service reports. -/
theorem foldl_reported {f : State → ServiceIx → State} {N : ServiceIx → Service → List Notice} {F : Service → Service}
    (hf : ∀ (u : State) (v : ServiceIx), u.Reported (f u v) v (N v (u.service v)) (F (u.service v))) {vs : List ServiceIx} (hvs : vs.Nodup) (s : State) :
    vs.foldl f s = { s with
      services := (vs.foldl f s).services, notices := s.notices.generateAll (vs.map (fun v => N v (s.service v))).flatten } ∧
    ∀ v, (vs.foldl f s).service v = if v ∈ vs then F (s.service v) else s.service v := by
  induction vs generalizing s with
  | nil => exact ⟨rfl, fun v => (if_neg List.not_mem_nil).symm⟩
  | cons v rest ih =>
    obtain ⟨hv, hrest⟩ := List.nodup_cons.mp hvs
    have hfirst := hf s v
    obtain ⟨hframe, hservice⟩ := ih hrest (f s v)
    rw [List.foldl_cons]
    have hother {w : ServiceIx} (hw : v ≠ w) : (f s v).service w = s.service w := (hfirst.service w).trans (if_neg hw)
    have hmap : rest.map (fun w => N w ((f s v).service w)) = rest.map (fun w => N w (s.service w)) :=
      List.map_congr_left fun w hw => by rw [hother fun e => hv (e ▸ hw)]
    rw [hmap] at hframe
    generalize rest.foldl f (f s v) = t at hframe hservice ⊢
    refine ⟨?_, fun w => ?_⟩
    · rw [List.map_cons, List.flatten_cons, NoticeUnit.generateAll_append]
      have hnotices : (f s v).notices = s.notices.generateAll (N v (s.service v)) := by rw [hfirst.frame]
      rw [← hnotices]
      refine hframe.trans ?_
      generalize (f s v).notices.generateAll _ = notices
      rw [hfirst.frame]
    · rw [hservice]
      by_cases hw : v = w
      · subst hw
        rw [if_neg hv, if_pos List.mem_cons_self, hfirst.same]
      · rw [hother hw]
        simp only [List.mem_cons, Ne.symm hw, false_or]

theorem State.forServices_reported {f : State → ServiceIx → State} {N : ServiceIx → Service → List Notice} {F : Service → Service}
    (hf : ∀ (u : State) (v : ServiceIx), u.Reported (f u v) v (N v (u.service v)) (F (u.service v))) (s : State) :
    s.forServices f = { s with
      services := (s.forServices f).services, notices := s.notices.generateAll (allServices.map (fun v => N v (s.service v))).flatten } ∧
    ∀ v, (s.forServices f).service v = F (s.service v) := by
  obtain ⟨hframe, hservice⟩ := foldl_reported hf allServices_nodup s
  exact ⟨hframe, fun v => (hservice v).trans (if_pos (mem_allServices v))⟩

/-! ## The reports of the streams (R80) -/

/-- R80: whether a stream of the service has something to report. -/
def Service.hasNews (x : Service) : Bool := allStreams.any (fun n => match x.streams.get n with
  | some r => r.hasNews
  | none => false)

/-- R80: the STREAM notice of a service that was disabled. -/
def Service.disabledNotices (v : ServiceIx) (x : Service) : List Notice :=
  match x.report with
  | some r => [.stream v true r]
  | none => []

/-- R80: the STREAM notices of service v. -/
def Service.streamNotices (v : ServiceIx) (x : Service) : List Notice :=
  x.disabledNotices v ++ (if x.state = .enabled ∧ x.hasNews = true then [.stream v false x.reports] else [])

/-- R80: service x once its streams have been reported. -/
def Service.streamsReported (x : Service) : Service :=
  if x.state = .enabled ∧ x.hasNews = true then { x with
    report := none
    streams := { normal := x.streams.normal.map StreamRec.reported, a := x.streams.a.map StreamRec.reported
                 b := x.streams.b.map StreamRec.reported } }
  else { x with report := none }

theorem State.reportStreams_reported (s : State) (v : ServiceIx) :
    s.Reported (s.reportStreams v) v ((s.service v).streamNotices v) (s.service v).streamsReported := by
  unfold State.reportStreams
  extract_lets t x
  have hreported : s.Reported t v ((s.service v).disabledNotices v) { s.service v with report := none } := by
    unfold t Service.disabledNotices
    cases hr : (s.service v).report with
    | none =>
      have hsame : ({ s.service v with report := none } : Service) = s.service v := by rw [← hr]
      rw [hsame]
      exact .refl s v
    | some r => exact ((State.Reported.refl s v).notify _).modService _
  unfold x Service.streamNotices Service.streamsReported
  rw [hreported.same]
  split
  · next h =>
    have hnews : (s.service v).state = .enabled ∧ (s.service v).hasNews = true := h
    rw [if_pos hnews, if_pos hnews]
    exact (hreported.notify _).modService _
  · next h =>
    have hnews : ¬ ((s.service v).state = .enabled ∧ (s.service v).hasNews = true) := h
    rw [if_neg hnews, if_neg hnews, List.append_nil]
    exact hreported

theorem StreamRec.reported_of_no_news {r : StreamRec} (h : r.hasNews = false) : r.reported = r := by
  unfold StreamRec.hasNews at h
  rw [Bool.or_eq_false_iff, Bool.or_eq_false_iff, bne_eq_false_iff_eq] at h
  obtain ⟨⟨hincrements, hset⟩, hcleared⟩ := h
  cases r
  simp_all only [StreamRec.reported]

/-- R80: what the reports leave of a service. -/
theorem Service.streamsReported_frame (x : Service) : x.streamsReported = { x with report := none, streams := x.streamsReported.streams } ∧
    (x.state ≠ .enabled → x.streamsReported.streams = x.streams) ∧
    ∀ n r, x.state = .enabled → x.streams.get n = some r → x.streamsReported.streams.get n = some r.reported := by
  unfold Service.streamsReported
  by_cases hnews : x.state = .enabled ∧ x.hasNews = true
  · rw [if_pos hnews]
    refine ⟨rfl, fun h => (h hnews.1).elim, fun n r _ hr => ?_⟩
    cases n with
    | normal => exact congrArg (Option.map StreamRec.reported) hr
    | a => exact congrArg (Option.map StreamRec.reported) hr
    | b => exact congrArg (Option.map StreamRec.reported) hr
  · rw [if_neg hnews]
    refine ⟨rfl, fun _ => rfl, fun n r henabled hr => ?_⟩
    have hquiet : r.hasNews = false := by
      refine eq_false_of_ne_true fun hr' => hnews ⟨henabled, List.any_eq_true.mpr ⟨n, by cases n <;> decide, ?_⟩⟩
      rw [hr]
      exact hr'
    rw [StreamRec.reported_of_no_news hquiet]
    exact hr

/-! ## The reports of the combiner (R151) -/

/-- R151: the UPLINK notice of service v. -/
def Service.uplinkNotices (v : ServiceIx) (x : Service) : List Notice :=
  if x.sums.dropped ≠ 0 ∨ x.sums.clips ≠ 0 ∨ x.sums.disabled = true then [.uplink v x.sums] else []

theorem State.reportUplink_reported (s : State) (v : ServiceIx) :
    s.Reported (s.reportUplink v) v ((s.service v).uplinkNotices v) { s.service v with sums := .zero } := by
  unfold State.reportUplink Service.uplinkNotices
  dsimp only
  split
  · exact ((State.Reported.refl s v).notify _).modService _
  · exact (State.Reported.refl s v).modService _

end Sys2Proof.Machine
end

section
/-! SUPERFRAME_BOUNDARY: its counts, its reports and its snapshot (R41, R51, R80, R151, R158, R167, R177). -/

namespace Sys2Proof.Machine

open Sys2Proof

/-! ## The owned writes (R158) -/

/-- R158: nothing has been withheld. -/
def MemPath.noneOwned (m : MemPath) : Prop := m.ownedPage = 0 ∧ m.ownedRing = 0 ∧ ∀ v : ServiceIx, m.ownedUplink[v] = 0

theorem MemPath.ownedRings_isEmpty {m : MemPath} : m.ownedRings.isEmpty = true ↔ ∀ v : ServiceIx, m.ownedUplink[v] = 0 := by
  unfold MemPath.ownedRings
  rw [List.isEmpty_iff, List.filterMap_eq_nil_iff]
  refine ⟨fun h v => ?_, fun h v _ => if_pos (h v)⟩
  by_contra hv
  have := h v (mem_allServices v)
  rw [if_neg hv] at this
  cases this

section
variable {s : State}

theorem State.reportOwned_of_none (h : s.path.noneOwned) : s.reportOwned = { s with path := { s.path with
    ownedPage := 0, ownedRing := 0, ownedUplink := Vector.replicate 24 0 } } := by
  obtain ⟨hpage, hring, huplink⟩ := h
  have hempty : s.path.ownedUplink = Vector.replicate 24 0 := by
    ext i hi
    simpa using huplink ⟨i, hi⟩
  unfold State.reportOwned
  dsimp only
  rw [if_pos ⟨hpage, hring, MemPath.ownedRings_isEmpty.mpr huplink⟩]
  have hpath : s.path = { s.path with ownedPage := 0, ownedRing := 0, ownedUplink := Vector.replicate 24 0 } := by
    generalize s.path = m at *
    cases m
    simp_all only
  exact congrArg (fun m : MemPath => ({ s with path := m } : State)) hpath

theorem State.reportOwned_of_some (h : ¬ s.path.noneOwned) : s.reportOwned = { s with
    notices := s.notices.generate (.ownedWrite s.path.ownedPage s.path.ownedRing s.path.ownedRings s.path.firstOwned)
    path := { s.path with ownedPage := 0, ownedRing := 0, ownedUplink := Vector.replicate 24 0, firstOwned := none } } :=
  if_neg fun ⟨hpage, hring, hempty⟩ => h ⟨hpage, hring, MemPath.ownedRings_isEmpty.mp hempty⟩

/-- R158: the OWNED_WRITE of a boundary, if any, and the account it leaves. -/
theorem State.reportOwned_cases (s : State) : ∃ (owned : List Notice) (first : Option Nat), s.reportOwned = { s with
      notices := s.notices.generateAll owned
      path := { s.path with ownedPage := 0, ownedRing := 0, ownedUplink := Vector.replicate 24 0, firstOwned := first } } ∧
    (s.path.noneOwned → owned = [] ∧ first = s.path.firstOwned) ∧
    (¬ s.path.noneOwned → owned = [.ownedWrite s.path.ownedPage s.path.ownedRing s.path.ownedRings s.path.firstOwned] ∧ first = none) := by
  by_cases h : s.path.noneOwned
  · exact ⟨[], s.path.firstOwned, State.reportOwned_of_none h, fun _ => ⟨rfl, rfl⟩, fun hnot => (hnot h).elim⟩
  · exact ⟨[.ownedWrite s.path.ownedPage s.path.ownedRing s.path.ownedRings s.path.firstOwned], none, State.reportOwned_of_some h, fun hnone => (h hnone).elim, fun _ => ⟨rfl, rfl⟩⟩

end

/-! ## The work of a superframe boundary -/

/-- R41: link record x once its tracking count has been taken. -/
def Link.tracked (x : Link) : Link :=
  { x with rng := if x.mgr.state = .active ∧ x.rng.run = none ∧ x.rng.skipCount = false then
      { x.rng with trackCount := if x.rng.trackCount < 16 then x.rng.trackCount + 1 else x.rng.trackCount }
    else { x.rng with skipCount := false } }

/-- R51: a group once its hold has been counted. -/
theorem Group.countHold_eq (g : Group) : g.countHold = if g.counted = true then { g with counted := false } else
    { g with hold := g.hold.map (fun h => { h with count := if h.count < 100 then h.count + 1 else h.count }) } := rfl

/-- R80, R151: the notices of the services, in the order of log 19. -/
def State.serviceNotices (s : State) : List Notice :=
  (allServices.map (fun v => (s.service v).streamNotices v)).flatten ++ (allServices.map (fun v => (s.service v).uplinkNotices v)).flatten

/-- The counts and the reports of the services, before the OWNED_WRITE and the snapshot. -/
theorem State.superframeReports (s : State) : ∃ t : State, s.superframeWork = (t.reportOwned.snapshot).modTime (fun x => { x with superframeOwed := false }) ∧
    t = { s with links := t.links, groups := t.groups, services := t.services, notices := s.notices.generateAll s.serviceNotices } ∧
    (∀ g, t.group g = (s.group g).countHold) ∧ (∀ l, t.link l = (s.link l).tracked) ∧
    ∀ v, t.service v = { (s.service v).streamsReported with sums := .zero } := by
  unfold State.superframeWork State.serviceNotices
  extract_lets t1 t2 t3 t4
  obtain ⟨h1, hgroup⟩ := State.forGroups_records (s := s) (f := fun s g => s.modGroup g Group.countHold) (F := fun _ => Group.countHold)
    fun _ _ _ _ => rfl
  obtain ⟨h2, hlink⟩ := State.forLinks_records (s := t1) (f := State.countTracking) (F := fun _ => Link.tracked) fun u l _ _ => by
    have hrng (f : Ranging → Ranging) (h : (u.link l).tracked = { u.link l with rng := f (u.link l).rng }) :
        u.modRng l f = u.modLink l Link.tracked := State.modLink_congr h.symm
    unfold State.countTracking
    dsimp only
    split
    · next h => exact hrng _ (by rw [Link.tracked, if_pos h])
    · next h => exact hrng _ (by rw [Link.tracked, if_neg h])
  obtain ⟨h3, hstreams⟩ := State.forServices_reported State.reportStreams_reported t2
  obtain ⟨h4, huplink⟩ := State.forServices_reported (F := fun x => { x with sums := .zero }) State.reportUplink_reported t3
  have h1 : t1 = { s with groups := t1.groups } := h1
  have h2 : t2 = { t1 with links := t2.links } := h2
  have h3 : t3 = { t2 with
    services := t3.services, notices := t2.notices.generateAll (allServices.map (fun v => (t2.service v).streamNotices v)).flatten } := h3
  have h4 : t4 = { t3 with
    services := t4.services, notices := t3.notices.generateAll (allServices.map (fun v => (t3.service v).uplinkNotices v)).flatten } := h4
  have hgroup : ∀ g, t1.group g = (s.group g).countHold := hgroup
  have hlink : ∀ l, t2.link l = (t1.link l).tracked := hlink
  have hstreams : ∀ v, t3.service v = (t2.service v).streamsReported := hstreams
  have huplink : ∀ v, t4.service v = { t3.service v with sums := .zero } := huplink
  clear_value t4 t3 t2 t1
  have hservice (v : ServiceIx) : t2.service v = s.service v := by
    rw [h2, h1]
    rfl
  have huplinks : allServices.map (fun v => (t3.service v).uplinkNotices v) = allServices.map (fun v => (s.service v).uplinkNotices v) :=
    List.map_congr_left fun v _ => by
      rw [hstreams, hservice, (s.service v).streamsReported_frame.1]
      rfl
  rw [huplinks] at h4
  simp only [hservice] at h3 hstreams
  refine ⟨t4, rfl, ?_, fun g => ?_, fun l => ?_, fun v => by rw [huplink, hstreams]⟩
  · rw [NoticeUnit.generateAll_append]
    generalize (allServices.map (fun v => (s.service v).uplinkNotices v)).flatten = uplinks at *
    generalize (allServices.map (fun v => (s.service v).streamNotices v)).flatten = streams at *
    rw [h4, h3, h2, h1]
  · rw [← hgroup, h4, h3, h2]
    rfl
  · have htracked := hlink l
    have hbefore : t1.link l = s.link l := by rw [h1]; rfl
    rw [hbefore] at htracked
    rw [← htracked, h4, h3]
    rfl

/-- R177: the page a snapshot takes shows the state it leaves. -/
theorem State.snapshot_shows (s : State) (f : Timebase → Timebase) (hf : ∀ x, (f x).superframe = x.superframe ∧ (f x).block = x.block) :
    let t := s.snapshot.modTime f
    ∃ page, t.poster.page = some page ∧ page.handed = 0 ∧ t.pageShows s.path.largest page := by
  intro t
  obtain ⟨hsuperframe, hblock⟩ := hf s.time
  generalize hshown : ({ s with poster := { s.poster with
    pagesCut := if s.poster.page.isSome then s.poster.pagesCut + 1 else s.poster.pagesCut } } : State) = u
  have hu : u.time = s.time ∧ u.path = s.path := by rw [← hshown]; exact ⟨rfl, rfl⟩
  obtain ⟨htime, hpath⟩ := hu
  have ht : t = { u with
      time := f u.time
      poster := { u.poster with page := some { words := u.pageWords, handed := 0, breakIns := Vector.ofFn (fun z : Fin 8 => u.breakIns z) } }
      path := { u.path with largest := u.path.queue.length } } := by
    subst hshown
    rfl
  have hshows := State.pageShows_of (s := u)
    (p := { words := u.pageWords, handed := 0, breakIns := Vector.ofFn (fun z : Fin 8 => u.breakIns z) }) rfl rfl
  clear_value t
  have hhanded : ({ words := u.pageWords, handed := 0, breakIns := Vector.ofFn (fun z : Fin 8 => u.breakIns z) } : Page).handed = 0 := rfl
  generalize ({ words := u.pageWords, handed := 0, breakIns := Vector.ofFn (fun z : Fin 8 => u.breakIns z) } : Page) = page at ht hshows hhanded
  obtain ⟨hlength, hheader, hlinks, hgroups, hzones, hservices, hsources, hzero⟩ := hshows
  have hheld : t.pageHoldsHeader s.path.largest page := by
    unfold State.pageHoldsHeader at hheader ⊢
    rw [htime] at hheader
    rw [ht, ← hpath]
    dsimp only at hheader ⊢
    rw [htime, hsuperframe, hblock]
    exact hheader
  refine ⟨page, by rw [ht], hhanded, hlength, hheld, ?_⟩
  subst ht
  exact ⟨hlinks, hgroups, hzones, hservices, hsources, hzero⟩

end Sys2Proof.Machine
end

section
/-! SUPERFRAME_BOUNDARY settled: what its work makes of every record (R41, R51, R80, R151, R158, R177), and when it falls (log 2, log 4). -/

namespace Sys2Proof.Machine

open Sys2Proof

/-- R177, R167: what a snapshot makes of the part, but for the page it takes. -/
theorem State.snapshot_frame (s : State) : s.snapshot = { s with
    poster := { pagesCut := if s.poster.page.isSome then s.poster.pagesCut + 1 else s.poster.pagesCut, page := s.snapshot.poster.page }
    path := { s.path with largest := s.path.queue.length } } := rfl

/-- What the work of a superframe boundary makes of state s. -/
structure State.Reports (s t : State) (owned : List Notice) (first : Option Nat) : Prop where
  time : t.time = { s.time with superframeOwed := false }
  group (g : GroupIx) : t.group g = (s.group g).countHold
  link (l : LinkIx) : t.link l = (s.link l).tracked
  service (v : ServiceIx) : t.service v = { (s.service v).streamsReported with sums := .zero }
  notices : t.notices = s.notices.generateAll (s.serviceNotices ++ owned)
  page : ∃ page, t.poster.page = some page ∧ page.handed = 0 ∧ t.pageShows s.path.largest page
  pagesCut : t.poster.pagesCut = if s.poster.page.isSome then s.poster.pagesCut + 1 else s.poster.pagesCut
  path : t.path = { s.path with
    ownedPage := 0, ownedRing := 0, ownedUplink := Vector.replicate 24 0, firstOwned := first, largest := s.path.queue.length }
  rest : t.zones = s.zones ∧ t.inputs = s.inputs ∧ t.arbiter = s.arbiter ∧ t.combiner = s.combiner ∧ t.orders = s.orders ∧
    t.pending = s.pending

theorem State.superframeWork_reports (s : State) : ∃ (owned : List Notice) (first : Option Nat), s.Reports s.superframeWork owned first ∧
    (s.path.noneOwned → owned = [] ∧ first = s.path.firstOwned) ∧
    (¬ s.path.noneOwned → owned = [.ownedWrite s.path.ownedPage s.path.ownedRing s.path.ownedRings s.path.firstOwned] ∧ first = none) := by
  obtain ⟨t4, hwork, hframe, hgroup, hlink, hservice⟩ := s.superframeReports
  obtain ⟨owned, first, howned, hnone, hsome⟩ := t4.reportOwned_cases
  have hpath : t4.path = s.path := by rw [hframe]
  rw [hpath] at hnone hsome howned
  refine ⟨owned, first, ?_, hnone, hsome⟩
  have hpage := t4.reportOwned.snapshot_shows (fun x => { x with superframeOwed := false }) fun _ => ⟨rfl, rfl⟩
  have hsnapshot := t4.reportOwned.snapshot_frame
  rw [hwork]
  generalize t4.reportOwned = t5 at *
  have hlargest : t5.path.largest = s.path.largest := by rw [howned]
  dsimp only at hpage
  rw [hlargest] at hpage
  generalize t5.snapshot = t6 at *
  generalize hns : s.serviceNotices = ns at *
  have h6 : t6 = { s with
      links := t4.links, groups := t4.groups, services := t4.services, notices := (s.notices.generateAll ns).generateAll owned
      poster := { pagesCut := if s.poster.page.isSome then s.poster.pagesCut + 1 else s.poster.pagesCut, page := t6.poster.page }
      path := { s.path with ownedPage := 0, ownedRing := 0, ownedUplink := Vector.replicate 24 0, firstOwned := first
                            largest := s.path.queue.length } } := by
    generalize t6.poster.page = page at hsnapshot ⊢
    rw [hsnapshot, howned, hframe]
  refine ⟨?_, fun g => ?_, fun l => ?_, fun v => ?_, ?_, hpage, ?_, ?_, ?_⟩
  · rw [h6]; rfl
  · rw [← hgroup, h6]; rfl
  · rw [← hlink, h6]; rfl
  · rw [← hservice, h6]; rfl
  · rw [h6, hns, NoticeUnit.generateAll_append]; rfl
  · rw [h6]; rfl
  · rw [h6]; rfl
  · rw [h6]
    exact ⟨rfl, rfl, rfl, rfl, rfl, rfl⟩

/-- What stands of the part where a boundary begins with no superframe work owed. -/
theorem State.beginBoundary_poster {s : State} (howed : s.time.superframeOwed = false) : s.beginBoundary.poster = s.poster := by
  have hsettle : s.Edits s.settle := by
    unfold State.settle
    extract_lets t1 t2 t3 t4
    have h1 : t1 = s := if_neg (ne_true_of_eq_false howed)
    have h2 : t1.Edits t2 := .forLinks State.settleLink_edits t1
    have h3 : t2.Edits t3 := .forGroups State.holdExpiryIfDue_edits t2
    have h4 : t3.Edits t4 := .forInputs State.registeredChangeIfDue_edits t3
    have h5 := (State.Edits.forZones State.planSwitchIfDue_edits t4).trans (State.joinSwitchAll_edits _)
    exact h1 ▸ h2.trans (h3.trans (h4.trans h5))
  have hdeparting : (s.settle.modTime Timebase.next).Edits s.beginBoundary := State.Edits.forLinks State.departing_edits _
  obtain ⟨-, -, -, hfirst, -⟩ := hsettle.frame
  generalize s.settle = u at *
  obtain ⟨-, -, -, hsecond, -⟩ := hdeparting.frame
  exact hsecond.trans hfirst

theorem Link.tracked_rng (x : Link) :
    (x.mgr.state = .active → x.rng.run = none → x.rng.skipCount = false → x.tracked.rng =
      { x.rng with trackCount := if x.rng.trackCount < 16 then x.rng.trackCount + 1 else x.rng.trackCount }) ∧
    ((x.mgr.state ≠ .active ∨ x.rng.run.isSome = true ∨ x.rng.skipCount = true) → x.tracked.rng = { x.rng with skipCount := false }) := by
  refine ⟨fun hactive hrun hskip => if_pos ⟨hactive, hrun, hskip⟩, fun h => if_neg fun ⟨hactive, hrun, hskip⟩ => ?_⟩
  rw [hrun, hskip] at h
  obtain h | h | h := h
  · exact h hactive
  · cases h
  · cases h

/-- R80, R151: what the reports leave of a service. -/
theorem Service.reported_fields {x y : Service} (h : y = { x.streamsReported with sums := .zero }) :
    y.state = x.state ∧ y.totals = x.totals ∧ y.report = none ∧ y.droppedBefore = x.droppedBefore ∧ y.lastAppended = x.lastAppended ∧
    y.sums = { appended := 0, dropped := 0, clips := 0, partials := 0, disabled := false } ∧ (x.state ≠ .enabled → y.streams = x.streams) ∧
    ∀ n r, x.state = .enabled → x.streams.get n = some r → y.streams.get n = some
      { r with increments := ⟨0, 0, 0, 0, 0, 0⟩, starvedSet := false, starvedCleared := false } := by
  obtain ⟨hframe, hidle, hreported⟩ := x.streamsReported_frame
  generalize x.streamsReported = w at *
  subst h
  rw [hframe]
  exact ⟨rfl, rfl, rfl, rfl, rfl, rfl, hidle, hreported⟩

/-- Settles O41: the work of the boundary record by record (`superframeWork_reports`), begun where it falls and not owed yet. -/
theorem superframeBoundaryReportsAndSnapshots : Obligations.SuperframeBoundaryReportsAndSnapshots := by
  intro s hreset
  have hexec : exec .superframeBoundary s = .next s.superframeBoundary := State.running_of_released _ _ hreset
  refine ⟨?_, fun howed hlater => ?_⟩
  · intro hfalls b zero news account streamNotices uplinkNotices rings none_
    have hwork : s.superframeBoundary = b.superframeWork := by
      unfold State.superframeBoundary
      by_cases howed : s.time.superframeOwed = true
      · have hb : b = s := if_pos howed
        rw [if_pos howed, hb]
      · have hb : b = s.beginBoundary := if_neg howed
        rw [if_neg howed, if_pos (hfalls.resolve_left howed), hb]
    have hbegun : s.time.superframeOwed = false → b = s.beginBoundary := fun h => if_neg (ne_true_of_eq_false h)
    have hbefore : b.poster = s.poster ∧ b.orders = s.orders ∧ b.pending = s.pending := by
      by_cases howed : s.time.superframeOwed = true
      · rw [show b = s from if_pos howed]
        exact ⟨rfl, rfl, rfl⟩
      · have howed := eq_false_of_ne_true howed
        obtain ⟨⟨horders, hpending, -⟩, -⟩ := s.beginBoundary_rest
        rw [hbegun howed]
        exact ⟨State.beginBoundary_poster howed, horders, hpending⟩
    obtain ⟨hposter, horders, hpending⟩ := hbefore
    have hstream : streamNotices = fun v => (b.service v).streamNotices v := rfl
    have huplink : uplinkNotices = fun v => (b.service v).uplinkNotices v := rfl
    have hrings : rings = b.path.ownedRings := rfl
    clear_value b streamNotices uplinkNotices rings
    obtain ⟨owned, first, ⟨htime, hgroup, hlink, hservice, hnotices, hpage, hcut, hpath, hrest⟩, hnone, hsome⟩ := b.superframeWork_reports
    rw [hexec, hwork]
    generalize b.superframeWork = t at *
    obtain ⟨hzones, hinputs, harbiter, hcombiner, horders', hpending'⟩ := hrest
    refine ⟨t, owned, rfl, htime, fun howed => ?_, fun g => (hgroup g).trans (b.group g).countHold_eq, fun l => ?_,
      fun h => (hnone h).1, fun h => ?_, ?_, fun v => Service.reported_fields (hservice v), hpage, ?_, ?_,
      hzones, hinputs, harbiter, hcombiner, horders'.trans horders, hpending'.trans hpending⟩
    · obtain ⟨-, hindex⟩ := hfalls.resolve_left (ne_true_of_eq_false howed)
      obtain ⟨-, htimeBegun⟩ := s.beginBoundary_rest
      rw [htime, hbegun howed, htimeBegun, if_pos hindex, if_pos hindex]
    · obtain ⟨hcounts, hstands⟩ := (b.link l).tracked_rng
      rw [hlink l]
      exact ⟨rfl, rfl, rfl, rfl, rfl, rfl, rfl, hcounts, hstands⟩
    · rw [hrings]
      exact (hsome h).1
    · rw [hnotices, hstream, huplink]
      rfl
    · rw [hcut, hposter]
    · rw [hpath]
      by_cases h : none_
      · rw [if_pos h, (hnone h).2]
      · rw [if_neg h, (hsome h).2]
  · rw [hexec, State.superframeBoundary, if_neg (ne_true_of_eq_false howed), if_neg]
    rintro ⟨hopen, hindex⟩
    exact hlater.elim (fun h => ne_true_of_eq_false hopen h) (fun h => h hindex)

end Sys2Proof.Machine
end

section
/-! How a block boundary begins: nothing is settled of a quiet state (log 3), and every transmit queue leaves in its frame (R18). -/

namespace Sys2Proof.Machine

open Sys2Proof

/-! ## A quiet state has nothing to settle -/

section
variable {s : State} {l : LinkIx}

theorem State.modRng_of_fixed {f : Ranging → Ranging} (h : f (s.link l).rng = (s.link l).rng) : s.modRng l f = s :=
  State.modLink_of_fixed (by rw [h])

theorem State.forLinks_of_fixed {f : State → LinkIx → State} (h : ∀ l, f s l = s) : s.forLinks f = s := List.foldl_fixed' h allLinks

theorem State.regovernChanged_self : s.regovernChanged s = s := State.forLinks_of_fixed fun _ => if_pos rfl

theorem RangingRun.windowOpen_eq_false {r : RangingRun} {b : Seq16} (hsent : r.marksSent ≤ 4)
    (h : ∀ n : Fin 4, r.marksSent = n.val + 1 → b = r.firstBlock + BitVec.ofNat 16 n.val → r.roundTrips[n] ≠ none) :
    r.windowOpen b = false := by
  unfold RangingRun.windowOpen
  split
  · rfl
  · next m hm =>
    have hlt : m < 4 := by omega
    rw [Bool.and_eq_false_iff, beq_eq_false_iff_ne]
    by_cases hb : b = r.firstBlock + BitVec.ofNat 16 m
    · refine Or.inr ?_
      have hsome := h ⟨m, hlt⟩ hm hb
      rw [Vector.getElem?_eq_getElem hlt]
      exact Option.isNone_eq_false_iff.mpr (Option.isSome_iff_ne_none.mpr hsome)
    · exact Or.inl hb

theorem State.settleLink_of_quiet (h : s.quiet) (l : LinkIx) : s.settleLink l = s := by
  obtain ⟨-, hlinks, -⟩ := h
  obtain ⟨hsettle, hattach, hdebounce, hhello, hquiesce, hdeadlines, hwindow, hsent, hmarker, htracking, -⟩ := hlinks l
  have hsettlePeriod : s.settlePeriodEndIfDue l = s := State.modMgr_of_fixed (if_neg hsettle)
  have hattached : s.attachIfDue l = s := State.modMgr_of_fixed (if_neg hattach)
  have hdebounced : s.debounceEndIfDue l = s := State.modMgr_of_fixed (if_neg hdebounce)
  have hwaited : s.helloWaitExpiryIfDue l = s := if_neg hhello
  have hquiesced : s.quiescingEndIfDue l = s := if_neg fun ⟨hdue, hstate, _⟩ => hquiesce ⟨hdue, hstate⟩
  have hexpired : s.expiredTags l = [] := List.eq_nil_iff_forall_not_mem.mpr fun g hg => by
    obtain ⟨o, b, ho, hb, hlate⟩ := State.mem_expiredTags.mp hg
    have hearly := hdeadlines g o b ho hb
    omega
  have hdue : s.deadlinesIfDue l = s := if_pos (by rw [hexpired]; rfl)
  have hecho : s.echoWindowCloseIfDue l = s := by
    unfold State.echoWindowCloseIfDue
    split
    · next r hr => exact if_neg (ne_true_of_eq_false (RangingRun.windowOpen_eq_false (hsent r hr) fun n => hwindow r n hr))
    · rfl
  have htrack : s.trackWindowCloseIfDue l = s := by
    refine State.modRng_of_fixed ?_
    cases hm : (s.link l).rng.marker with
    | none => rw [Option.map_none, ← hm]
    | some y =>
      have hopen := hmarker y hm
      rw [Option.map_some, ← hopen, ← hm]
  have hmark : s.trackingMarkIfDue l = s := by
    refine if_neg fun hdue => htracking ?_
    unfold State.trackingDue at hdue
    rw [Bool.and_eq_true, Bool.and_eq_true, beq_iff_eq, Option.isNone_iff_eq_none, decide_eq_true_iff] at hdue
    exact ⟨hdue.1.1, hdue.1.2, hdue.2⟩
  unfold State.settleLink
  dsimp only
  rw [hsettlePeriod, hattached, hdebounced, hwaited, hquiesced, hdue, hecho, htrack, hmark]

theorem State.joinSwitchAll_of_quiet (h : s.quiet) : s.joinSwitchAll = s := by
  obtain ⟨-, hlinks, -⟩ := h
  have hnone (l : LinkIx) : s.joinDue l = false := by
    obtain ⟨-, -, -, -, -, -, -, -, -, -, hjoin⟩ := hlinks l
    refine eq_false_of_ne_true fun hdue => hjoin ?_
    unfold State.joinDue at hdue
    rw [Bool.and_eq_true, Bool.and_eq_true, beq_iff_eq] at hdue
    obtain ⟨⟨hjoining, -⟩, hexchange⟩ := hdue
    cases hx : (s.link l).exchange with
    | none => rw [hx] at hexchange; cases hexchange
    | some x =>
      rw [hx, Bool.and_eq_true, beq_iff_eq, beq_iff_eq] at hexchange
      exact ⟨hjoining, x, rfl, hexchange⟩
  have hswitch : s.forLinks State.joinStep = s := State.forLinks_of_fixed fun l => if_neg (ne_true_of_eq_false (hnone l))
  rw [State.joinSwitchAll_eq, hswitch, State.regovernChanged_self]

theorem State.settle_of_quiet (h : s.quiet) : s.settle = s := by
  have hlinks : s.forLinks State.settleLink = s := State.forLinks_of_fixed (State.settleLink_of_quiet h)
  have hjoins := State.joinSwitchAll_of_quiet h
  obtain ⟨howed, -, hholds, hchanges, hstaged⟩ := h
  have hgroups : s.forGroups State.holdExpiryIfDue = s := by
    refine List.foldl_fixed' (fun g => if_neg fun hexpires => ?_) allGroups
    unfold Group.holdExpires at hexpires
    split at hexpires
    · next hold hg =>
      have hearly := hholds g hold hg
      have hlate := of_decide_eq_true hexpires
      omega
    · cases hexpires
  have hinputs : s.forInputs State.registeredChangeIfDue = s :=
    List.foldl_fixed' (fun i => if_neg (ne_true_of_eq_false (hchanges i))) allInputs
  have hzones : s.forZones State.planSwitchIfDue = s := by
    refine List.foldl_fixed' (fun z => ?_) allZones
    unfold State.planSwitchIfDue
    split
    · next p hp => exact if_neg (hstaged z p hp)
    · rfl
  unfold State.settle
  dsimp only
  rw [if_neg (ne_true_of_eq_false howed), hlinks, hgroups, hinputs, hzones, hjoins]

end

/-! ## A boundary begins -/

section
variable (s : State)

theorem State.departing_records : s.forLinks (fun s l => s.modMgr l Manager.departing) =
    { s with links := (s.forLinks (fun s l => s.modMgr l Manager.departing)).links } ∧
    ∀ l, (s.forLinks (fun s l => s.modMgr l Manager.departing)).link l = { s.link l with mgr := (s.link l).mgr.departing } :=
  State.forLinks_records (F := fun _ x => { x with mgr := x.mgr.departing }) fun _ _ _ _ => rfl

/-- R18: what the beginning of a boundary makes of what has been settled. -/
theorem State.beginBoundary_records : s.beginBoundary = { s.settle with links := s.beginBoundary.links, time := s.settle.time.next } ∧
    ∀ l, s.beginBoundary.link l = { s.settle.link l with mgr := (s.settle.link l).mgr.departing } := by
  unfold State.beginBoundary
  generalize s.settle = u
  obtain ⟨hframe, hlink⟩ := (u.modTime Timebase.next).departing_records
  generalize (u.modTime Timebase.next).forLinks (fun s l => s.modMgr l Manager.departing) = t at *
  exact ⟨hframe, hlink⟩

theorem State.beginBoundary_of_quiet (h : s.quiet) :
    (∀ l, s.beginBoundary.link l = { s.link l with mgr := { (s.link l).mgr with leaving := (s.link l).mgr.txQueue, txQueue := [] } }) ∧
    s.beginBoundary = { s with
      links := s.beginBoundary.links
      time := { block := s.time.block + 1, superframe := if s.time.index = 9 then s.time.superframe + 1 else s.time.superframe
                index := if s.time.index = 9 then 0 else s.time.index + 1, blockOwed := true
                superframeOwed := s.time.index == 9 } } := by
  obtain ⟨hframe, hlink⟩ := s.beginBoundary_records
  rw [State.settle_of_quiet h] at hframe hlink
  exact ⟨hlink, hframe⟩

end

end Sys2Proof.Machine
end

section
/-! The delayed block of a contributor (R139) and its energy (R144): what the stores hold, and sums over all samples. -/

namespace Sys2Proof.Machine

open Sys2Proof

/-! ## Stores in the one form -/

section
variable {x : Samples} {lo : Nat}

theorem samplesFrom_sorted (h : samplesFrom lo x = true) : (x.map (fun e => e.1)).Pairwise (· < ·) ∧ ∀ e ∈ x, lo ≤ e.1 := by
  induction x generalizing lo with
  | nil => exact ⟨List.Pairwise.nil, fun e he => nomatch he⟩
  | cons e rest ih =>
    rw [samplesFrom, Bool.and_eq_true, Bool.and_eq_true, decide_eq_true_iff] at h
    obtain ⟨⟨hlo, -⟩, hrest⟩ := h
    obtain ⟨hsorted, habove⟩ := ih hrest
    refine ⟨List.Pairwise.cons (fun k hk => ?_) hsorted, fun e' he' => ?_⟩
    · obtain ⟨e', he', rfl⟩ := List.mem_map.mp hk
      exact habove e' he'
    · obtain rfl | he' := List.mem_cons.mp he'
      · exact hlo
      · have h1 := habove e' he'
        omega

theorem samplesWf_nodup (h : samplesWf x = true) : (x.map (fun e => e.1)).Nodup :=
  (samplesFrom_sorted h).1.imp fun hlt => Nat.ne_of_lt hlt

theorem sampleAt_of_mem (h : samplesFrom lo x = true) {e : Nat × Word} (he : e ∈ x) : sampleAt x e.1 = e.2 ∧ e.2 ≠ 0 := by
  induction x generalizing lo with
  | nil => cases he
  | cons e' rest ih =>
    have hall := h
    rw [samplesFrom, Bool.and_eq_true, Bool.and_eq_true, bne_iff_ne] at h
    obtain ⟨⟨-, hne⟩, hrest⟩ := h
    obtain rfl | he := List.mem_cons.mp he
    · exact ⟨if_pos rfl, hne⟩
    · obtain ⟨hvalue, hnonzero⟩ := ih hrest he
      have habove := (samplesFrom_sorted hrest).2 e he
      exact ⟨(if_neg (by omega)).trans hvalue, hnonzero⟩

/-- A store in the one form lists exactly the samples that are not zero. -/
theorem mem_listed (h : samplesWf x = true) (n : Nat) : n ∈ x.map (fun e => e.1) ↔ sampleAt x n ≠ 0 := by
  refine ⟨fun hn => ?_, fun hn => by_contra fun hout => hn (sampleAt_of_unlisted hout)⟩
  obtain ⟨e, he, rfl⟩ := List.mem_map.mp hn
  obtain ⟨hvalue, hne⟩ := sampleAt_of_mem h he
  rw [hvalue]
  exact hne

end

/-- A sum over the listed places is the sum over all of them, where the others give zero. -/
theorem sum_map_listed {ks : List Nat} (hnodup : ks.Nodup) {N : Nat} (hlt : ∀ k ∈ ks, k < N) {f : Nat → Nat} (hf : ∀ n, n ∉ ks → f n = 0) :
    (ks.map f).sum = ((List.range N).map f).sum := by
  rw [← List.sum_toFinset f hnodup, ← List.sum_toFinset f List.nodup_range]
  refine Finset.sum_subset (fun k hk => ?_) fun n _ hn => hf n fun hk => hn (List.mem_toFinset.mpr hk)
  exact List.mem_toFinset.mpr (List.mem_range.mpr (hlt k (List.mem_toFinset.mp hk)))

/-- R144: the power of a sample. -/
def samplePower (w : Word) : Nat := (sampleI w ^ 2 + sampleQ w ^ 2).toNat

theorem blockEnergy_eq {x : Samples} (h : samplesWf x = true) {w : Nat} (hlt : ∀ n, sampleAt x n ≠ 0 → n < 1600 * w) :
    blockEnergy x w = ((List.range (1600 * w)).map (fun n => samplePower (sampleAt x n))).sum / (1600 * w) := by
  have hfold (acc : Nat) (y : Samples) :
      y.foldl (fun acc e => acc + ((sampleI e.2) ^ 2 + (sampleQ e.2) ^ 2).toNat) acc = acc + (y.map (fun e => samplePower e.2)).sum := by
    induction y generalizing acc with
    | nil => rfl
    | cons e rest ih =>
      rw [List.foldl_cons, ih, List.map_cons, List.sum_cons, Nat.add_assoc]
      rfl
  have hlisted : x.map (fun e => samplePower e.2) = (x.map (fun e => e.1)).map (fun n => samplePower (sampleAt x n)) := by
    rw [List.map_map]
    exact List.map_congr_left fun e he => congrArg samplePower (sampleAt_of_mem h he).1.symm
  unfold blockEnergy
  rw [hfold, Nat.zero_add, hlisted, sum_map_listed (samplesWf_nodup h) fun n hn => hlt n ((mem_listed h n).mp hn)]
  intro n hn
  rw [sampleAt_of_unlisted hn]
  rfl

/-! ## Delayed blocks (R139) -/

section
variable {before now : Samples} {q first w lane n : Nat} {pos : Int}

theorem mem_reachedBy : n ∈ reachedBy q first w pos lane ↔ (first ≤ lane ∧ lane < first + w) ∧
    ∃ j : Int, (j = pos + q ∨ j = pos + q + 1) ∧ 0 ≤ j ∧ j < 1600 ∧ w * j.toNat + (lane - first) = n := by
  unfold reachedBy
  split
  · next hin =>
    simp only [List.mem_map, List.mem_filter, List.mem_cons, List.not_mem_nil, or_false, Bool.and_eq_true, decide_eq_true_iff, hin,
      true_and, and_assoc]
  · next hout => simp [hout]

/-- A sample of a lane that is not zero is listed, in the block it falls in. -/
theorem listed_of_laneSample (h : laneSample before now lane pos ≠ 0) :
    (0 ≤ pos ∧ ∃ e ∈ now, e.1 = 32 * pos.toNat + lane) ∨ (pos < 0 ∧ ∃ e ∈ before, e.1 = 32 * (pos + 1600).toNat + lane) := by
  have hlisted {x : Samples} {m : Nat} (hm : sampleAt x m ≠ 0) : ∃ e ∈ x, e.1 = m := by
    by_contra hnone
    exact hm (sampleAt_of_unlisted fun hin => hnone (List.mem_map.mp hin))
  unfold laneSample at h
  split at h
  · next hpos => exact .inl ⟨hpos, hlisted h⟩
  · next hneg => exact .inr ⟨by omega, hlisted h⟩

/-- R139: the places of a delayed block reach every sample that a listed one contributes to. -/
theorem mem_places (hw : 1 ≤ w) (hfirst : first + w ≤ 32) (hq : q ≤ 204) (hn : n < 1600 * w) {back : Nat} (hback : back = q ∨ back = q + 1)
    (h : laneSample before now (first + n % w) ((n / w : Nat) - (back : Int)) ≠ 0) :
    n ∈ (before.map (fun e => reachedBy q first w ((e.1 / 32 : Nat) - 1600) (e.1 % 32))).flatten ++
      (now.map (fun e => reachedBy q first w (e.1 / 32 : Nat) (e.1 % 32))).flatten := by
  have hmod : n % w < w := Nat.mod_lt _ hw
  have hdiv : n / w < 1600 := Nat.div_lt_of_lt_mul (by rw [Nat.mul_comm]; exact hn)
  have hat : w * (n / w) + n % w = n := Nat.div_add_mod n w
  generalize n / w = j at *
  generalize n % w = i at *
  have hreached {pos : Int} (hpos : pos = (j : Int) - (back : Int)) : n ∈ reachedBy q first w pos (first + i) := by
    refine mem_reachedBy.mpr ⟨⟨by omega, by omega⟩, (j : Int), by omega, by omega, by omega, ?_⟩
    rw [Int.toNat_natCast, Nat.add_sub_cancel_left, hat]
  rw [List.mem_append, List.mem_flatten, List.mem_flatten]
  obtain ⟨hpos, e, he, hindex⟩ | ⟨hneg, e, he, hindex⟩ := listed_of_laneSample h
  · refine Or.inr ⟨_, List.mem_map.mpr ⟨e, he, rfl⟩, ?_⟩
    have hlane : e.1 % 32 = first + i := by omega
    rw [hlane]
    exact hreached (by omega)
  · refine Or.inl ⟨_, List.mem_map.mpr ⟨e, he, rfl⟩, ?_⟩
    have hlane : e.1 % 32 = first + i := by omega
    rw [hlane]
    exact hreached (by omega)

theorem onComponents_interpolate_zero (r : Nat) : onComponents (interpolate r) 0 0 = 0 := by
  have h : interpolate r 0 0 = 0 := by simp [interpolate]
  show packSample (interpolate r (sampleI 0) (sampleI 0)) (interpolate r (sampleQ 0) (sampleQ 0)) = 0
  rw [show sampleI 0 = 0 from rfl, show sampleQ 0 = 0 from rfl, h]
  rfl

theorem delayedBlock_wf (before now : Samples) (k first w : Nat) : samplesWf (delayedBlock before now k first w) = true :=
  samplesWf_buildSamples ..

/-- R139: a delayed block holds the delayed sample of each place. -/
theorem sampleAt_delayedBlock {k : Nat} (hw : 1 ≤ w) (hfirst : first + w ≤ 32) (hk : k ≤ 16383) (hn : n < 1600 * w) :
    sampleAt (delayedBlock before now k first w) n = delayedSample before now k (first + n % w) (n / w) := by
  unfold delayedBlock
  rw [sampleAt_buildSamples]
  split
  · rfl
  · next hout =>
    have hzero (back : Nat) (hback : back = k / 80 ∨ back = k / 80 + 1) :
        laneSample before now (first + n % w) ((n / w : Nat) - (back : Int)) = 0 :=
      by_contra fun h => hout (mem_places hw hfirst (by omega) hn hback h)
    have hnext : ((n / w : Nat) : Int) - (k / 80 : Nat) - 1 = (n / w : Nat) - ((k / 80 + 1 : Nat) : Int) := by omega
    unfold delayedSample
    rw [hnext, hzero _ (.inl rfl), hzero _ (.inr rfl), onComponents_interpolate_zero]

theorem delayedBlock_lt {k : Nat} (h : sampleAt (delayedBlock before now k first w) n ≠ 0) : n < 1600 * w := by
  unfold delayedBlock at h
  rw [sampleAt_buildSamples] at h
  split at h
  · next hin =>
    have hlt (pos : Int) (lane : Nat) (hn : n ∈ reachedBy (k / 80) first w pos lane) : n < 1600 * w := by
      obtain ⟨⟨hlow, hhigh⟩, j, -, hj0, hj, rfl⟩ := mem_reachedBy.mp hn
      have hmul : w * j.toNat ≤ w * 1599 := Nat.mul_le_mul_left w (by omega)
      omega
    obtain hin | hin := List.mem_append.mp hin
    · obtain ⟨xs, hxs, hn⟩ := List.mem_flatten.mp hin
      obtain ⟨e, -, rfl⟩ := List.mem_map.mp hxs
      exact hlt _ _ hn
    · obtain ⟨xs, hxs, hn⟩ := List.mem_flatten.mp hin
      obtain ⟨e, -, rfl⟩ := List.mem_map.mp hxs
      exact hlt _ _ hn
  · exact (h rfl).elim

end

/-! ## Contributions (R139, R144) -/

section
variable {s : State} {r : BlockRecord} {c : LinkIx × Nat} {w n : Nat}

theorem State.contribution_wf : samplesWf (s.contribution r c.1 c.2 w) = true := by
  unfold State.contribution
  split
  · exact delayedBlock_wf ..
  · rfl

theorem State.contribution_lt (h : sampleAt (s.contribution r c.1 c.2 w) n ≠ 0) : n < 1600 * w := by
  unfold State.contribution at h
  split at h
  · exact delayedBlock_lt h
  · exact (h rfl).elim

variable (hw : 1 ≤ w) (hfirst : c.2 + w ≤ 32) (hk : r.applied[c.1] ≤ 16383)
include hw hfirst hk

/-- R139: the components of a contributor's delayed block. -/
theorem State.component_contribution (hn : n < 1600 * w) : sampleI (sampleAt (s.contribution r c.1 c.2 w) n) = s.delayedInput r sampleI c w n ∧
    sampleQ (sampleAt (s.contribution r c.1 c.2 w) n) = s.delayedInput r sampleQ c w n := by
  unfold State.contribution State.delayedInput
  cases (s.link c.1).rx with
  | none =>
    show sampleI 0 = 0 ∧ sampleQ 0 = 0
    exact ⟨rfl, rfl⟩
  | some h =>
    dsimp only
    rw [sampleAt_delayedBlock hw hfirst hk hn]
    exact ⟨component_delayedSample _ _ _ _ _ sampleI (by simp), component_delayedSample _ _ _ _ _ sampleQ (by simp)⟩

/-- R144: the energy of a contributor's delayed block. -/
theorem State.blockEnergy_contribution : blockEnergy (s.contribution r c.1 c.2 w) w = s.inputEnergy r c w := by
  rw [blockEnergy_eq State.contribution_wf fun n => State.contribution_lt]
  unfold State.inputEnergy
  refine congrArg (fun xs : List Nat => xs.sum / (1600 * w)) (List.map_congr_left fun n hn => ?_)
  obtain ⟨hi, hq⟩ := State.component_contribution (s := s) hw hfirst hk (List.mem_range.mp hn)
  unfold samplePower
  rw [hi, hq]

end

end Sys2Proof.Machine
end

section
/-! The combined block (R146, R147): its header, its clips and its samples. -/

namespace Sys2Proof.Machine

open Sys2Proof

/-! ## The sum of the open contributors -/

theorem saturate_eq (y : Int) : saturate y = max (-32768) (min 32767 y) := clampInt_eq _ _ _ (by decide)

theorem gainSum_eq (xs : List (Nat × Int)) : gainSum xs = ((xs.map (fun x => (x.1 : Int) * x.2)).sum + 8192) / 16384 := by
  have hfold (acc : Int) : xs.foldl (fun acc x => acc + (x.1 : Int) * x.2) acc = acc + (xs.map (fun x => (x.1 : Int) * x.2)).sum := by
    induction xs generalizing acc with
    | nil => simp
    | cons x rest ih => rw [List.foldl_cons, ih, List.map_cons, List.sum_cons, Int.add_assoc]
  rw [gainSum, hfold, Int.zero_add]

section
variable {xs : List (Nat × Samples)} {n : Nat}

/-- The sum of one component over the contributors, before the clamp. -/
def openSum (xs : List (Nat × Samples)) (component : Word → Int) (n : Nat) : Int :=
  gainSum (xs.map (fun x => (x.1, component (sampleAt x.2 n))))

theorem openSum_of_silent (h : ∀ x ∈ xs, sampleAt x.2 n = 0) {component : Word → Int} (hzero : component 0 = 0) :
    openSum xs component n = 0 := by
  have hsum : ((xs.map (fun x => (x.1, component (sampleAt x.2 n)))).map (fun x => (x.1 : Int) * x.2)).sum = 0 := by
    refine List.sum_eq_zero fun y hy => ?_
    simp only [List.map_map, List.mem_map] at hy
    obtain ⟨x, hx, rfl⟩ := hy
    show (x.1 : Int) * component (sampleAt x.2 n) = 0
    rw [h x hx, hzero, Int.mul_zero]
  rw [openSum, gainSum_eq, hsum]
  rfl

theorem mem_heldIndices : n ∈ heldIndices xs ↔ ∃ x ∈ xs, n ∈ x.2.map (fun e => e.1) := by
  unfold heldIndices
  rw [mem_listed (samplesWf_buildSamples _ _), sampleAt_buildSamples]
  simp only [ne_eq, ite_eq_right_iff, Classical.not_imp, List.mem_flatten, List.mem_map]
  constructor
  · rintro ⟨⟨_, ⟨x, hx, rfl⟩, hn⟩, -⟩
    exact ⟨x, hx, List.mem_map.mp hn⟩
  · rintro ⟨x, hx, hn⟩
    exact ⟨⟨_, ⟨x, hx, rfl⟩, List.mem_map.mpr hn⟩, by decide⟩

theorem silent_of_not_held (h : n ∉ heldIndices xs) : ∀ x ∈ xs, sampleAt x.2 n = 0 := fun x hx =>
  sampleAt_of_unlisted fun hn => h (mem_heldIndices.mpr ⟨x, hx, hn⟩)

/-- R147: where no contributor holds a sample there is nothing to clip. -/
theorem clipsAt_of_not_held (h : n ∉ heldIndices xs) : clipsAt xs n = 0 := by
  have hsilent := silent_of_not_held h
  have hi : gainSum (xs.map (fun x => (x.1, sampleI (sampleAt x.2 n)))) = 0 := openSum_of_silent hsilent rfl
  have hq : gainSum (xs.map (fun x => (x.1, sampleQ (sampleAt x.2 n)))) = 0 := openSum_of_silent hsilent rfl
  unfold clipsAt
  rw [hi, hq]
  rfl

/-- R147: a combined block holds the combined sample of every place. -/
theorem sampleAt_combined : sampleAt (buildSamples (heldIndices xs) (combinedSample xs)) n = combinedSample xs n := by
  rw [sampleAt_buildSamples]
  split
  · rfl
  · next h =>
    have hsilent := silent_of_not_held h
    have hi : gainSum (xs.map (fun x => (x.1, sampleI (sampleAt x.2 n)))) = 0 := openSum_of_silent hsilent rfl
    have hq : gainSum (xs.map (fun x => (x.1, sampleQ (sampleAt x.2 n)))) = 0 := openSum_of_silent hsilent rfl
    unfold combinedSample
    rw [hi, hq]
    rfl

end

/-! ## The combined block -/

/-- R147: a component as clamped, and whether the clamp changes it. -/
def clipCount (y : Int) : Nat := if max (-32768) (min 32767 y) = y then 0 else 1

section
variable {s : State} {r : BlockRecord} {v : ServiceIx} {opened : List (LinkIx × Nat)} {n : Nat}

/-- R147: the contributors counted open, with their gains and their delayed blocks. -/
def State.openBlocks (s : State) (r : BlockRecord) (v : ServiceIx) (opened : List (LinkIx × Nat)) : List (Nat × Samples) :=
  opened.map (fun c => ((s.link c.1).settings.gain, s.contribution r c.1 c.2 (s.service v).width))

theorem State.heldIndices_lt (hn : n ∈ heldIndices (s.openBlocks r v opened)) : n < 1600 * (s.service v).width := by
  obtain ⟨x, hx, hn⟩ := mem_heldIndices.mp hn
  obtain ⟨c, -, rfl⟩ := List.mem_map.mp hx
  exact State.contribution_lt ((mem_listed State.contribution_wf n).mp hn)

variable (hw : 1 ≤ (s.service v).width)
  (hopened : ∀ c ∈ opened, c.2 + (s.service v).width ≤ 32 ∧ r.applied[c.1] ≤ 16383)
include hw hopened

/-- R147: the sums of the open contributors are those of their delayed blocks. -/
theorem State.openSum_openBlocks (hn : n < 1600 * (s.service v).width) :
    openSum (s.openBlocks r v opened) sampleI n = s.summedInput r sampleI opened (s.service v).width n ∧
    openSum (s.openBlocks r v opened) sampleQ n = s.summedInput r sampleQ opened (s.service v).width n := by
  unfold openSum State.summedInput State.openBlocks
  rw [gainSum_eq, gainSum_eq, List.map_map, List.map_map, List.map_map, List.map_map]
  have hterms (c : LinkIx × Nat) (hc : c ∈ opened) := State.component_contribution (s := s) (r := r) (c := c) hw (hopened c hc).1
    (hopened c hc).2 hn
  constructor
  · refine congrArg (fun xs : List Int => (xs.sum + 8192) / 16384) (List.map_congr_left fun c hc => ?_)
    exact congrArg (((s.link c.1).settings.gain : Int) * ·) (hterms c hc).1
  · refine congrArg (fun xs : List Int => (xs.sum + 8192) / 16384) (List.map_congr_left fun c hc => ?_)
    exact congrArg (((s.link c.1).settings.gain : Int) * ·) (hterms c hc).2

theorem State.clipsAt_openBlocks (hn : n < 1600 * (s.service v).width) : clipsAt (s.openBlocks r v opened) n =
    clipCount (s.summedInput r sampleI opened (s.service v).width n) + clipCount (s.summedInput r sampleQ opened (s.service v).width n) := by
  obtain ⟨hi, hq⟩ := State.openSum_openBlocks hw hopened hn
  unfold openSum at hi hq
  unfold clipsAt clipCount
  dsimp only
  rw [hi, hq, saturate_eq, saturate_eq]

/-- R147: the clip count of a combined block, over all its samples. -/
theorem State.clips_openBlocks : ((heldIndices (s.openBlocks r v opened)).map (clipsAt (s.openBlocks r v opened))).sum =
    ((List.range (1600 * (s.service v).width)).map (fun n => clipCount (s.summedInput r sampleI opened (s.service v).width n) +
      clipCount (s.summedInput r sampleQ opened (s.service v).width n))).sum := by
  have hnodup : (heldIndices (s.openBlocks r v opened)).Nodup := samplesWf_nodup (samplesWf_buildSamples _ _)
  rw [sum_map_listed hnodup (fun n hn => State.heldIndices_lt hn) fun n hn => clipsAt_of_not_held hn]
  exact congrArg List.sum (List.map_congr_left fun n hn => State.clipsAt_openBlocks hw hopened (List.mem_range.mp hn))

theorem State.combinedSample_openBlocks (hn : n < 1600 * (s.service v).width) :
    sampleI (combinedSample (s.openBlocks r v opened) n) =
      max (-32768) (min 32767 (s.summedInput r sampleI opened (s.service v).width n)) ∧
    sampleQ (combinedSample (s.openBlocks r v opened) n) =
      max (-32768) (min 32767 (s.summedInput r sampleQ opened (s.service v).width n)) := by
  obtain ⟨hi, hq⟩ := State.openSum_openBlocks hw hopened hn
  unfold openSum at hi hq
  unfold combinedSample
  rw [hi, hq, saturate_eq, saturate_eq]
  exact ⟨sampleI_packSample (by omega) _, sampleQ_packSample _ (by omega)⟩

end

/-- R147: the block a service's contributors combine to is the one the statements spell out. -/
theorem State.combined_combinesTo {s : State} {r : BlockRecord} {v : ServiceIx} (k : Seq16) {expected present : List (LinkIx × Nat)}
    (hlength : present.length ≤ expected.length) (hw : 1 ≤ (s.service v).width)
    (hpresent : ∀ c ∈ present, c.2 + (s.service v).width ≤ 32 ∧ r.applied[c.1] ≤ 16383) :
    s.combinesTo r v k expected present (present.filter (fun c => s.countedOpen r v c.1)) (s.combined r v k expected present) := by
  have hopened (c : LinkIx × Nat) (hc : c ∈ present.filter (fun c => s.countedOpen r v c.1)) := hpresent c (List.mem_of_mem_filter hc)
  have hclips := State.clips_openBlocks hw hopened
  have hempty : expected.isEmpty = decide (expected = []) := by
    rw [Bool.eq_iff_iff, List.isEmpty_iff, decide_eq_true_iff]
  have hpartial : (expected.length != present.length) = decide (present.length < expected.length) := by
    rw [Bool.eq_iff_iff, bne_iff_ne, decide_eq_true_iff]
    omega
  refine ⟨rfl, rfl, ?_, fun n hn => ?_⟩
  · unfold State.combined
    dsimp only
    rw [hempty, hpartial]
    exact congrArg (fun clips => ({ seq := k, expected := expected.length, missing := expected.length - present.length
                                    opened := (present.filter (fun c => s.countedOpen r v c.1)).length, clips := clips
                                    droppedBefore := (s.service v).droppedBefore, empty := decide (expected = [])
                                    isPartial := decide (present.length < expected.length) } : UplinkHeader)) hclips
  · have hword : sampleAt (s.combined r v k expected present).words n =
        combinedSample (s.openBlocks r v (present.filter (fun c => s.countedOpen r v c.1))) n := sampleAt_combined
    rw [hword]
    exact State.combinedSample_openBlocks hw hopened hn

/-- What the combined block reads of the state: the service's record, and the gains and received histories of the links. -/
theorem State.combinesTo_congr {s u : State} {r : BlockRecord} {v : ServiceIx} {k : Seq16} {expected present opened : List (LinkIx × Nat)}
    {x : WorkBlock} (hservice : u.service v = s.service v) (hsettings : ∀ l, (u.link l).settings = (s.link l).settings)
    (hrx : ∀ l, (u.link l).rx = (s.link l).rx) (h : u.combinesTo r v k expected present opened x) :
    s.combinesTo r v k expected present opened x := by
  have hinput (component : Word → Int) (c : LinkIx × Nat) (w n : Nat) : u.delayedInput r component c w n = s.delayedInput r component c w n := by
    unfold State.delayedInput
    rw [hrx]
  have hsum (component : Word → Int) (opened : List (LinkIx × Nat)) (w n : Nat) :
      u.summedInput r component opened w n = s.summedInput r component opened w n := by
    unfold State.summedInput
    simp only [hinput, hsettings]
  unfold State.combinesTo at h ⊢
  simpa only [hservice, hsum] using h

end Sys2Proof.Machine
end

section
/-! One service's share of a combine point (R140 to R149): its contributors, its gate records, and its block appended or dropped. -/

namespace Sys2Proof.Machine

open Sys2Proof

/-! ## Contributors (R141, R142, R146) -/

theorem expectedOf_sorted (r : BlockRecord) (v : ServiceIx) : (expectedOf r v).Pairwise (fun c d => c.1 < d.1) := by
  have hfirst {l : LinkIx} {c : LinkIx × Nat} (h : (match r.launched[l] with
      | some z => (entryFor r.plans[z] v).map (fun e => (l, e.first))
      | none => none) = some c) : c.1 = l := by
    split at h
    · obtain ⟨e, -, rfl⟩ := Option.map_eq_some_iff.mp h
      rfl
    · cases h
  unfold expectedOf
  refine List.Pairwise.filterMap _ (fun l l' hlt c hc d hd => ?_) (show allLinks.Pairwise (· < ·) by decide)
  rw [hfirst hc, hfirst hd]
  exact hlt

theorem mem_expectedOf {r : BlockRecord} {v : ServiceIx} {c : LinkIx × Nat} : c ∈ expectedOf r v ↔ r.expects v c := by
  unfold expectedOf BlockRecord.expects entryFor
  rw [List.mem_filterMap]
  constructor
  · rintro ⟨l, -, h⟩
    cases hz : r.launched[l] with
    | none => rw [hz] at h; cases h
    | some z =>
      rw [hz] at h
      obtain ⟨e, he, rfl⟩ := Option.map_eq_some_iff.mp h
      exact ⟨z, e, hz, he, rfl⟩
  · rintro ⟨z, e, hz, he, hfirst⟩
    refine ⟨c.1, mem_allLinks _, ?_⟩
    rw [hz]
    dsimp only
    rw [he, Option.map_some, hfirst]

theorem State.isPresent_iff {s : State} {v : ServiceIx} {l : LinkIx} : s.isPresent v l = true ↔ s.contributes v l := by
  unfold State.isPresent State.contributes
  rw [Bool.and_eq_true, Bool.and_eq_true, Bool.and_eq_true, beq_iff_eq, and_assoc, and_assoc, Bool.not_eq_true']
  refine and_congr_right fun _ => and_congr_right fun _ => and_congr_right fun _ => ?_
  cases (s.link l).rx <;> simp

section
open Classical

/-- R142: the present contributors of service v. -/
noncomputable def State.presentOf (s : State) (r : BlockRecord) (v : ServiceIx) : List (LinkIx × Nat) :=
  (expectedOf r v).filter (fun c => decide (s.contributes v c.1))

/-- R146: the contributors of service v counted open. -/
noncomputable def State.openOf (s : State) (r : BlockRecord) (v : ServiceIx) : List (LinkIx × Nat) :=
  (s.presentOf r v).filter (fun c => decide (s.countsOpen r v c))

theorem State.mem_presentOf {s : State} {r : BlockRecord} {v : ServiceIx} {c : LinkIx × Nat} :
    c ∈ s.presentOf r v ↔ r.expects v c ∧ s.contributes v c.1 := by
  rw [State.presentOf, List.mem_filter, mem_expectedOf, decide_eq_true_iff]

theorem State.mem_openOf {s : State} {r : BlockRecord} {v : ServiceIx} {c : LinkIx × Nat} :
    c ∈ s.openOf r v ↔ r.expects v c ∧ s.contributes v c.1 ∧ s.countsOpen r v c := by
  rw [State.openOf, List.mem_filter, State.mem_presentOf, decide_eq_true_iff, and_assoc]

theorem State.presentOf_sorted (s : State) (r : BlockRecord) (v : ServiceIx) : (s.presentOf r v).Pairwise (fun c d => c.1 < d.1) :=
  (expectedOf_sorted r v).filter _

theorem State.openOf_sorted (s : State) (r : BlockRecord) (v : ServiceIx) : (s.openOf r v).Pairwise (fun c d => c.1 < d.1) :=
  (s.presentOf_sorted r v).filter _

theorem State.presentOf_eq (s : State) (r : BlockRecord) (v : ServiceIx) :
    (expectedOf r v).filter (fun c => s.isPresent v c.1) = s.presentOf r v :=
  List.filter_congr fun c _ => by rw [Bool.eq_iff_iff, State.isPresent_iff, decide_eq_true_iff]

theorem State.openOf_eq {s : State} {r : BlockRecord} {v : ServiceIx} {p : LinkIx × Nat → Bool}
    (h : ∀ c ∈ s.presentOf r v, p c = true ↔ s.countsOpen r v c) : (s.presentOf r v).filter p = s.openOf r v :=
  List.filter_congr fun c hc => by rw [Bool.eq_iff_iff, h c hc, decide_eq_true_iff]

end

/-- R141: a link is expected on one first lane. -/
theorem BlockRecord.expects_unique {r : BlockRecord} {v : ServiceIx} {l : LinkIx} {f f' : Nat} (h : r.expects v (l, f)) (h' : r.expects v (l, f')) :
    f = f' := by
  obtain ⟨z, e, hz, he, hf⟩ := h
  obtain ⟨z', e', hz', he', hf'⟩ := h'
  obtain rfl := Option.some.inj (hz.symm.trans hz')
  obtain rfl := Option.some.inj (he.symm.trans he')
  exact hf.symm.trans hf'

/-! ## What a service's share reads -/

/-- The records that service v's share of a combine point reads are those of s. -/
structure State.SameShare (s u : State) (v : ServiceIx) : Prop where
  service : u.service v = s.service v
  mgr (l : LinkIx) : (u.link l).mgr = (s.link l).mgr
  settings (l : LinkIx) : (u.link l).settings = (s.link l).settings
  rx (l : LinkIx) : (u.link l).rx = (s.link l).rx
  gate (l : LinkIx) : (u.link l).gates[v] = (s.link l).gates[v]

section
variable {s u w : State} {r : BlockRecord} {v : ServiceIx}

theorem State.SameShare.refl (s : State) (v : ServiceIx) : s.SameShare s v := ⟨rfl, fun _ => rfl, fun _ => rfl, fun _ => rfl, fun _ => rfl⟩

theorem State.SameShare.trans (h : s.SameShare u v) (h' : u.SameShare w v) : s.SameShare w v :=
  ⟨h'.service.trans h.service, fun l => (h'.mgr l).trans (h.mgr l), fun l => (h'.settings l).trans (h.settings l),
    fun l => (h'.rx l).trans (h.rx l), fun l => (h'.gate l).trans (h.gate l)⟩

/-- The work list is no part of a service's share. -/
theorem State.SameShare.withWork (h : s.SameShare u v) (work : List WorkBlock) :
    s.SameShare { u with combiner := { u.combiner with workList := work } } v := ⟨h.service, h.mgr, h.settings, h.rx, h.gate⟩

theorem State.SameShare.combines (h : s.SameShare u v) : u.combines r v ↔ s.combines r v := by
  unfold State.combines
  rw [h.service]

theorem State.SameShare.contributes (h : s.SameShare u v) (l : LinkIx) : u.contributes v l ↔ s.contributes v l := by
  unfold State.contributes
  rw [h.mgr, h.gate, h.rx]

theorem State.inputEnergy_congr (hrx : ∀ l, (u.link l).rx = (s.link l).rx) (c : LinkIx × Nat) (n : Nat) :
    u.inputEnergy r c n = s.inputEnergy r c n := by
  unfold State.inputEnergy State.delayedInput
  rw [hrx]

theorem State.SameShare.countsOpen (h : s.SameShare u v) (c : LinkIx × Nat) : u.countsOpen r v c ↔ s.countsOpen r v c := by
  unfold State.countsOpen
  rw [h.service, h.gate, State.inputEnergy_congr h.rx]
  simp only [h.settings]

theorem State.SameShare.presentOf (h : s.SameShare u v) : u.presentOf r v = s.presentOf r v := by
  exact List.filter_congr fun c _ => decide_eq_decide.mpr (h.contributes c.1)

theorem State.SameShare.openOf (h : s.SameShare u v) : u.openOf r v = s.openOf r v := by
  unfold State.openOf
  rw [h.presentOf]
  exact List.filter_congr fun c _ => decide_eq_decide.mpr (h.countsOpen c)

/-- Service v's block has a place in the work list. -/
def State.busy (s : State) (v : ServiceIx) : Prop := ∃ y, y ∈ s.combiner.workList ∧ y.service = v

end

/-! ## The gate records (R144, R145) -/

/-- R144, R145: the gate records of service v once its present contributors' energies have been taken. -/
def State.gatesTaken (s : State) (r : BlockRecord) (v : ServiceIx) (cs : List (LinkIx × Nat)) : State :=
  cs.foldl (fun s c => s.updateGate v c.1 (blockEnergy (s.contribution r c.1 c.2 (s.service v).width) (s.service v).width)) s

section
variable {s : State} {r : BlockRecord} {v : ServiceIx}

theorem State.updateGate_gate (l : LinkIx) (e : Nat) (l' : LinkIx) (v' : ServiceIx) : ((s.updateGate v l e).link l').gates[v'] =
    if l = l' ∧ v = v' then ((s.link l').gates[v']).map (fun g => g.update e (s.link l').settings.gateHold) else (s.link l').gates[v'] := by
  unfold State.updateGate
  rw [State.modLink_link_eq]
  by_cases hl : l = l'
  · subst hl
    rw [if_pos rfl]
    dsimp only
    rw [Fin.getElem_fin, Vector.getElem_set]
    by_cases hv : v = v'
    · subst hv
      rw [if_pos rfl, if_pos ⟨rfl, rfl⟩]
    · rw [if_neg fun h => hv (Fin.ext h), if_neg fun h => hv h.2]
      rfl
  · rw [if_neg hl, if_neg fun h => hl h.1]

theorem State.updateGate_records (l : LinkIx) (e : Nat) : s.updateGate v l e = { s with links := (s.updateGate v l e).links } ∧
    ∀ l', (s.updateGate v l e).link l' = { s.link l' with gates := ((s.updateGate v l e).link l').gates } := by
  refine ⟨rfl, fun l' => ?_⟩
  unfold State.updateGate
  rw [State.modLink_link_eq]
  split
  · next h => rw [h]
  · rfl

theorem State.gatesTaken_records (cs : List (LinkIx × Nat)) (hcs : (cs.map (fun c => c.1)).Nodup) (s : State) :
    s.gatesTaken r v cs = { s with links := (s.gatesTaken r v cs).links } ∧
    (∀ l, (s.gatesTaken r v cs).link l = { s.link l with gates := ((s.gatesTaken r v cs).link l).gates }) ∧
    (∀ l v', v ≠ v' ∨ l ∉ cs.map (fun c => c.1) → ((s.gatesTaken r v cs).link l).gates[v'] = (s.link l).gates[v']) ∧
    ∀ c ∈ cs, ((s.gatesTaken r v cs).link c.1).gates[v] = ((s.link c.1).gates[v]).map (fun g =>
      g.update (blockEnergy (s.contribution r c.1 c.2 (s.service v).width) (s.service v).width) (s.link c.1).settings.gateHold) := by
  induction cs generalizing s with
  | nil => exact ⟨rfl, fun _ => rfl, fun _ _ _ => rfl, fun _ h => nomatch h⟩
  | cons c rest ih =>
    obtain ⟨hc, hrest⟩ := List.nodup_cons.mp hcs
    generalize he : blockEnergy (s.contribution r c.1 c.2 (s.service v).width) (s.service v).width = e
    have hstep : s.gatesTaken r v (c :: rest) = (s.updateGate v c.1 e).gatesTaken r v rest := by rw [← he]; rfl
    have hgate := State.updateGate_gate (s := s) (v := v) c.1 e
    obtain ⟨hframe1, hlink1⟩ := State.updateGate_records (s := s) (v := v) c.1 e
    rw [hstep]
    generalize s.updateGate v c.1 e = u at *
    obtain ⟨hframe, hlink, hother, htaken⟩ := ih hrest u
    generalize u.gatesTaken r v rest = t at *
    have hservice : u.service v = s.service v := by rw [hframe1]; rfl
    have hcontribution (d : LinkIx × Nat) : u.contribution r d.1 d.2 (s.service v).width = s.contribution r d.1 d.2 (s.service v).width := by
      unfold State.contribution
      rw [hlink1]
    refine ⟨by rw [hframe, hframe1], fun l => ?_, fun l v' h => ?_, fun d hd => ?_⟩
    · have h1 := hlink l
      generalize (t.link l).gates = gates at h1 ⊢
      rw [h1, hlink1]
    · have hout : v ≠ v' ∨ l ∉ rest.map (fun c => c.1) := h.imp_right fun hl hin => hl (List.mem_cons_of_mem _ hin)
      rw [hother l v' hout, hgate, if_neg]
      rintro ⟨rfl, rfl⟩
      exact h.elim (fun h => h rfl) fun h => h List.mem_cons_self
    · obtain rfl | hd := List.mem_cons.mp hd
      · rw [hother _ _ (.inr hc), hgate, if_pos ⟨rfl, rfl⟩, he]
      · have hne : ¬ (c.1 = d.1 ∧ v = v) := fun h => hc (List.mem_map.mpr ⟨d, hd, h.1.symm⟩)
        rw [htaken d hd, hgate, if_neg hne, hservice, hcontribution, hlink1]

end

end Sys2Proof.Machine
end

section
/-! The combine point over the services (R140 to R149): each settles its own share, and the appended blocks follow one another. -/

namespace Sys2Proof.Machine

open Sys2Proof

/-! ## One service -/

/-- State t has what the combine point of block k makes of service v's share of state s. -/
structure State.Settled (s t : State) (r : BlockRecord) (k : Seq16) (v : ServiceIx) : Prop where
  gates : s.combines r v → ∀ (l : LinkIx) (f : Nat) (g : Gate), r.expects v (l, f) → s.contributes v l → (s.link l).gates[v] = some g →
    (t.link l).gates[v] = some (g.after (s.inputEnergy r (l, f) (s.service v).width) (s.link l).settings.gateHold)
  stands : ∀ l, (¬ s.combines r v ∨ (∀ f, ¬ r.expects v (l, f)) ∨ ¬ s.contributes v l) → (t.link l).gates[v] = (s.link l).gates[v]
  appended : s.combines r v → ¬ s.busy v → ∃ x, x ∈ t.combiner.workList ∧
    s.combinesTo r v k (expectedOf r v) (s.presentOf r v) (s.openOf r v) x ∧
    (t.service v).droppedBefore = 0 ∧ (t.service v).lastAppended = some k ∧
    (t.service v).sums = { (s.service v).sums with
      appended := bump16 (s.service v).sums.appended
      clips := bumpBy16 (s.service v).sums.clips x.header.clips
      partials := if (s.presentOf r v).length < (expectedOf r v).length then bump16 (s.service v).sums.partials else (s.service v).sums.partials }
  dropped : s.combines r v → s.busy v → (t.service v).droppedBefore = bump16 (s.service v).droppedBefore ∧
    (t.service v).lastAppended = (s.service v).lastAppended ∧
    (t.service v).sums = { (s.service v).sums with dropped := bump16 (s.service v).sums.dropped }
  idle : ¬ s.combines r v → (t.service v).droppedBefore = (s.service v).droppedBefore ∧
    (t.service v).lastAppended = (s.service v).lastAppended ∧ (t.service v).sums = (s.service v).sums

/-- The contributors' lanes and delays that the combination of a service relies on. -/
def State.Combinable (s : State) (r : BlockRecord) (v : ServiceIx) : Prop :=
  s.combines r v → 1 ≤ (s.service v).width ∧ ∀ c, r.expects v c → c.2 + (s.service v).width ≤ 32 ∧ r.applied[c.1] ≤ 16383

section
variable {s t u : State} {r : BlockRecord} {k : Seq16} {v : ServiceIx}

theorem State.Settled.of_sameShare (hshare : s.SameShare u v) (hbusy : u.busy v ↔ s.busy v) (h : u.Settled t r k v) : s.Settled t r k v where
  gates hcombines l f g hexpects hcontributes hg := by
    rw [← State.inputEnergy_congr hshare.rx, ← hshare.service, ← hshare.settings]
    exact h.gates (hshare.combines.mpr hcombines) l f g hexpects ((hshare.contributes l).mpr hcontributes) ((hshare.gate l).trans hg)
  stands l hout := by
    rw [← hshare.gate]
    exact h.stands l (hout.imp (fun h h' => h (hshare.combines.mp h')) (fun h => h.imp_right fun h h' => h ((hshare.contributes l).mp h')))
  appended hcombines hfree := by
    obtain ⟨x, hx, hto, hrest⟩ := h.appended (hshare.combines.mpr hcombines) fun h => hfree (hbusy.mp h)
    rw [hshare.presentOf, hshare.openOf] at hto
    rw [hshare.presentOf, hshare.service] at hrest
    exact ⟨x, hx, State.combinesTo_congr hshare.service hshare.settings hshare.rx hto, hrest⟩
  dropped hcombines hb := by
    rw [← hshare.service]
    exact h.dropped (hshare.combines.mpr hcombines) (hbusy.mpr hb)
  idle hnot := by
    rw [← hshare.service]
    exact h.idle fun h' => hnot (hshare.combines.mp h')

theorem State.Settled.mono (h : s.Settled u r k v) (hservice : t.service v = u.service v)
    (hgate : ∀ l, (t.link l).gates[v] = (u.link l).gates[v]) (hwork : ∀ x ∈ u.combiner.workList, x ∈ t.combiner.workList) : s.Settled t r k v where
  gates hcombines l f g hexpects hcontributes hg := (hgate l).trans (h.gates hcombines l f g hexpects hcontributes hg)
  stands l hout := (hgate l).trans (h.stands l hout)
  appended hcombines hfree := by
    obtain ⟨x, hx, hrest⟩ := h.appended hcombines hfree
    rw [hservice]
    exact ⟨x, hwork x hx, hrest⟩
  dropped hcombines hb := by
    rw [hservice]
    exact h.dropped hcombines hb
  idle hnot := by
    rw [hservice]
    exact h.idle hnot

/-- R140 to R149: a service's share, by what the work list holds. -/
theorem State.combineService_eq (s : State) (r : BlockRecord) (k : Seq16) (v : ServiceIx) :
    (¬ s.combines r v → s.combineService r k v = s) ∧
    (s.combines r v → s.busy v → s.combineService r k v = (s.gatesTaken r v (s.presentOf r v)).dropBlock v) ∧
    (s.combines r v → ¬ s.busy v → s.combineService r k v = (s.gatesTaken r v (s.presentOf r v)).appendBlock
      ((s.gatesTaken r v (s.presentOf r v)).combined r v k (expectedOf r v) (s.presentOf r v))) := by
  have hcond : (r.enabled[v] && (s.service v).state == .enabled && (s.service v).ring.isSome) = true ↔ s.combines r v := by
    rw [Bool.and_eq_true, Bool.and_eq_true, beq_iff_eq, and_assoc]
  have hnodup : ((s.presentOf r v).map (fun c => c.1)).Nodup := List.pairwise_map.mpr ((s.presentOf_sorted r v).imp fun h => ne_of_lt h)
  have hbusy : ((s.gatesTaken r v (s.presentOf r v)).combiner.workList.any (fun b => b.service == v)) = true ↔ s.busy v := by
    obtain ⟨hframe, -⟩ := State.gatesTaken_records (r := r) (v := v) _ hnodup s
    generalize s.gatesTaken r v (s.presentOf r v) = t at *
    rw [hframe, List.any_eq_true]
    exact exists_congr fun y => by rw [beq_iff_eq]
  unfold State.combineService
  dsimp only
  rw [State.presentOf_eq]
  refine ⟨fun hnot => if_neg fun h => hnot (hcond.mp h), fun hcombines hb => ?_, fun hcombines hb => ?_⟩
  · rw [if_pos (hcond.mpr hcombines)]
    exact if_pos (hbusy.mpr hb)
  · rw [if_pos (hcond.mpr hcombines)]
    exact if_neg fun h => hb (hbusy.mp h)

/-- R144, R145: the gate records of a combined service. -/
theorem State.gatesTaken_gate (hcombines : s.combines r v) (hok : s.Combinable r v) {l : LinkIx} {f : Nat} (hexpects : r.expects v (l, f))
    (hcontributes : s.contributes v l) : ((s.gatesTaken r v (s.presentOf r v)).link l).gates[v] = ((s.link l).gates[v]).map (fun g =>
      g.after (s.inputEnergy r (l, f) (s.service v).width) (s.link l).settings.gateHold) := by
  obtain ⟨hw, hlanes⟩ := hok hcombines
  obtain ⟨hfirst, hk⟩ := hlanes _ hexpects
  have hnodup : ((s.presentOf r v).map (fun c => c.1)).Nodup := List.pairwise_map.mpr ((s.presentOf_sorted r v).imp fun h => ne_of_lt h)
  obtain ⟨-, -, -, htaken⟩ := State.gatesTaken_records (r := r) (v := v) _ hnodup s
  have henergy := State.blockEnergy_contribution (s := s) (r := r) (c := (l, f)) hw hfirst hk
  have h := htaken (l, f) (State.mem_presentOf.mpr ⟨hexpects, hcontributes⟩)
  rw [henergy] at h
  simp only [Gate.after_eq_update]
  exact h

/-- R146: which of the present contributors are counted open, once the gate records are taken. -/
theorem State.countedOpen_iff (hcombines : s.combines r v) (hok : s.Combinable r v) {c : LinkIx × Nat} (hc : c ∈ s.presentOf r v) :
    (s.gatesTaken r v (s.presentOf r v)).countedOpen r v c.1 = true ↔ s.countsOpen r v c := by
  obtain ⟨hexpects, hcontributes⟩ := State.mem_presentOf.mp hc
  have hgate := State.gatesTaken_gate hcombines hok hexpects hcontributes
  have hnodup : ((s.presentOf r v).map (fun c => c.1)).Nodup := List.pairwise_map.mpr ((s.presentOf_sorted r v).imp fun h => ne_of_lt h)
  obtain ⟨hframe, hlink, -, -⟩ := State.gatesTaken_records (r := r) (v := v) _ hnodup s
  generalize s.gatesTaken r v (s.presentOf r v) = t at *
  have hservice : t.service v = s.service v := by rw [hframe]; rfl
  have hsettings : (t.link c.1).settings = (s.link c.1).settings := by rw [hlink]
  unfold State.countedOpen State.forced State.countsOpen
  rw [hgate, hservice]
  simp only [hsettings, Bool.or_eq_true, Bool.and_eq_true, beq_iff_eq, or_assoc]
  refine or_congr_right (or_congr_right ?_)
  cases (s.link c.1).gates[v] <;> simp

/-- What one service's share leaves for the others, and what it appends. -/
theorem State.combineService_settled (hok : s.Combinable r v) : let u := s.combineService r k v
    s.Settled u r k v ∧ (∀ w, v ≠ w → s.SameShare u w) ∧ u.time = s.time ∧
    ∃ added, u.combiner.workList = s.combiner.workList ++ added ∧
      ((added = [] ∧ ¬ (s.combines r v ∧ ¬ s.busy v)) ∨ ∃ x, added = [x] ∧ x.service = v ∧ s.combines r v ∧ ¬ s.busy v) := by
  intro u
  obtain ⟨hidle, hdrop, happend⟩ := s.combineService_eq r k v
  by_cases hcombines : s.combines r v
  swap
  · have hu : u = s := hidle hcombines
    rw [hu]
    exact ⟨⟨fun h => (hcombines h).elim, fun _ _ => rfl, fun h => (hcombines h).elim, fun h => (hcombines h).elim, fun _ => ⟨rfl, rfl, rfl⟩⟩,
      fun w _ => .refl s w, rfl, [], (List.append_nil _).symm, .inl ⟨rfl, fun h => hcombines h.1⟩⟩
  have hgate {l : LinkIx} {f : Nat} := State.gatesTaken_gate hcombines hok (l := l) (f := f)
  have hopen {c : LinkIx × Nat} := State.countedOpen_iff hcombines hok (c := c)
  have hnodup : ((s.presentOf r v).map (fun c => c.1)).Nodup := List.pairwise_map.mpr ((s.presentOf_sorted r v).imp fun h => ne_of_lt h)
  obtain ⟨hframe, hlink, hother, -⟩ := State.gatesTaken_records (r := r) (v := v) _ hnodup s
  generalize s.gatesTaken r v (s.presentOf r v) = t at *
  have hservice (w : ServiceIx) : t.service w = s.service w := by rw [hframe]; rfl
  have hwork : t.combiner.workList = s.combiner.workList := by rw [hframe]
  have htime : t.time = s.time := by rw [hframe]
  have hgates (l : LinkIx) (f : Nat) (g : Gate) (hexpects : r.expects v (l, f)) (hcontributes : s.contributes v l)
      (hg : (s.link l).gates[v] = some g) : (t.link l).gates[v] =
        some (g.after (s.inputEnergy r (l, f) (s.service v).width) (s.link l).settings.gateHold) := by
    rw [hgate hexpects hcontributes, hg, Option.map_some]
  have hstands (l : LinkIx) (hout : ¬ s.combines r v ∨ (∀ f, ¬ r.expects v (l, f)) ∨ ¬ s.contributes v l) :
      (t.link l).gates[v] = (s.link l).gates[v] := by
    refine hother l v (.inr fun hin => ?_)
    obtain ⟨c, hc, rfl⟩ := List.mem_map.mp hin
    obtain ⟨hexpects, hcontributes⟩ := State.mem_presentOf.mp hc
    obtain h | h | h := hout
    · exact h hcombines
    · exact h c.2 hexpects
    · exact h hcontributes
  have hsettings (l : LinkIx) : (t.link l).settings = (s.link l).settings := by rw [hlink]
  have hrx (l : LinkIx) : (t.link l).rx = (s.link l).rx := by rw [hlink]
  have hsame (w : ServiceIx) (hw : v ≠ w) (f : Service → Service) : s.SameShare (t.modService v f) w :=
    ⟨(State.modService_service_eq ..).trans ((if_neg hw).trans (hservice w)), fun l => (congrArg Link.mgr (hlink l) :), hsettings, hrx,
      fun l => hother l w (.inl hw)⟩
  have hnow (f : Service → Service) : (t.modService v f).service v = f (s.service v) := by
    rw [State.modService_service_eq, if_pos rfl, hservice]
  by_cases hb : s.busy v
  · have hu : u = t.dropBlock v := hdrop hcombines hb
    rw [hu]
    refine ⟨⟨fun _ => hgates, hstands, fun _ h => (h hb).elim, fun _ _ => ?_, fun h => (h hcombines).elim⟩, fun w hw => hsame w hw _, htime,
      [], hwork.trans (List.append_nil _).symm, .inl ⟨rfl, fun h => h.2 hb⟩⟩
    unfold State.dropBlock
    rw [hnow]
    exact ⟨rfl, rfl, rfl⟩
  · obtain ⟨hwidth, hlanes⟩ := hok hcombines
    have hto := State.combined_combinesTo (s := t) (r := r) (v := v) k (expected := expectedOf r v) (present := s.presentOf r v)
      (List.length_filter_le _ _) (by rw [hservice]; exact hwidth)
      fun c hc => by rw [hservice]; exact hlanes c (State.mem_presentOf.mp hc).1
    have hopened : (s.presentOf r v).filter (fun c => t.countedOpen r v c.1) = s.openOf r v := State.openOf_eq fun c => hopen
    rw [hopened] at hto
    have hto := State.combinesTo_congr (hservice v) hsettings hrx hto
    have hu : u = t.appendBlock (t.combined r v k (expectedOf r v) (s.presentOf r v)) := happend hcombines hb
    rw [hu]
    generalize t.combined r v k (expectedOf r v) (s.presentOf r v) = x at *
    obtain ⟨hxservice, -, hheader, -⟩ := id hto
    have hseq : x.header.seq = k := by rw [hheader]
    have hpartial : x.header.isPartial = decide ((s.presentOf r v).length < (expectedOf r v).length) := by rw [hheader]
    have happended : t.appendBlock x = { t.modService v (fun y => { y with
          droppedBefore := 0, lastAppended := some k
          sums := { y.sums with
            appended := bump16 y.sums.appended, clips := bumpBy16 y.sums.clips x.header.clips
            partials := if (s.presentOf r v).length < (expectedOf r v).length then bump16 y.sums.partials else y.sums.partials } }) with
        combiner := { t.combiner with workList := s.combiner.workList ++ [x] } } := by
      unfold State.appendBlock
      rw [hxservice, hseq, hpartial, ← hwork]
      simp only [decide_eq_true_eq]
      rfl
    rw [happended]
    refine ⟨⟨fun _ => hgates, hstands, fun _ _ => ⟨x, List.mem_append_right _ List.mem_cons_self, hto, ?_⟩, fun _ h => (hb h).elim,
      fun h => (h hcombines).elim⟩, fun w hw => (hsame w hw _).withWork _, htime, [x], rfl, .inr ⟨x, rfl, hxservice, hcombines, hb⟩⟩
    have hfinal := hnow (fun y => { y with
      droppedBefore := 0, lastAppended := some k
      sums := { y.sums with
        appended := bump16 y.sums.appended, clips := bumpBy16 y.sums.clips x.header.clips
        partials := if (s.presentOf r v).length < (expectedOf r v).length then bump16 y.sums.partials else y.sums.partials } })
    refine ⟨(congrArg Service.droppedBefore hfinal :), (congrArg Service.lastAppended hfinal :), (congrArg Service.sums hfinal :)⟩

end

end Sys2Proof.Machine
end

section
/-! The combine point as a whole: the shares of all services, the appended blocks, and the gate records discarded (R140, R143). -/

namespace Sys2Proof.Machine

open Sys2Proof

section
variable {s t u : State} {r : BlockRecord} {k : Seq16}

theorem State.SameShare.combinable {v : ServiceIx} (h : s.SameShare u v) (hok : s.Combinable r v) : u.Combinable r v := by
  intro hcombines
  rw [h.service]
  exact hok (h.combines.mp hcombines)

/-- What the shares of some services, taken in ascending index, make of the part. -/
structure State.Shared (s t : State) (r : BlockRecord) (k : Seq16) (vs : List ServiceIx) : Prop where
  other (v : ServiceIx) : v ∉ vs → s.SameShare t v
  settled (v : ServiceIx) : v ∈ vs → s.Settled t r k v
  work : ∃ added, t.combiner.workList = s.combiner.workList ++ added ∧ added.Pairwise (fun x y => x.service < y.service) ∧
    ∀ v, (∃ x, x ∈ added ∧ x.service = v) ↔ v ∈ vs ∧ s.combines r v ∧ ¬ s.busy v

theorem State.foldl_combineService_shared {vs : List ServiceIx} (hvs : vs.Pairwise (· < ·)) (s : State) (hk : s.time.block - 2 = k)
    (hok : ∀ v ∈ vs, s.Combinable r v) :
    s.Shared (vs.foldl (fun s v => s.combineService r (s.time.block - 2) v) s) r k vs := by
  induction vs generalizing s with
  | nil => exact ⟨fun v _ => .refl s v, fun v h => (nomatch h), [], (List.append_nil _).symm, .nil, fun v => by simp⟩
  | cons v rest ih =>
    obtain ⟨hfirst, hrest⟩ := List.pairwise_cons.mp hvs
    have hne {w : ServiceIx} (hw : w ∈ rest) : v ≠ w := ne_of_lt (hfirst w hw)
    obtain ⟨hsettled, hsame, htime, added, hadded, hcases⟩ := State.combineService_settled (k := k) (hok v List.mem_cons_self)
    rw [List.foldl_cons, hk]
    generalize s.combineService r k v = u at *
    have hrestOk (w : ServiceIx) (hw : w ∈ rest) : u.Combinable r w := (hsame w (hne hw)).combinable (hok w (List.mem_cons_of_mem _ hw))
    obtain ⟨hother, hothers, added', hadded', hsorted, hmem⟩ := ih hrest u (htime ▸ hk) hrestOk
    generalize rest.foldl (fun s v => s.combineService r (s.time.block - 2) v) u = t at *
    have hservices : ∀ x ∈ added, x.service = v := by
      intro x hx
      obtain ⟨rfl, -⟩ | ⟨y, rfl, hy, -⟩ := hcases
      · cases hx
      · obtain rfl := List.mem_singleton.mp hx
        exact hy
    have hbusy {w : ServiceIx} (hw : v ≠ w) : u.busy w ↔ s.busy w := by
      unfold State.busy
      rw [hadded]
      refine exists_congr fun y => and_congr_left fun hy => ?_
      rw [List.mem_append]
      exact or_iff_left fun h => hw ((hservices y h).symm.trans hy)
    have hnotin : v ∉ rest := fun h => hne h rfl
    refine ⟨fun w hw => ?_, fun w hw => ?_, added ++ added', by rw [hadded', hadded, List.append_assoc], ?_, fun w => ?_⟩
    · rw [List.mem_cons, not_or] at hw
      exact (hsame w (Ne.symm hw.1)).trans (hother w hw.2)
    · obtain rfl | hw := List.mem_cons.mp hw
      · have hlater := hother w hnotin
        exact hsettled.mono hlater.service hlater.gate fun x hx => hadded' ▸ List.mem_append_left _ hx
      · exact (hothers w hw).of_sameShare (hsame w (hne hw)) (hbusy (hne hw))
    · refine List.pairwise_append.mpr ⟨?_, hsorted, fun x hx y hy => ?_⟩
      · obtain ⟨rfl, -⟩ | ⟨y, rfl, -⟩ := hcases
        · exact .nil
        · exact List.pairwise_singleton _ _
      · rw [hservices x hx]
        exact hfirst _ ((hmem y.service).mp ⟨y, hy, rfl⟩).1
    · have hhere : (∃ x, x ∈ added ∧ x.service = w) ↔ w = v ∧ s.combines r v ∧ ¬ s.busy v := by
        obtain ⟨rfl, hnone⟩ | ⟨y, rfl, hy, hsome⟩ := hcases
        · exact ⟨fun ⟨x, hx, _⟩ => (nomatch hx), fun ⟨_, h⟩ => (hnone h).elim⟩
        · simp only [List.mem_singleton, exists_eq_left, hy]
          exact ⟨fun h => ⟨h.symm, hsome⟩, fun h => h.1.symm⟩
      have hsplit : (∃ x, x ∈ added ++ added' ∧ x.service = w) ↔
          (∃ x, x ∈ added ∧ x.service = w) ∨ ∃ x, x ∈ added' ∧ x.service = w := by
        simp only [List.mem_append, or_and_right, exists_or]
      rw [hsplit, hhere, hmem, List.mem_cons, or_and_right]
      refine or_congr ⟨?_, ?_⟩ (and_congr_right fun hw => ?_)
      · rintro ⟨rfl, h⟩
        exact ⟨rfl, h⟩
      · rintro ⟨rfl, h⟩
        exact ⟨rfl, h⟩
      · rw [(hsame w (hne hw)).combines, hbusy (hne hw)]

end

/-! ## The gate records discarded (R143) -/

section
variable (s : State) (n : BlockRecord)

theorem State.pruneGates_records : s.pruneGates n = { s with links := (s.pruneGates n).links } ∧
    ∀ (l : LinkIx) (v : ServiceIx), ((s.pruneGates n).link l).gates[v] =
      if v ∈ carriedOf n.plans[(s.link l).settings.zone] ∨ v ∈ carriedOf (s.planInForce (s.link l).settings.zone) then (s.link l).gates[v] else none := by
  obtain ⟨hframe, hlink⟩ := State.forLinks_records (s := s) (f := fun s l =>
      let z := (s.link l).settings.zone
      s.modLink l (fun x => { x with gates := Vector.ofFn (fun v : Fin 24 =>
        if (entryFor n.plans[z] v).isSome || (entryFor (s.planInForce z) v).isSome then x.gates[v] else none) }))
    (F := fun _ x => { x with gates := Vector.ofFn (fun v : Fin 24 =>
        if (entryFor n.plans[x.settings.zone] v).isSome || (entryFor (s.planInForce x.settings.zone) v).isSome then x.gates[v] else none) })
    fun u l hu hl => by
      have hplan (z : ZoneIx) : u.planInForce z = s.planInForce z := by rw [hu]; rfl
      refine State.modLink_congr ?_
      simp only [hplan, hl]
  refine ⟨hframe, fun l v => ?_⟩
  have hgates := (congrArg Link.gates (hlink l) :)
  have hin (plan : List Entry) : (entryFor plan v).isSome = true ↔ v ∈ carriedOf plan := by
    rw [← Option.not_isNone, Bool.not_eq_true', ← Bool.not_eq_true, entryFor_isNone, not_not]
  have hvalue : ((s.pruneGates n).link l).gates[v] = if (entryFor n.plans[(s.link l).settings.zone] v).isSome ||
      (entryFor (s.planInForce (s.link l).settings.zone) v).isSome then (s.link l).gates[v] else none := by
    unfold State.pruneGates
    rw [hgates]
    simp
  rw [hvalue]
  simp only [Bool.or_eq_true, hin]

end

/-! ## The combine point -/

section
variable {s : State}

theorem State.combinePoint_none (h : s.combiner.prev = none) : s.combinePoint.combiner.workList = s.combiner.workList ∧
    ∀ v, (s.combinePoint.service v) = s.service v := by
  unfold State.combinePoint
  rw [h]
  dsimp only
  split
  · next n hn =>
    have hframe := (s.pruneGates_records n).1
    generalize s.pruneGates n = t at *
    rw [hframe]
    exact ⟨rfl, fun v => rfl⟩
  · exact ⟨rfl, fun v => rfl⟩

/-- R140: the shares of a combine point, before gate records are discarded. -/
theorem State.combinePoint_some {r : BlockRecord} (h : s.combiner.prev = some r) (hok : ∀ v, s.Combinable r v) :
    ∃ t, s.Combined t ∧ s.Shared t r (s.time.block - 2) allServices ∧
      (∀ n, s.combiner.now = some n → s.combinePoint = t.pruneGates n) ∧ (s.combiner.now = none → s.combinePoint = t) := by
  have hshared := State.foldl_combineService_shared allServices_sorted s rfl fun v _ => hok v
  have hcombined : s.Combined (s.forServices (fun s v => s.combineService r (s.time.block - 2) v)) :=
    State.forServices_induct (fun u => s.Combined u) _ (fun u v hu => hu.trans (State.combineService_combined _ _ v)) s (.refl s)
  refine ⟨_, hcombined, hshared, fun n hn => ?_, fun hn => ?_⟩
  · unfold State.combinePoint
    rw [h, hn]
  · unfold State.combinePoint
    rw [h, hn]

end

end Sys2Proof.Machine
end

section
/-! BLOCK_BOUNDARY: the timebase, the transmit queues and the combine point (R18, R137 to R149). -/

namespace Sys2Proof.Machine

open Sys2Proof

section
variable {s : State}

/-! ## What a combine point leaves -/

/-- R143: the gate records a combine point keeps and discards. -/
theorem State.combined_pruneGates {t : State} (ht : s.Combined t) (n : BlockRecord) : (∀ v, (t.pruneGates n).service v = t.service v) ∧
    (t.pruneGates n).combiner = t.combiner ∧ ∀ (l : LinkIx) (v : ServiceIx), ((t.pruneGates n).link l).gates[v] =
      if v ∈ carriedOf n.plans[(s.link l).settings.zone] ∨ v ∈ carriedOf (s.planInForce (s.link l).settings.zone) then
        (t.link l).gates[v] else none := by
  obtain ⟨hframe, hgates⟩ := t.pruneGates_records n
  have hsettings (l : LinkIx) : (t.link l).settings = (s.link l).settings := by rw [ht.link]
  have hplan (z : ZoneIx) : t.planInForce z = s.planInForce z := by rw [ht.frame]; rfl
  simp only [hsettings, hplan] at hgates
  generalize t.pruneGates n = u at *
  refine ⟨fun v => ?_, ?_, hgates⟩
  · rw [hframe]
    rfl
  · rw [hframe]

/-- R143: once a block is combined, a service in neither plan has no gate record. -/
theorem State.combinePoint_pruned {n : BlockRecord} (hn : s.combiner.now = some n) {l : LinkIx} {v : ServiceIx}
    (hnext : v ∉ carriedOf n.plans[(s.link l).settings.zone]) (hforce : v ∉ carriedOf (s.planInForce (s.link l).settings.zone)) :
    (s.combinePoint.link l).gates[v] = none := by
  have hpruned : ∃ t, s.Combined t ∧ s.combinePoint = t.pruneGates n := by
    unfold State.combinePoint
    rw [hn]
    refine ⟨_, ?_, rfl⟩
    split
    · exact State.forServices_induct (fun u => s.Combined u) _ (fun u v hu => hu.trans (State.combineService_combined _ _ v)) s (.refl s)
    · exact .refl s
  obtain ⟨t, ht, heq⟩ := hpruned
  obtain ⟨-, -, hgates⟩ := State.combined_pruneGates ht n
  rw [heq, hgates, if_neg fun h => h.elim hnext hforce]

/-- R140 to R149: what a combine point makes of the part, but for the gate records it discards. -/
theorem State.combinePoint_shared {r : BlockRecord} (h : s.combiner.prev = some r) (hok : ∀ v, s.Combinable r v) :
    ∃ t, s.Shared t r (s.time.block - 2) allServices ∧ (∀ v, s.combinePoint.service v = t.service v) ∧
      s.combinePoint.combiner.workList = t.combiner.workList ∧
      ∀ (l : LinkIx) (v : ServiceIx), (∀ n, s.combiner.now = some n →
        v ∈ carriedOf n.plans[(s.link l).settings.zone] ∨ v ∈ carriedOf (s.planInForce (s.link l).settings.zone)) →
        (s.combinePoint.link l).gates[v] = (t.link l).gates[v] := by
  obtain ⟨t, hcombined, hshared, hsome, hnone⟩ := State.combinePoint_some h hok
  refine ⟨t, hshared, ?_⟩
  cases hn : s.combiner.now with
  | none =>
    rw [hnone hn]
    exact ⟨fun _ => rfl, rfl, fun _ _ _ => rfl⟩
  | some n =>
    obtain ⟨hservice, hcombiner, hgates⟩ := State.combined_pruneGates hcombined n
    rw [hsome n hn]
    exact ⟨hservice, by rw [hcombiner], fun l v hkept => (hgates l v).trans (if_pos (hkept n rfl))⟩

/-! ## What the rest of a boundary's work keeps of it -/

variable (s) (levels : BitVec 4)

theorem State.blockWork_accounts (v : ServiceIx) :
    ((s.blockWork levels).service v).droppedBefore = (s.combinePoint.service v).droppedBefore ∧
    ((s.blockWork levels).service v).lastAppended = (s.combinePoint.service v).lastAppended ∧
    ((s.blockWork levels).service v).sums = (s.combinePoint.service v).sums := by
  rw [State.blockWork_service]
  generalize s.combinePoint.service v = x
  rw [x.launchAll_frame]
  exact ⟨rfl, rfl, rfl⟩

theorem State.blockWork_gates (l : LinkIx) : ((s.blockWork levels).link l).gates = (s.combinePoint.link l).gates := by
  rw [State.blockWork_link_eq]
  rfl

theorem State.blockWork_rx (l : LinkIx) : ((s.blockWork levels).link l).rx = (s.link l).rx.map RxHistory.advance := by
  rw [State.blockWork_link_eq]
  rfl

/-! ## The boundary -/

theorem State.atBoundary_owed : s.atBoundary.time.blockOwed = true := by
  unfold State.atBoundary
  split
  · next h => exact h
  · rw [s.beginBoundary_rest.2]

theorem State.atBoundary_atBoundary : s.atBoundary.atBoundary = s.atBoundary := if_pos s.atBoundary_owed

/-- The timebase: what a block boundary with none begun makes of the counters and the accounts (log 2). -/
theorem State.blockWork_begun : (s.beginBoundary.blockWork levels).time.block = s.time.block + 1 ∧
    (s.beginBoundary.blockWork levels).time.index = (if s.time.index = 9 then 0 else s.time.index + 1) ∧
    (s.beginBoundary.blockWork levels).time.superframe = (if s.time.index = 9 then s.time.superframe + 1 else s.time.superframe) ∧
    (s.beginBoundary.blockWork levels).time.blockOwed = false ∧
    (s.beginBoundary.blockWork levels).time.superframeOwed = (s.time.index == 9) ∧
    s.sameAccounts (s.beginBoundary.blockWork levels) := by
  obtain ⟨haccounts, hbegun⟩ := s.beginBoundary_rest
  obtain ⟨htime, -, -, -, -, hpath, horders, -, hpending⟩ := s.beginBoundary.blockWork_rest levels
  generalize s.beginBoundary.blockWork levels = t at *
  generalize s.beginBoundary = b at *
  have haccounts' : b.sameAccounts t := ⟨horders, hpending, by rw [hpath], by rw [hpath], by rw [hpath]⟩
  rw [htime, hbegun]
  exact ⟨rfl, rfl, rfl, rfl, rfl, haccounts.trans haccounts'⟩

end

/-- Settles O38: the counters and queues of a boundary that begins (`beginBoundary_records`, `beginBoundary_of_quiet`), and the combine
point service by service (`combinePoint_shared`). -/
theorem blockBoundaryAdvancesTimebase : Obligations.BlockBoundaryAdvancesTimebase := by
  intro s levels hreset
  have hexec := exec_blockBoundary s levels hreset
  have hbegun : s.time.blockOwed = false → s.atBoundary = s.beginBoundary := fun h => if_neg (ne_true_of_eq_false h)
  refine ⟨fun howed => ?_, ?_⟩
  · obtain ⟨hblock, hindex, hsuperframe, hblockOwed, hsuperframeOwed, horders, hpending, hqueue, haccess, hport⟩ := s.blockWork_begun levels
    rw [hbegun howed] at hexec
    exact ⟨_, hexec, hblock, hindex, hsuperframe, hblockOwed, hsuperframeOwed, horders, hqueue, haccess, hport, hpending⟩
  · intro b
    have hagain : exec (.blockBoundary levels) b = .next (b.blockWork levels) := by
      have h := exec_blockBoundary s.atBoundary levels (s.atBoundary_inReset.trans hreset)
      rw [s.atBoundary_atBoundary] at h
      exact h
    refine ⟨hexec.trans hagain.symm, fun howed => if_pos howed, fun howed l => ?_, fun howed hquiet => ?_, b.blockWork levels, hexec,
      b.blockWork_rx levels, fun r hr happlied hwidth => ?_, fun hnone => ?_, fun l v n hn hnext hforce => ?_⟩
    · have hb : b = s.beginBoundary := hbegun howed
      have hlink := s.beginBoundary_records.2 l
      rw [hb]
      generalize s.beginBoundary.link l = x at *
      generalize s.settle.link l = y at *
      rw [hlink]
      exact ⟨rfl, rfl⟩
    · have hb : b = s.beginBoundary := hbegun howed
      rw [hb]
      exact s.beginBoundary_of_quiet hquiet
    · have hok (v : ServiceIx) : b.Combinable r v := fun hcombines => by
        obtain ⟨hw, hlanes⟩ := hwidth v hcombines
        exact ⟨hw, fun c hc => ⟨hlanes c hc, happlied c.1⟩⟩
      obtain ⟨c, ⟨-, hsettled, added, hadded, hsorted, hmem⟩, hservice, hwork, hgates⟩ := State.combinePoint_shared hr hok
      have haccounts := b.blockWork_accounts levels
      have htgates := b.blockWork_gates levels
      obtain ⟨-, hcombiner, -⟩ := b.blockWork_rest levels
      have htwork : (b.blockWork levels).combiner.workList = c.combiner.workList := by rw [hcombiner]; exact hwork
      generalize b.blockWork levels = t at *
      have hfree (v : ServiceIx) : ¬ b.busy v ↔ ∀ y, y ∈ b.combiner.workList → y.service ≠ v := by
        unfold State.busy
        exact ⟨fun h y hy e => h ⟨y, hy, e⟩, fun h ⟨y, hy, e⟩ => h y hy e⟩
      refine ⟨fun v hcombines => ⟨expectedOf r v, b.presentOf r v, b.openOf r v, ⟨expectedOf_sorted r v, fun c => mem_expectedOf⟩,
        ⟨b.presentOf_sorted r v, fun c => State.mem_presentOf⟩, ⟨b.openOf_sorted r v, fun c => State.mem_openOf⟩, fun hnone => ?_⟩,
        fun v hcombines hbusy => ?_, fun v hnot => ?_, ⟨added, htwork.trans hadded, hsorted, fun v => ?_⟩, fun l v hkept => ⟨?_, ?_⟩⟩
      · obtain ⟨x, hx, hto, hdropped, hlast, hsums⟩ := (hsettled v (mem_allServices v)).appended hcombines ((hfree v).mpr hnone)
        obtain ⟨h1, h2, h3⟩ := haccounts v
        rw [hservice] at h1 h2 h3
        exact ⟨x, htwork ▸ hx, hto, h1.trans hdropped, h2.trans hlast, h3.trans hsums⟩
      · obtain ⟨hdropped, hlast, hsums⟩ := (hsettled v (mem_allServices v)).dropped hcombines hbusy
        obtain ⟨h1, h2, h3⟩ := haccounts v
        rw [hservice] at h1 h2 h3
        exact ⟨h1.trans hdropped, h2.trans hlast, h3.trans hsums⟩
      · obtain ⟨hdropped, hlast, hsums⟩ := (hsettled v (mem_allServices v)).idle hnot
        obtain ⟨h1, h2, h3⟩ := haccounts v
        rw [hservice] at h1 h2 h3
        exact ⟨h1.trans hdropped, h2.trans hlast, h3.trans hsums⟩
      · rw [hmem, hfree]
        exact and_iff_right (mem_allServices v)
      · intro f g hcombines hexpects hcontributes hg
        rw [htgates, hgates l v hkept]
        exact (hsettled v (mem_allServices v)).gates hcombines l f g hexpects hcontributes hg
      · intro hout
        rw [htgates, hgates l v hkept]
        exact (hsettled v (mem_allServices v)).stands l hout
    · obtain ⟨hwork, hservice⟩ := State.combinePoint_none hnone
      obtain ⟨-, hcombiner, -⟩ := b.blockWork_rest levels
      refine ⟨?_, fun v => ?_⟩
      · rw [← hwork, hcombiner]
      · rw [← hservice v]
        exact b.blockWork_accounts levels v
    · rw [b.blockWork_gates levels]
      exact State.combinePoint_pruned hn hnext hforce

end Sys2Proof.Machine
end
